-- ==== Sys2Proof/Syntax.lean ====
section
/-! DEFINITION. The commands of the part: one constructor for each row of spec/opcode_table.json. The table gives no operand bits, so the
operands are those the row's rule names: what the event is about (a port, a lane, a packet, an engine, a record address), the value a
host access writes, and what reaches the part from outside (a frame, a fetched image, a reading). Engine rows name the engine; the
operands of their microword are in the control store (R346). -/

namespace Sys2Proof

/-- R19: the two access paths. -/
inductive Path where
  | pcie | galley
  deriving DecidableEq, Repr

/-- R61: the three PCIe resets. -/
inductive PcieReset where
  | perst | hot | flr
  deriving DecidableEq, Repr

/-- R537: the loss conditions. -/
inductive Loss where
  | signal | cdr | marker | block | localFault | remoteFault
  deriving DecidableEq, Repr

/-- R653, R655: what the boot ROM reads: whether the OTP read fails, and the directory entries (offset in the flash, image bytes). -/
structure FlashRead where
  otpError : Bool
  images : List (Nat × List Byte)
  deriving DecidableEq, Repr

/-- R520: what a pseudo-channel's ECC and parity checks find on an access. -/
inductive HbmErr where
  | none | onDie | single | parityRetried (tries : Nat) | parityFailed | double
  deriving DecidableEq, Repr

/-- R502, R503: a request: its stack address, requester code, whether it writes (an update unit's request reads, and then writes in the same
activation when this is set), the reading engine, what the checks find when it is served, and whether its mirror copy fails too. -/
structure HbmReq where
  sa : Nat
  req : Nat
  write : Bool
  engine : Nat
  err : HbmErr
  mirrorErr : Bool
  deriving DecidableEq, Repr

/-- R505, R520: a read of a pseudo-channel returning: channel c′ of the die, pseudo-channel, the requests that came to it since its last
command, oldest first, and the age of the read in ns. Which read returns is the order of service. -/
structure HbmRead where
  d : Nat
  ch : Nat
  u : Nat
  arr : List HbmReq
  ageNs : Nat
  deriving DecidableEq, Repr

/-- R606: what an error event carries: the die that reports it, CODE, INSTANCE, LEVEL, class 1 C, 2 K, 3 U, TYPE, the DETAIL bytes. -/
structure ErrEvent where
  d : Nat
  level : Nat
  code : Nat
  inst : Nat
  cls : Nat
  typ : Nat
  detail : List Byte
  deriving DecidableEq, Repr

/-- R708: what an endpoint's link trains to: its speed code and its width. -/
structure PcieLink where
  speed : Nat
  width : Nat
  deriving DecidableEq, Repr

/-- R708: the enables that the host sets once an endpoint accepts configuration requests: memory space, bus master. -/
structure PcieEnables where
  mem : Bool
  bus : Bool
  deriving DecidableEq, Repr

/-- R622, R627, R636, R708: an access of the host to an endpoint: a vector unmasked, a word of BAR2 written or read, a word of configuration space read, and
the memory space enable, bus master enable and power state (D3hot) that a configuration write sets. -/
inductive EpOp where
  | unmask (vec : Nat)
  | write (off : Nat) (v : Word)
  | read (off : Nat)
  | readConfig (off : Nat)
  | config (mem bus d3 : Bool)
  deriving DecidableEq, Repr

/-- R517: a failed lane repaired: its channel of the package (48·die + c′), and the group of lanes that shares its spare. -/
structure LaneRepair where
  ch : Nat
  grp : Nat
  deriving DecidableEq, Repr

/-- R517: where the training of a stack stops: the channel, and the lanes repaired before. -/
structure TrainStop where
  chan : Nat
  repaired : List LaneRepair
  deriving DecidableEq, Repr

/-- R56, R58: the word of a mode request, and that of a request over the other path in the same HCLK cycle. -/
structure ModeWord where
  v : Word
  other : Option Word
  deriving DecidableEq, Repr

/-- R28, R436: what a frame meets at the MAC: whether the region grants it a slot, whether the port's receive FIFO is full, and the cells of the frame that
are still to come when it enters the pipeline. -/
structure RxRoom where
  slot : Bool
  full : Bool
  rest : Nat
  deriving DecidableEq, Repr

/-- R496: a pseudo-channel: its channel among the 96 of the part, and which of the two. -/
structure PchId where
  ch : Nat
  u : Nat
  deriving DecidableEq, Repr

/-- R276, R278: the entry that a TCAM write names, and the bits that the rows of the array take wrong. -/
structure TcamPut where
  index : Nat
  flip : Nat
  deriving DecidableEq, Repr

/-- The commands. -/
inductive Instr where
  /-- POWER_ON_RESET, R68. -/
  | powerOnReset (refSel : Bool)
  /-- PIN_RESET, R61. -/
  | pinReset (refSel : Bool)
  /-- HOST_PACKAGE_RESET, R64. -/
  | hostPackageReset (p : Path) (v : Word)
  /-- RAIL_UNDERVOLTAGE, R693. -/
  | railUndervoltage
  /-- RAIL_RECOVERED, R693. -/
  | railRecovered (refSel : Bool)
  /-- DIE_SENSOR_SAMPLE, R698. -/
  | dieSensorSample (t0 : Int) (t1 : Int)
  /-- PCIE_RESET, R63. -/
  | pcieReset (ep : Nat) (kind : PcieReset)
  /-- PCIE_ENDPOINT_READY, R708. -/
  | pcieEndpointReady (ep : Nat) (link : PcieLink) (en : PcieEnables)
  /-- BOOT_VERIFY_COMPLETE, R655. -/
  | bootVerifyComplete (flash : FlashRead)
  /-- IMPRINT_SELF_TEST, R657. -/
  | imprintSelfTest
  /-- MODE_REQUEST, R56. -/
  | modeRequest (p : Path) (w : ModeWord)
  /-- FLUSH, R77. -/
  | flush (p : Path)
  /-- DEFERRED_TRANSITION_START, R107. -/
  | deferredTransitionStart
  /-- ENROL_TO_LOAD, R709. -/
  | enrolToLoad
  /-- LOAD_TO_RUN, R71. -/
  | loadToRun
  /-- LOAD_TO_PROOF, R709. -/
  | loadToProof
  /-- PROOF_TO_LOAD, R83. -/
  | proofToLoad
  /-- RUN_TO_DRAIN, R73. -/
  | runToDrain
  /-- DRAIN_TO_RUN, R78. -/
  | drainToRun
  /-- DRAIN_TO_LOAD, R102. -/
  | drainToLoad
  /-- DRAIN_TO_REST, R519. -/
  | drainToRest
  /-- REST_TO_RUN, R81. -/
  | restToRun (eyeFail : Option Nat)
  /-- DRAIN_COMPLETE, R75. -/
  | drainComplete
  /-- DRAIN_TIMEOUT, R76. -/
  | drainTimeout
  /-- DRAIN_PAUSE_RENEW, R73. -/
  | drainPauseRenew
  /-- HBM_TRAINING_COMPLETE, R516. -/
  | hbmTrainingComplete (repaired : List LaneRepair)
  /-- HBM_TRAINING_FAIL, R517. -/
  | hbmTrainingFail (stack : Nat) (chan : TrainStop) (step : Nat) (code : Nat)
  /-- FORME_GO, R103. -/
  | formeGo (p : Path) (v : Word)
  /-- FORME_FETCH_COMPLETE, R101. -/
  | formeFetchComplete (img : Option (List Byte))
  /-- FORME_VERIFY_COMPLETE, R98. -/
  | formeVerifyComplete
  /-- FORME_VALIDATE_COMPLETE, R98. -/
  | formeValidateComplete
  /-- FORME_QUIESCE_COMPLETE, R113. -/
  | formeQuiesceComplete
  /-- FORME_QUIESCE_TIMEOUT, R113. -/
  | formeQuiesceTimeout
  /-- UPDATE_SWITCH_POINT, R111. -/
  | updateSwitchPoint
  /-- FORME_APPLY_COMPLETE, R101. -/
  | formeApplyComplete
  /-- PATCH_GO, R384. -/
  | patchGo (p : Path) (v : Word)
  /-- PATCH_LOAD_COMPLETE, R384. -/
  | patchLoadComplete (img : Option (List Byte))
  /-- FRAME_RECEIVE, R541. -/
  | frameReceive (port : Nat) (bytes : List Byte) (room : RxRoom)
  /-- PARSE_COMPLETE, R252. -/
  | parseComplete (pkt : Nat)
  /-- DESCRIPTOR_RECEIVE, R144. -/
  | descriptorReceive (d : Nat)
  /-- PATTERN_RESULT_READY, R262. -/
  | patternResultReady (pkt : Nat)
  /-- RECORD_RETURN, R189. -/
  | recordReturn (pkt : Nat)
  /-- REPLAY_END, R193. -/
  | replayEnd (pkt : Nat)
  /-- VERDICT_RECEIVE, R202. -/
  | verdictReceive (d : Nat)
  /-- RECIRCULATE, R259. -/
  | recirculate (g : Nat)
  /-- FAST_INSERT_COMPLETE, R148. -/
  | fastInsertComplete (pkt : Nat)
  /-- SETUP_TIMEOUT, R153. -/
  | setupTimeout (d : Nat) (i : Nat)
  /-- SWEEP_VISIT, R159. -/
  | sweepVisit (raddr : Nat)
  /-- EXPORT_WALK_VISIT, R338. -/
  | exportWalkVisit (raddr : Nat)
  /-- AUU_WB, R157. -/
  | auuWb (raddr : Nat)
  /-- AUU_ADD, R208. -/
  | auuAdd (raddr : Nat)
  /-- AUU_STAMP, R208. -/
  | auuStamp (raddr : Nat)
  /-- AUU_CSET, R161. -/
  | auuCset (raddr : Nat)
  /-- AUU_CDEL, R155. -/
  | auuCdel (raddr : Nat)
  /-- AUU_CWRITE, R208. -/
  | auuCwrite (raddr : Nat)
  /-- AUU_FSET, R208. -/
  | auuFset (raddr : Nat) (bit : Nat)
  /-- AUU_FCLR, R208. -/
  | auuFclr (raddr : Nat) (bit : Nat)
  /-- FLOW_LOOKUP, R166. -/
  | flowLookup (p : Path) (d : Nat)
  /-- FLOW_DELETE, R166. -/
  | flowDelete (p : Path) (d : Nat)
  /-- FLOW_INSERT, R166. -/
  | flowInsert (p : Path) (d : Nat)
  /-- HINT_INVALIDATE, R181. -/
  | hintInvalidate (p : Path) (d : Nat) (v : Word)
  /-- HINT_INVALIDATE_COMPLETE, R181. -/
  | hintInvalidateComplete (d : Nat)
  /-- QUOIN_GRANT, R219. -/
  | quoinGrant (raddr : Nat)
  /-- QUOIN_WAIT_TIMEOUT, R219. -/
  | quoinWaitTimeout (e : Nat)
  /-- QUOIN_SWEEP_VISIT, R230. -/
  | quoinSweepVisit (raddr : Nat)
  /-- TORN_LOG_POP, R234. -/
  | tornLogPop (p : Path) (d : Nat)
  /-- TORN_READ, R232. -/
  | tornRead (p : Path) (d : Nat)
  /-- TORN_RESTORE, R232. -/
  | tornRestore (p : Path) (d : Nat)
  /-- TORN_EMPTY, R232. -/
  | tornEmpty (p : Path) (d : Nat)
  /-- ADD, R348. -/
  | kAdd (e : Nat)
  /-- SUB, R348. -/
  | kSub (e : Nat)
  /-- AND, R348. -/
  | kAnd (e : Nat)
  /-- OR, R348. -/
  | kOr (e : Nat)
  /-- XOR, R348. -/
  | kXor (e : Nat)
  /-- SHL, R348. -/
  | kShl (e : Nat)
  /-- SHR, R348. -/
  | kShr (e : Nat)
  /-- SAR, R348. -/
  | kSar (e : Nat)
  /-- ROR, R348. -/
  | kRor (e : Nat)
  /-- MOV, R348. -/
  | kMov (e : Nat)
  /-- MOVHI, R348. -/
  | kMovhi (e : Nat)
  /-- EXTR, R348. -/
  | kExtr (e : Nat)
  /-- INSR, R348. -/
  | kInsr (e : Nat)
  /-- CMPEQ, R348. -/
  | kCmpeq (e : Nat)
  /-- CMPLTU, R348. -/
  | kCmpltu (e : Nat)
  /-- CMPLTS, R348. -/
  | kCmplts (e : Nat)
  /-- MINU, R348. -/
  | kMinu (e : Nat)
  /-- MAXU, R348. -/
  | kMaxu (e : Nat)
  /-- MUL, R348. -/
  | kMul (e : Nat)
  /-- MULHU, R348. -/
  | kMulhu (e : Nat)
  /-- POPC, R348. -/
  | kPopc (e : Nat)
  /-- CLZ, R348. -/
  | kClz (e : Nat)
  /-- BSWAP, R348. -/
  | kBswap (e : Nat)
  /-- CRC64, R348. -/
  | kCrc64 (e : Nat)
  /-- CRC32C, R348. -/
  | kCrc32c (e : Nat)
  /-- LDL, R349. -/
  | kLdl (e : Nat)
  /-- STL, R349. -/
  | kStl (e : Nat)
  /-- LDS, R349. -/
  | kLds (e : Nat)
  /-- STS, R349. -/
  | kSts (e : Nat)
  /-- CASS, R349. -/
  | kCass (e : Nat)
  /-- FADDS, R349. -/
  | kFadds (e : Nat)
  /-- LDH, R349. -/
  | kLdh (e : Nat)
  /-- STH, R349. -/
  | kSth (e : Nat)
  /-- QACQ, R216. -/
  | kQacq (e : Nat)
  /-- QTRY, R216. -/
  | kQtry (e : Nat)
  /-- QREAD, R216. -/
  | kQread (e : Nat)
  /-- QWRITE, R216. -/
  | kQwrite (e : Nat)
  /-- QREL, R221. -/
  | kQrel (e : Nat)
  /-- RADD, R349. -/
  | kRadd (e : Nat)
  /-- RSTAMP, R349. -/
  | kRstamp (e : Nat)
  /-- RLOOK, R349. -/
  | kRlook (e : Nat)
  /-- RINS, R349. -/
  | kRins (e : Nat)
  /-- RDEL, R349. -/
  | kRdel (e : Nat)
  /-- LDT, R349. -/
  | kLdt (e : Nat)
  /-- LDPKT, R349. -/
  | kLdpkt (e : Nat)
  /-- PKTSEND, R349. -/
  | kPktsend (e : Nat)
  /-- PMCRD, R393. -/
  | kPmcrd (e : Nat)
  /-- JMP, R350. -/
  | kJmp (e : Nat)
  /-- BR, R350. -/
  | kBr (e : Nat)
  /-- BBS, R350. -/
  | kBbs (e : Nat)
  /-- BBC, R350. -/
  | kBbc (e : Nat)
  /-- CALL, R350. -/
  | kCall (e : Nat)
  /-- RET, R350. -/
  | kRet (e : Nat)
  /-- JMPR, R350. -/
  | kJmpr (e : Nat)
  /-- DCALL, R359. -/
  | kDcall (e : Nat)
  /-- ATOM, R368. -/
  | kAtom (e : Nat)
  /-- ENDATOM, R370. -/
  | kEndatom (e : Nat)
  /-- WAIT, R401. -/
  | kWait (e : Nat)
  /-- YIELD, R403. -/
  | kYield (e : Nat)
  /-- DONE, R362. -/
  | kDone (e : Nat)
  /-- IRET, R367. -/
  | kIret (e : Nat)
  /-- FAULT, R350. -/
  | kFault (e : Nat)
  /-- MEMORY_RESULT_RETURN, R342. -/
  | memoryResultReturn (e : Nat)
  /-- ENGINE_INTERRUPT, R366. -/
  | engineInterrupt (e : Nat)
  /-- HOST_INTERRUPT_RAISE, R365. -/
  | hostInterruptRaise (p : Path) (e : Nat)
  /-- ATOMIC_WINDOW_LIMIT, R372. -/
  | atomicWindowLimit (e : Nat)
  /-- WORK_ITEM_TAKE, R361. -/
  | workItemTake (e : Nat)
  /-- ENGINE_RESET_WRITE, R24. -/
  | engineResetWrite (p : Path) (e : Nat)
  /-- ROLE_WRITE, R364. -/
  | roleWrite (p : Path) (e : Nat) (role : Bool)
  /-- ROLE_SWITCH, R364. -/
  | roleSwitch (e : Nat)
  /-- CLUSTER_BUS_GRANT, R387. -/
  | clusterBusGrant (k : Nat) (req : List Nat) (beats : Nat)
  /-- SCRATCH_APERTURE_ACCESS, R389. -/
  | scratchApertureAccess (p : Path) (k : Nat) (off : Nat) (wr : Option Word)
  /-- APERTURE_TIMEOUT, R389. -/
  | apertureTimeout (p : Path) (k : Nat) (off : Nat) (wr : Option Word)
  /-- PMC_EVSEL_WRITE, R391. -/
  | pmcEvselWrite (p : Path) (k : Nat) (n : Nat) (v : Word)
  /-- CREATE, R417. -/
  | tskCreate (p : Path) (d : Nat) (slot : Nat)
  /-- KILL, R417. -/
  | tskKill (p : Path) (d : Nat) (slot : Nat)
  /-- REQUEUE, R417. -/
  | tskRequeue (p : Path) (d : Nat) (slot : Nat)
  /-- SETPRIO, R417. -/
  | tskSetprio (p : Path) (d : Nat) (slot : Nat)
  /-- SLOT_TIMER_EXPIRE, R408. -/
  | slotTimerExpire (d : Nat) (slot : Nat)
  /-- EVENT_LINE, R407. -/
  | eventLine (d : Nat) (line : Nat)
  /-- SLOT_EVENT_WRITE, R406. -/
  | slotEventWrite (p : Path) (d : Nat) (slot : Nat) (v : Word)
  /-- WATCHDOG_BITE, R416. -/
  | watchdogBite (e : Nat)
  /-- FABRIC_SLOT_MATCH, R441. -/
  | fabricSlotMatch
  /-- FABRIC_TRANSFER_COMPLETE, R443. -/
  | fabricTransferComplete (g : Nat) (eg : Nat) (dataErr : Bool)
  /-- RESEQ_TIMEOUT, R448. -/
  | reseqTimeout (eg : Nat)
  /-- SPILL_PAGE_WRITE, R451. -/
  | spillPageWrite (g : Nat) (voq : Nat) (dataErr : Bool)
  /-- WADI_REFILL, R452. -/
  | wadiRefill (g : Nat) (voq : Nat)
  /-- WADI_PAGE_RETURN, R452. -/
  | wadiPageReturn (g : Nat) (voq : Nat) (fail : Bool)
  /-- FRAME_TRANSMIT_COMPLETE, R426. -/
  | frameTransmitComplete (port : Nat) (dataErr : Bool)
  /-- SHAPER_REFILL, R471. -/
  | shaperRefill (port : Nat) (cls : Option Nat)
  /-- PAUSE_EXPIRE, R547. -/
  | pauseExpire (port : Nat) (cls : Option Nat)
  /-- PFC_RENEW, R551. -/
  | pfcRenew (port : Nat)
  /-- GATE_CHANGE_REQUEST, R475. -/
  | gateChangeRequest (p : Path) (port : Nat) (v : Word)
  /-- GATE_CONFIG_CHANGE, R475. -/
  | gateConfigChange (port : Nat)
  /-- GATE_ENTRY_CHANGE, R474. -/
  | gateEntryChange (port : Nat)
  /-- RECOVERY_RESET_TIMEOUT, R487. -/
  | recoveryResetTimeout (g : Nat) (r : Nat)
  /-- LED_PERIOD_END, R489. -/
  | ledPeriodEnd (g : Nat) (r : Nat)
  /-- HBM_READ_COMPLETE, R520. -/
  | hbmReadComplete (rd : HbmRead)
  /-- PANIC_RAISE, R507. -/
  | panicRaise (pc : PchId) (arr : List HbmReq)
  /-- REFRESH_DUE, R511. -/
  | refreshDue (ch : Nat) (u : Nat) (bank : Nat)
  /-- STACK_TEMP_READING, R511. -/
  | stackTempReading (stack : Nat) (t : Int)
  /-- READ_EYE_RECENTRE, R518. -/
  | readEyeRecentre (stack : Nat) (edge : Option Nat)
  /-- PORT_ADMIN_WRITE, R556. -/
  | portAdminWrite (p : Path) (port : Nat) (admin : Bool)
  /-- LINK_LOCK_ACQUIRED, R536. -/
  | linkLockAcquired (port : Nat) (skew : Nat)
  /-- LINK_UP_DEBOUNCE_EXPIRE, R536. -/
  | linkUpDebounceExpire (port : Nat)
  /-- LOSS_CONDITION, R537. -/
  | lossCondition (port : Nat) (lane : Nat) (loss : Loss)
  /-- LINK_DOWN_DECLARE, R536. -/
  | linkDownDeclare (port : Nat)
  /-- HOLD_EXPIRE, R555. -/
  | holdExpire (port : Nat)
  /-- WTR_EXPIRE, R561. -/
  | wtrExpire (g : Nat) (n : Nat)
  /-- PROTECTION_REVERT, R561. -/
  | protectionRevert (g : Nat) (n : Nat)
  /-- PROTECTION_GROUP_WRITE, R557. -/
  | protectionGroupWrite (p : Path) (g : Nat) (n : Nat) (v : Word)
  /-- INJ_BIT, R565. -/
  | injBit (p : Path) (lane : Nat)
  /-- INJ_BURST, R565. -/
  | injBurst (p : Path) (lane : Nat)
  /-- RATE, R576. -/
  | timRate (p : Path)
  /-- STEP, R576. -/
  | timStep (p : Path)
  /-- SET, R576. -/
  | timSet (p : Path)
  /-- CANCEL, R576. -/
  | timCancel (p : Path)
  /-- TIME_COMMAND_ARRIVE, R577. -/
  | timeCommandArrive
  /-- TIME_EPOCH_REACHED, R579. -/
  | timeEpochReached
  /-- REF_LOST, R575. -/
  | refLost
  /-- REF_RELOCK, R575. -/
  | refRelock
  /-- EVENT_TIMER_FIRE, R587. -/
  | eventTimerFire (d : Nat) (n : Nat)
  /-- PPS_OUTPUT, R592. -/
  | ppsOutput (k : Nat)
  /-- OUTPUT_PULSE_END, R592. -/
  | outputPulseEnd (k : Nat)
  /-- TRIGGER_CAPTURE, R592. -/
  | triggerCapture (k : Nat)
  /-- TIME_CAPTURE_READ, R593. -/
  | timeCaptureRead (p : Path) (d : Nat)
  /-- TRIGGER_READ, R593. -/
  | triggerRead (p : Path) (k : Nat)
  /-- STAMP_ENTRY, R584. -/
  | stampEntry (g : Nat) (raw : Nat)
  /-- STAMP_QUEUE_POP, R593. -/
  | stampQueuePop (p : Path) (g : Nat)
  /-- ERROR_RECORD, R608. -/
  | errorRecord (ev : ErrEvent)
  /-- INJECTION_ARM, R616. -/
  | injectionArm (p : Path) (d : Nat) (v : Word)
  /-- INJECTION_CANCEL, R616. -/
  | injectionCancel (p : Path) (d : Nat)
  /-- QUIESCE_WRITE, R601. -/
  | quiesceWrite (p : Path) (d : Nat) (v : Word)
  /-- RELEASE, R614. -/
  | divRelease (p : Path) (d : Nat)
  /-- PURGE, R614. -/
  | divPurge (p : Path) (d : Nat)
  /-- TCAM_WRITE, R276. -/
  | tcamWrite (p : Path) (g : Nat) (prof : Nat) (e : TcamPut)
  /-- TCAM_INVALIDATE, R280. -/
  | tcamInvalidate (p : Path) (g : Nat) (prof : Nat) (index : Nat)
  /-- TCAM_READ, R280. -/
  | tcamRead (p : Path) (g : Nat) (prof : Nat) (index : Nat)
  /-- READ_ARRAY, R280. -/
  | tcamReadArray (p : Path) (g : Nat) (prof : Nat) (index : Nat)
  /-- TCAM_SCRUB_VISIT, R281. -/
  | tcamScrubVisit (g : Nat) (block : Nat) (row : Nat)
  /-- EX_LOOKUP, R290. -/
  | exLookup (p : Path) (g : Nat) (table : Nat)
  /-- EX_INSERT, R288. -/
  | exInsert (p : Path) (g : Nat) (table : Nat)
  /-- EX_DELETE, R290. -/
  | exDelete (p : Path) (g : Nat) (table : Nat)
  /-- REPLACE, R290. -/
  | exReplace (p : Path) (g : Nat) (table : Nat)
  /-- DWRITE, R290. -/
  | dirWrite (p : Path) (g : Nat) (table : Nat) (index : Nat)
  /-- DREAD, R290. -/
  | dirRead (p : Path) (g : Nat) (table : Nat) (index : Nat)
  /-- COUNTER_SNAPSHOT, R305. -/
  | counterSnapshot (p : Path) (g : Nat) (v : Word)
  /-- L2_LEARN_APPLY, R295. -/
  | l2LearnApply (d : Nat)
  /-- L2_SWEEP_VISIT, R296. -/
  | l2SweepVisit (d : Nat) (index : Nat)
  /-- L2_LOOKUP, R302. -/
  | l2Lookup (p : Path) (d : Nat)
  /-- L2_INSERT, R302. -/
  | l2Insert (p : Path) (d : Nat)
  /-- L2_DELETE, R302. -/
  | l2Delete (p : Path) (d : Nat)
  /-- L2_FLUSH, R302. -/
  | l2Flush (p : Path) (d : Nat) (fidm : Bool)
  /-- ACT_WRITE, R309. -/
  | actWrite (p : Path) (d : Nat) (index : Nat)
  /-- ACT_READ, R340. -/
  | actRead (p : Path) (d : Nat) (index : Nat)
  /-- CP_ENT_WRITE, R323. -/
  | cpEntWrite (p : Path) (d : Nat) (z : Nat) (w : Nat) (v : Word)
  /-- GWRITE, R331. -/
  | balGwrite (p : Path) (d : Nat)
  /-- GREAD, R331. -/
  | balGread (p : Path) (d : Nat)
  /-- MWRITE, R331. -/
  | balMwrite (p : Path) (d : Nat)
  /-- MREAD, R331. -/
  | balMread (p : Path) (d : Nat)
  /-- LWRITE, R331. -/
  | balLwrite (p : Path) (d : Nat)
  /-- LREAD, R331. -/
  | balLread (p : Path) (d : Nat)
  /-- TX_DOORBELL, R636. -/
  | txDoorbell (p : Path) (t : Nat) (v : Nat)
  /-- TX_DESCRIPTOR_PROCESS, R629. -/
  | txDescriptorProcess (t : Nat) (desc : List Byte) (frame : Option (List Byte))
  /-- TX_STALL_RETRY, R630. -/
  | txStallRetry (t : Nat)
  /-- RX_DOORBELL, R636. -/
  | rxDoorbell (p : Path) (d : Nat) (t : Nat) (v : Nat)
  /-- RX_FRAME_DELIVER, R633. -/
  | rxFrameDeliver (d : Nat) (c : Nat) (desc : List Byte)
  /-- EXC_EN_WRITE, R635. -/
  | excEnWrite (p : Path) (en : Bool)
  /-- MSIX_UNMASK, R627. -/
  | msixUnmask (ep : Nat) (vec : EpOp)
  /-- GALLEY_FRAME_FORWARD, R640. -/
  | galleyFrameForward (down : Bool) (frame : List Byte)
  /-- ENUM, R643. -/
  | galleyEnum (down : Bool) (frame : List Byte)
  /-- IDENT, R642. -/
  | galleyIdent (down : Bool) (frame : List Byte)
  /-- GALLEY_STATUS, R642. -/
  | galleyStatus (down : Bool) (frame : List Byte)
  /-- GALLEY_RD, R642. -/
  | galleyRd (down : Bool) (frame : List Byte)
  /-- GALLEY_WR, R642. -/
  | galleyWr (down : Bool) (frame : List Byte)
  /-- GALLEY_RESET, R642. -/
  | galleyReset (down : Bool) (frame : List Byte)
  /-- GALLEY_TIME, R646. -/
  | galleyTime (down : Bool) (frame : List Byte)
  /-- ERRLOG, R642. -/
  | galleyErrlog (down : Bool) (frame : List Byte)
  /-- GALLEY_LOSS_OF_SIGNAL, R645. -/
  | galleyLossOfSignal (down : Bool)
  /-- GALLEY_ATTACH, R645. -/
  | galleyAttach (down : Bool)
  /-- GALLEY_ALERT_SEND, R647. -/
  | galleyAlertSend
  /-- GALLEY_CRED_LOCK, R649. -/
  | galleyCredLock (p : Path)
  /-- PROG_OROOT, R666. -/
  | progOroot (p : Path) (arg : Nat) (blob : Option (List Byte))
  /-- RAISE_OSVN, R665. -/
  | raiseOsvn (p : Path) (arg : Nat)
  /-- RAISE_VSVN, R665. -/
  | raiseVsvn (p : Path) (arg : Nat)
  /-- ATTESTATION_START, R661. -/
  | attestationStart (p : Path)
  /-- ATTESTATION_COMPLETE, R663. -/
  | attestationComplete (dmaOk : Bool)
  /-- MONITOR_TRIP, R669. -/
  | monitorTrip
  /-- MREG_LATCH_READ, R670. -/
  | mregLatchRead (p : Path)
  /-- TAP_BYPASS, R668. -/
  | tapBypass
  /-- TAP_SAMPLE_PRELOAD, R668. -/
  | tapSamplePreload (bits : List Bool)
  /-- TAP_EXTEST, R668. -/
  | tapExtest
  /-- TRACE_CLEAR, R671. -/
  | traceClear (p : Path) (d : Nat)
  /-- TRACE_ENABLE, R681. -/
  | traceEnable (p : Path) (d : Nat) (v : Word)
  /-- TRACE_MARK, R672. -/
  | traceMark (p : Path) (d : Nat) (v : Word)
  /-- TRACE_STOP_COUNT_EXPIRE, R681. -/
  | traceStopCountExpire (d : Nat)
  /-- ENG_PC_SAMPLE, R679. -/
  | engPcSample (e : Nat)
  /-- TRACE_RECORD_LATCH, R682. -/
  | traceRecordLatch (p : Path) (d : Nat)
  /-- CLEARING_READ, R15. -/
  | clearingRead (p : Path) (off : Nat) (inc : Nat)
  /-- WIDE_LOW_WORD_READ, R18. -/
  | wideLowWordRead (p : Path) (off : Nat)
  /-- REGISTER_WRITE, R13. -/
  | registerWrite (p : Path) (off : Nat) (v : Word) (hw : Word)
  /-- HOST_ACCESS_ERROR_READ, R626. -/
  | hostAccessErrorRead (p : Path) (off : Nat)
  /-- PRBS_CHECKER_LOCK, R564. -/
  | prbsCheckerLock (lane : Nat)
  /-- PRBS_CHECKER_LOSS, R564. -/
  | prbsCheckerLoss (lane : Nat)
  /-- SDS_PLL_LOSS_OF_LOCK, R567. -/
  | sdsPllLossOfLock (lane : Nat) (tx : Bool)
  /-- PCIE_LINK_DOWN, R634. -/
  | pcieLinkDown (ep : Nat)
  /-- PCIE_LINK_UP, R634. -/
  | pcieLinkUp (ep : Nat) (speed : Nat) (width : Nat)
  deriving DecidableEq, Repr

end Sys2Proof
end

