-- ==== Sys2Proof/Machine/Crc.lean ====
section
/-! DEFINITION. The check sums of the spec, bit by bit: CRC-16 and CRC-64 of flow records (R124, R136), the galley CRC (R639), CRC-32C, the
Ethernet FCS, and the ones'-complement sums of IP headers. -/

namespace Sys2Proof.Machine

/-- One bit into a CRC fed most significant bit first. -/
def crcBit (w poly c b : Nat) : Nat :=
  let c' := c * 2 % 2 ^ w
  if c / 2 ^ (w - 1) % 2 = b % 2 then c' else Nat.xor c' poly

/-- One byte, most significant bit first. -/
def crcByte (w poly c b : Nat) : Nat :=
  (List.range 8).foldl (fun c i => crcBit w poly c (b / 2 ^ (7 - i))) c

/-- R124, R136, R639: no reflection and no final XOR. -/
def crcMsb (w poly init : Nat) (bs : List Byte) : Nat := bs.foldl (fun c b => crcByte w poly c b.toNat) init

/-- R124: CRC-16 of records and tag blocks. -/
def crc16 (bs : List Byte) : Nat := crcMsb 16 0x8BB7 0 bs

/-- R639: CRC-16 of galley frames. -/
def crcGalley (bs : List Byte) : Nat := crcMsb 16 0x1021 0xFFFF bs

/-- R136: the ECMA-182 polynomial of CRC-64. -/
def poly64 : Nat := 0x42F0E1EBA9EA3693

/-- R136: CRC-64 from a seed. -/
def crc64 (seed : Nat) (bs : List Byte) : Nat := crcMsb 64 poly64 seed bs

/-- One byte into a reflected 32-bit CRC. -/
def crcByteR (poly c b : Nat) : Nat :=
  (List.range 8).foldl (fun c _ => if c % 2 = 1 then Nat.xor (c / 2) poly else c / 2) (Nat.xor c b)

/-- A reflected 32-bit CRC without the first and last inversion. -/
def crcLsb (poly init : Nat) (bs : List Byte) : Nat := bs.foldl (fun c b => crcByteR poly c b.toNat) init

/-- CRC-32C (Castagnoli) step over bytes from a running value. -/
def crc32c (init : Nat) (bs : List Byte) : Nat := crcLsb 0x82F63B78 init bs

/-- IEEE 802.3: the frame check sequence of a frame, as a 32-bit value sent low byte first. -/
def fcs32 (bs : List Byte) : Nat := Nat.xor (crcLsb 0xEDB88320 0xFFFFFFFF bs) 0xFFFFFFFF

/-- The four FCS bytes of a frame. -/
def fcsBytes (bs : List Byte) : List Byte := leBytes 4 (fcs32 bs)

/-- Whether the last four bytes of a frame are its FCS. -/
def fcsGood (bs : List Byte) : Bool := (bs.drop (bs.length - 4)) == fcsBytes (bs.take (bs.length - 4))

/-- A ones'-complement 16-bit sum folded. -/
def fold16 (n : Nat) : Nat := let a := n % 65536 + n / 65536; a % 65536 + a / 65536

/-- The sum of the network-order 16-bit words of bytes. -/
def sum16 : List Byte → Nat
  | a :: b :: bs => a.toNat * 256 + b.toNat + sum16 bs
  | [a] => a.toNat * 256
  | [] => 0

/-- RFC 1624: a check sum after words of sum `old` were replaced by words of sum `new`. -/
def csumUpdate (csum old new : Nat) : Nat :=
  65535 - fold16 (fold16 (65535 - csum % 65536 + (65535 - fold16 old)) + fold16 new)

end Sys2Proof.Machine
end

