-- ==== Sys2Proof/Config.lean ====
section
/-! DEFINITION. What one piece of silicon fixes and the spec leaves open, and the free values: constants with no body, so that nothing
can be proved of their values. -/

namespace Sys2Proof.Config

/-- R7: the ordering codes: VT6400-A1-F, VT6400-A1-B, VT6400-A0-E. -/
inductive OrderingCode where
  | a1f | a1b | a0e
  deriving DecidableEq, Repr, Inhabited

/-- R7: the ordering code of the part. -/
opaque ordering : OrderingCode
/-- R7: the customer area, capability 0x0007: every code but A1-B. Capabilities 0x0001 to 0x0006 and 0x0008 to 0x000A are on every code. -/
def capCustomer : Bool := ordering != .a1b
/-- R7, R117: whether the silicon carries a capability below 0x0100. -/
def capPresent (id : Nat) : Bool := decide (1 ≤ id) && decide (id ≤ 0xA) && (id != 7 || capCustomer)
/-- R642, R381: the STEP byte: 0 for stepping A0, 1 for A1. -/
def stepping : Nat := if ordering == .a0e then 0 else 1
/-- R8: an erratum that an A0-E part carries, below 256. -/
opaque firstErratum : Nat
/-- R8: which of the errata 0x0100 + i an A0-E part carries. -/
opaque erratum : Nat → Bool
/-- R8: the two dwords of the body of an erratum. -/
opaque erratumBody : Nat → Nat × Nat
/-- R8, R117: the erratum capabilities: (ID, dword 2, dword 3), one or more of 0x0100 to 0x01FF on an A0-E part, none on an A1 part. -/
def errata : List (Nat × Nat × Nat) :=
  if ordering == .a0e then
    ((List.range 256).filter (fun i => i == firstErratum % 256 || erratum i)).map
      (fun i => (0x100 + i, (erratumBody i).1 % 2 ^ 23, (erratumBody i).2 % 2 ^ 17))
  else []
/-- R650: the vendor root digest, 64 bytes, written at manufacture. -/
opaque vroot : List Byte
/-- R650: the device secret, 32 bytes. -/
opaque dsecret : List Byte
/-- R650: the check value of the imprint, 16 bytes. -/
opaque impChk : List Byte
/-- R658: the release of the boot ROM. -/
opaque romRelease : Nat
/-- R658: the contents of the boot ROM. -/
opaque romImage : List Byte
/-- FIPS 202: SHAKE256 of a message, n bytes of output. -/
opaque shake256 : List Byte → Nat → List Byte
/-- FIPS 205: verification under SLH-DSA-SHAKE-256s: public key, message, signature, with an empty context (R652). -/
opaque slhVerify : List Byte → List Byte → List Byte → Bool
/-- FIPS 205: the public key of slh_keygen_internal under SLH-DSA-SHAKE-256f for a 96-byte seed (R656). -/
opaque slhPublic : List Byte → List Byte
/-- FIPS 205: the deterministic SLH-DSA-SHAKE-256f signature under the key of a seed, with a context string (R662). -/
opaque slhSign : List Byte → List Byte → List Byte → List Byte
/-- SP 800-185: KMAC256 under a key, over a message, with 128-bit output and a customization string (R644). -/
opaque kmac256 : List Byte → List Byte → List Byte → List Byte
/-- Free: ECLK cycles of a cluster in one TCLK cycle; the two clocks are unrelated (R20, R390). -/
opaque eclkPerTick : Nat → Nat → Nat
/-- Free: draw n of the neighbour-refresh generator of a pseudo-channel under a seed (R513, R515). -/
opaque nrDraw : Nat → Nat → Nat → Nat
/-- Free: an unstated value, for use n of the free-value counter. -/
opaque freeValue : Nat → Nat

end Sys2Proof.Config
end

