-- ==== Sys2Proof/Machine/Regs.lean ====
section
/-! DEFINITION. The registers of the spec: one name per register of its tables (R13, R17, R625 and each block's own table), with its
BAR0 offset, the strides of its indices, and its fields with their access codes and reset values. Indices come in the order
die, region window, cluster, lane or channel, then those of the spec's own brackets; a register without one of them skips it. -/

namespace Sys2Proof.Machine

/-- R13: the access codes. A bit no field names is RSV. -/
inductive Acc where
  | rw | ro | w1c | w1s | wo | rc | rwl
  deriving DecidableEq, Repr

/-- R17: a field resets to its value; a field marked forme or OTP reads 0 until the part loads it. -/
inductive Src where
  | lit | forme | otp | strap
  deriving DecidableEq, Repr

/-- One field of a register table: bits hi down to lo. -/
structure RField where
  name : String
  hi : Nat
  lo : Nat
  acc : Acc
  src : Src
  rst : Nat
  deriving DecidableEq, Repr

/-- One row of a register table: `id` numbers the row, `off` is the BAR0 offset with every index 0, `dims` the (lowest, highest, stride) of each index. -/
structure RegSpec where
  id : Nat
  off : Nat
  dims : List (Nat × Nat × Nat)
  wide : Bool
  fields : List RField
  deriving DecidableEq, Repr

/-- A field with a reset value. -/
def fl (n : String) (hi lo : Nat) (a : Acc) (v : Nat := 0) : RField := ⟨n, hi, lo, a, .lit, v⟩
/-- A field the forme (or the OTP, or a strap) gives. -/
def fs (n : String) (hi lo : Nat) (a : Acc) (s : Src) : RField := ⟨n, hi, lo, a, s, 0⟩

/-- Whether two rows are the same register. -/
def RegSpec.is (a b : RegSpec) : Bool := a.id == b.id

namespace R


/-! Registers of R53. -/
def GLB_MODE : RegSpec := ⟨0, 0x10, [], false, [fl "PREV_MODE" 10 8 .ro, fl "TRANS" 7 7 .ro, fl "DIE1_DONE" 6 6 .ro,
  fl "TARGET" 5 3 .ro, fl "MODE" 2 0 .ro 1]⟩

/-! Registers of R54. -/
def GLB_MODE_REQ : RegSpec := ⟨1, 0x14, [], false, [fl "STATUS" 19 16 .ro, fl "FLUSH" 8 8 .wo, fl "GO" 3 3 .wo,
  fl "TARGET" 2 0 .rw]⟩

/-! Registers of R64. -/
def GLB_RESET : RegSpec := ⟨2, 0x20, [], false, [fl "CONFIRM" 31 16 .wo, fl "PKG" 0 0 .wo]⟩

/-! Registers of R65. -/
def GLB_RESET_CAUSE : RegSpec := ⟨3, 0x1c, [], false, [fl "CAUSE" 2 0 .ro]⟩

/-! Registers of R66. -/
def GLB_BOOT_STATUS : RegSpec := ⟨4, 0x18, [], false, [fl "FAIL_IMAGE" 23 16 .ro, fl "CODE" 15 8 .ro, fl "ROOT_DONE" 7 7 .ro,
  fl "ENROL_DONE" 6 6 .ro, fl "FORME_OK" 5 5 .ro, fl "TRAIN_DONE" 4 4 .ro, fl "DRAIN_DONE" 3 3 .ro, fl "DRAIN_STUCK" 2 2 .ro]⟩

/-! Registers of R79. -/
def GLB_DRAIN_CFG : RegSpec := ⟨5, 0x24, [], false, [fl "PAUSE_EN" 16 16 .rw, fl "TMO_MS" 15 0 .rw 0xc8]⟩
def GLB_FLUSH_CNT : RegSpec := ⟨6, 0x28, [], false, [fl "FRAMES" 31 0 .rc]⟩

/-! Registers of R96. -/
def GLB_FORME_ADDR_LO : RegSpec := ⟨7, 0x40, [], false, [fl "ADDR_LO" 31 0 .rw]⟩
def GLB_FORME_ADDR_HI : RegSpec := ⟨8, 0x44, [], false, [fl "ADDR_HI" 31 0 .rw]⟩
def GLB_FORME_LEN : RegSpec := ⟨9, 0x48, [], false, [fl "LEN" 22 0 .rw]⟩
def GLB_FORME_CTL : RegSpec := ⟨10, 0x4c, [], false, [fl "QTMO_US" 31 16 .rw 0x3e8, fl "GO" 0 0 .wo]⟩
def GLB_FORME_STATUS : RegSpec := ⟨11, 0x50, [], false, [fl "STATE" 31 28 .ro, fl "CAUSE" 23 16 .ro, fl "SECTION" 15 8 .ro 0xff,
  fl "OTHER" 7 0 .ro 0xff]⟩
def GLB_FORME_DETAIL : RegSpec := ⟨12, 0x54, [], false, [fl "RTYPE" 31 24 .ro, fl "DIE" 23 16 .ro, fl "INDEX" 15 0 .ro]⟩
def GLB_FORME_ID : RegSpec := ⟨13, 0x58, [], true, [fl "ID" 63 0 .ro]⟩
def GLB_FORME_INFO : RegSpec := ⟨14, 0x60, [], false, [fl "UPDATES" 31 16 .ro, fl "SVN" 15 0 .ro]⟩

/-! Registers of R169. -/
def FLW_CTL : RegSpec := ⟨15, 0xc00000, [(0, 1, 0x4000000)], false, [fl "SWEEP_EN" 2 2 .rw, fl "INS_EN" 1 1 .rw,
  fs "PLACE" 0 0 .ro .forme]⟩
def FLW_SEED : RegSpec := ⟨16, 0xc00008, [(0, 1, 0x4000000)], true, [fs "SEED" 63 0 .ro .forme]⟩
def FLW_LIMIT : RegSpec := ⟨17, 0xc00010, [(0, 1, 0x4000000)], false, [fs "LIMIT" 27 0 .rw .forme]⟩
def FLW_COUNT : RegSpec := ⟨18, 0xc00014, [(0, 1, 0x4000000)], false, [fl "COUNT" 27 0 .ro]⟩
def FLW_STACK_OOS : RegSpec := ⟨19, 0xc00018, [(0, 1, 0x4000000)], false, [fl "OOS" 2 0 .rw]⟩
def FLW_SWEEP_CFG : RegSpec := ⟨20, 0xc00020, [(0, 1, 0x4000000)], false, [fl "PERIOD_MS" 19 0 .rw 0x3e8]⟩
def FLW_SWEEP_STATUS : RegSpec := ⟨21, 0xc00024, [(0, 1, 0x4000000)], false, [fl "ACTIVE" 31 31 .ro, fl "PASSES" 23 0 .ro]⟩
def FLW_PEND_CFG : RegSpec := ⟨22, 0xc00028, [(0, 1, 0x4000000)], false, [fl "TMO_US" 31 16 .rw 0x3e8,
  fl "MAX_PKTS" 7 0 .rw 0x40]⟩
def FLW_PEND_STATUS : RegSpec := ⟨23, 0xc0002c, [(0, 1, 0x4000000)], false, [fl "FLOWS" 14 0 .ro]⟩
def FLW_INS_FAST : RegSpec := ⟨24, 0xc00040, [(0, 1, 0x4000000)], false, [fl "COUNT" 31 0 .rc]⟩
def FLW_INS_ENG : RegSpec := ⟨25, 0xc00044, [(0, 1, 0x4000000)], false, [fl "COUNT" 31 0 .rc]⟩
def FLW_FULL_CNT : RegSpec := ⟨26, 0xc00048, [(0, 1, 0x4000000)], false, [fl "COUNT" 31 0 .rc]⟩
def FLW_LIMIT_CNT : RegSpec := ⟨27, 0xc0004c, [(0, 1, 0x4000000)], false, [fl "COUNT" 31 0 .rc]⟩
def FLW_PEND_DROP : RegSpec := ⟨28, 0xc00050, [(0, 1, 0x4000000)], false, [fl "COUNT" 31 0 .rc]⟩
def FLW_DEL_CNT : RegSpec := ⟨29, 0xc00054, [(0, 1, 0x4000000)], false, [fl "COUNT" 31 0 .rc]⟩
def FLW_AGED_CNT : RegSpec := ⟨30, 0xc00058, [(0, 1, 0x4000000)], false, [fl "COUNT" 31 0 .rc]⟩
def FLW_LATE_UPD : RegSpec := ⟨31, 0xc0005c, [(0, 1, 0x4000000)], false, [fl "COUNT" 31 0 .rc]⟩
def FLW_SETUP_REJ : RegSpec := ⟨32, 0xc00060, [(0, 1, 0x4000000)], false, [fl "COUNT" 31 0 .rc]⟩
def FLW_PTAB_FULL : RegSpec := ⟨33, 0xc00064, [(0, 1, 0x4000000)], false, [fl "COUNT" 31 0 .rc]⟩
def FLW_KFORM : RegSpec := ⟨34, 0xc00100, [(0, 1, 0x4000000), (0, 15, 4)], false, [fs "EN" 31 31 .ro .forme,
  fs "FAMILY" 30 29 .ro .forme, fs "F_ZONE" 28 28 .ro .forme, fs "F_PROTO" 27 27 .ro .forme, fs "F_SPORT" 26 26 .ro .forme,
  fs "F_DPORT" 25 25 .ro .forme, fs "F_SADDR" 24 24 .ro .forme, fs "F_DADDR" 23 23 .ro .forme, fs "FAST" 22 22 .ro .forme,
  fs "FULL_ACT" 21 20 .ro .forme, fs "CELLPLAN" 19 19 .ro .forme, fs "SETUP_OP" 15 8 .ro .forme, fs "TEMPLATE" 5 0 .ro .forme]⟩
def FLW_HKEY : RegSpec := ⟨35, 0xc00200, [(0, 1, 0x4000000), (0, 9, 4)], false, [fl "KEY" 31 0 .rw]⟩
def FLW_HCMD : RegSpec := ⟨36, 0xc00240, [(0, 1, 0x4000000)], false, [fl "OP" 3 0 .wo]⟩
def FLW_HSTAT : RegSpec := ⟨37, 0xc00244, [(0, 1, 0x4000000)], false, [fl "BUSY" 31 31 .ro, fl "CODE" 27 24 .ro,
  fl "SWAP" 23 23 .ro, fl "STACK" 22 20 .ro, fl "SLOT" 19 17 .ro, fl "ALT" 16 16 .ro]⟩
def FLW_HLOC : RegSpec := ⟨38, 0xc00248, [(0, 1, 0x4000000)], false, [fl "BUCKET" 22 0 .ro]⟩
def FLW_HREC : RegSpec := ⟨39, 0xc00280, [(0, 1, 0x4000000), (0, 15, 4)], false, [fl "REC" 31 0 .rw]⟩
def FLW_TMPL : RegSpec := ⟨40, 0xc00400, [(0, 1, 0x4000000), (0, 63, 0x10), (0, 3, 4)], false, [fs "T" 31 0 .ro .forme]⟩

/-! Registers of R206. -/
def FLW_MIR_CTL : RegSpec := ⟨41, 0xc01000, [(0, 1, 0x4000000)], false, [fl "MIN_CONF" 7 6 .rw 1, fl "INV_BUSY" 2 2 .ro,
  fl "INV" 1 1 .wo, fl "EN" 0 0 .rw]⟩
def FLW_MIR_IDX : RegSpec := ⟨42, 0xc01008, [(0, 1, 0x4000000)], false, [fl "INDEX" 20 0 .rw]⟩
def FLW_MIR_ENTRY : RegSpec := ⟨43, 0xc01010, [(0, 1, 0x4000000)], true, [fl "ENTRY" 63 0 .ro]⟩
def FLW_MIR_WIN_PEAK : RegSpec := ⟨44, 0xc01020, [(0, 1, 0x4000000), (0, 1, 4)], false, [fl "PEAK" 11 0 .rc]⟩
def FLW_MIR_HIT : RegSpec := ⟨45, 0xc01100, [(0, 1, 0x4000000), (0, 1, 0x80)], true, [fl "COUNT" 63 0 .rc]⟩
def FLW_MIR_MISS : RegSpec := ⟨46, 0xc01108, [(0, 1, 0x4000000), (0, 1, 0x80)], true, [fl "COUNT" 63 0 .rc]⟩
def FLW_MIR_LOWCONF : RegSpec := ⟨47, 0xc01110, [(0, 1, 0x4000000), (0, 1, 0x80)], true, [fl "COUNT" 63 0 .rc]⟩
def FLW_MIR_COMMIT : RegSpec := ⟨48, 0xc01118, [(0, 1, 0x4000000), (0, 1, 0x80)], true, [fl "COUNT" 63 0 .rc]⟩
def FLW_MIR_SQUASH : RegSpec := ⟨49, 0xc01120, [(0, 1, 0x4000000), (0, 1, 0x80)], true, [fl "COUNT" 63 0 .rc]⟩
def FLW_MIR_SHADOW : RegSpec := ⟨50, 0xc01128, [(0, 1, 0x4000000), (0, 1, 0x80)], true, [fl "COUNT" 63 0 .rc]⟩
def FLW_MIR_HELD : RegSpec := ⟨51, 0xc01130, [(0, 1, 0x4000000), (0, 1, 0x80)], true, [fl "COUNT" 63 0 .rc]⟩
def FLW_MIR_WINFULL : RegSpec := ⟨52, 0xc01138, [(0, 1, 0x4000000), (0, 1, 0x80)], true, [fl "COUNT" 63 0 .rc]⟩

/-! Registers of R234. -/
def FLW_QN_CFG : RegSpec := ⟨53, 0xc01200, [(0, 1, 0x4000000)], false, [fl "WAIT_CYC" 15 0 .rw 0x1000]⟩
def FLW_QN_STATUS : RegSpec := ⟨54, 0xc01204, [(0, 1, 0x4000000)], false, [fl "INUSE" 16 0 .ro]⟩
def FLW_QN_ORDER : RegSpec := ⟨55, 0xc01208, [(0, 1, 0x4000000)], false, [fl "COUNT" 31 0 .rc]⟩
def FLW_QN_BUSY : RegSpec := ⟨56, 0xc0120c, [(0, 1, 0x4000000)], false, [fl "COUNT" 31 0 .rc]⟩
def FLW_QN_FULL : RegSpec := ⟨57, 0xc01210, [(0, 1, 0x4000000)], false, [fl "COUNT" 31 0 .rc]⟩
def FLW_QN_ORPHAN : RegSpec := ⟨58, 0xc01214, [(0, 1, 0x4000000)], false, [fl "COUNT" 31 0 .rc]⟩
def FLW_QN_TORN : RegSpec := ⟨59, 0xc01218, [(0, 1, 0x4000000)], false, [fl "COUNT" 31 0 .rc]⟩
def FLW_QN_TORN_LOG : RegSpec := ⟨60, 0xc01220, [(0, 1, 0x4000000)], false, [fl "VALID" 31 31 .rc, fl "OVF" 30 30 .rc,
  fl "RADDR" 28 0 .rc]⟩
def FLW_QN_RLOC : RegSpec := ⟨61, 0xc01230, [(0, 1, 0x4000000)], false, [fl "RADDR" 28 0 .rw]⟩
def FLW_QN_RCMD : RegSpec := ⟨62, 0xc01234, [(0, 1, 0x4000000)], false, [fl "OP" 3 0 .wo]⟩
def FLW_QN_RSTAT : RegSpec := ⟨63, 0xc01238, [(0, 1, 0x4000000)], false, [fl "BUSY" 31 31 .ro, fl "CODE" 27 24 .ro]⟩
def FLW_QN_EPOCH : RegSpec := ⟨64, 0xc01280, [(0, 1, 0x4000000), (0, 47, 4)], false, [fl "EPOCH" 15 0 .ro]⟩

/-! Registers of R235. -/
def PRS_PORT_CFG : RegSpec := ⟨65, 0x2000100, [(0, 1, 0x4000000), (0, 1, 0x800000), (0, 17, 4)], false, [fl "START" 31 25 .rwl,
  fl "PROF" 24 21 .rwl, fl "KFORM" 20 17 .rwl, fl "KVALID" 16 16 .rwl, fl "ZSEL" 15 15 .rwl, fl "PAT_EN" 14 14 .rwl]⟩
def PRS_PORT_ZONE : RegSpec := ⟨66, 0x2000180, [(0, 1, 0x4000000), (0, 1, 0x800000), (0, 17, 4)], false, [fl "ZONE" 15 0 .rwl]⟩
def PRS_ZMAP : RegSpec := ⟨67, 0x2010000, [(0, 1, 0x4000000), (0, 1, 0x800000), (0, 4095, 4)], false, [fl "VALID" 16 16 .rw,
  fl "ZONE" 15 0 .rw]⟩

/-! Registers of R267. -/
def PRS_MALF_ACT : RegSpec := ⟨68, 0x2000400, [(0, 1, 0x4000000), (0, 1, 0x800000), (1, 31, 4)], false,
  [fs "SESS" 15 8 .ro .forme, fs "ACT" 1 0 .ro .forme]⟩
def PRS_MALF_CNT : RegSpec := ⟨69, 0x2000500, [(0, 1, 0x4000000), (0, 1, 0x800000), (1, 31, 4)], false, [fl "COUNT" 31 0 .rc]⟩
def PRS_MALF_LAST : RegSpec := ⟨70, 0x2000600, [(0, 1, 0x4000000), (0, 1, 0x800000)], false, [fl "CAUSE" 31 27 .ro,
  fl "OFF" 24 16 .ro, fl "PORT" 6 0 .ro]⟩
def PRS_RECIRC_DROP : RegSpec := ⟨71, 0x2000604, [(0, 1, 0x4000000), (0, 1, 0x800000)], false, [fl "COUNT" 31 0 .rc]⟩
def PRS_NOFLOW : RegSpec := ⟨72, 0x2000608, [(0, 1, 0x4000000), (0, 1, 0x800000)], false, [fl "COUNT" 31 0 .rc]⟩
def PRS_SPREAD_OOR : RegSpec := ⟨73, 0x200060c, [(0, 1, 0x4000000), (0, 1, 0x800000)], false, [fl "COUNT" 31 0 .rc]⟩
def PRS_PAT_IDX : RegSpec := ⟨74, 0x2000700, [(0, 1, 0x4000000), (0, 1, 0x800000)], false, [fl "INDEX" 10 0 .rw]⟩
def PRS_PAT_INFO : RegSpec := ⟨75, 0x2000704, [(0, 1, 0x4000000), (0, 1, 0x800000)], false, [fl "PID" 31 16 .ro,
  fl "VALID" 15 15 .ro, fl "OFFSET" 14 6 .ro, fl "LEN" 5 0 .ro]⟩
def PRS_PAT_HITS : RegSpec := ⟨76, 0x2000708, [(0, 1, 0x4000000), (0, 1, 0x800000)], false, [fl "COUNT" 31 0 .rc]⟩
def PRS_PARSED : RegSpec := ⟨77, 0x2000800, [(0, 1, 0x4000000), (0, 1, 0x800000)], true, [fl "COUNT" 63 0 .rc]⟩
def PRS_INSPECTED : RegSpec := ⟨78, 0x2000808, [(0, 1, 0x4000000), (0, 1, 0x800000)], true, [fl "COUNT" 63 0 .rc]⟩

/-! Registers of R305. -/
def MAT_TDESC : RegSpec := ⟨79, 0x2100000, [(0, 1, 0x4000000), (0, 1, 0x800000), (0, 23, 0x20), (0, 7, 4)], false,
  [fs "DESC" 31 0 .ro .forme]⟩
def MAT_TPROF : RegSpec := ⟨80, 0x2100400, [(0, 1, 0x4000000), (0, 1, 0x800000), (0, 15, 4)], false, [fs "EN" 31 31 .ro .forme,
  fs "WIDTH" 25 24 .ro .forme, fs "BLOCKS" 15 0 .ro .forme]⟩
def MAT_TPROF_GMASK : RegSpec := ⟨81, 0x2100800, [(0, 1, 0x4000000), (0, 1, 0x800000), (0, 15, 0x80), (0, 19, 4)], false,
  [fs "GMASK" 31 0 .ro .forme]⟩
def MAT_TCAM_VAL : RegSpec := ⟨82, 0x2101000, [(0, 1, 0x4000000), (0, 1, 0x800000), (0, 19, 4)], false, [fl "VAL" 31 0 .rw]⟩
def MAT_TCAM_MASK : RegSpec := ⟨83, 0x2101080, [(0, 1, 0x4000000), (0, 1, 0x800000), (0, 19, 4)], false, [fl "MASK" 31 0 .rw]⟩
def MAT_TCAM_RES : RegSpec := ⟨84, 0x2101100, [(0, 1, 0x4000000), (0, 1, 0x800000), (0, 1, 4)], false, [fl "RES" 31 0 .rw]⟩
def MAT_TCAM_SIDE : RegSpec := ⟨85, 0x2101108, [(0, 1, 0x4000000), (0, 1, 0x800000)], false, [fl "CNT_EN" 20 20 .rw,
  fl "PRI" 19 16 .rw, fl "CNT_IDX" 15 0 .rw]⟩
def MAT_TCAM_CMD : RegSpec := ⟨86, 0x2101110, [(0, 1, 0x4000000), (0, 1, 0x800000)], false, [fl "OP" 31 28 .wo,
  fl "PROF" 27 24 .wo, fl "INDEX" 14 0 .wo]⟩
def MAT_TCAM_STAT : RegSpec := ⟨87, 0x2101114, [(0, 1, 0x4000000), (0, 1, 0x800000)], false, [fl "BUSY" 31 31 .ro,
  fl "VALID" 30 30 .ro, fl "CODE" 27 24 .ro]⟩
def MAT_TCAM_BLKCTL : RegSpec := ⟨88, 0x2101200, [(0, 1, 0x4000000), (0, 1, 0x800000), (0, 15, 4)], false, [fl "RECOV" 1 1 .rw,
  fl "SCRUB_EN" 0 0 .rw 1]⟩
def MAT_TCAM_MISM : RegSpec := ⟨89, 0x2101240, [(0, 1, 0x4000000), (0, 1, 0x800000), (0, 15, 4)], false, [fl "COUNT" 31 0 .rc]⟩
def MAT_TCAM_MLAST : RegSpec := ⟨90, 0x2101280, [(0, 1, 0x4000000), (0, 1, 0x800000)], false, [fl "REPEAT" 31 31 .ro,
  fl "BLOCK" 14 11 .ro, fl "ROW" 10 0 .ro]⟩
def MAT_PROF_HIT : RegSpec := ⟨91, 0x2101400, [(0, 1, 0x4000000), (0, 1, 0x800000), (0, 15, 0x10)], true, [fl "COUNT" 63 0 .rc]⟩
def MAT_PROF_MISS : RegSpec := ⟨92, 0x2101408, [(0, 1, 0x4000000), (0, 1, 0x800000), (0, 15, 0x10)], true, [fl "COUNT" 63 0 .rc]⟩
def MAT_CNT_SEL : RegSpec := ⟨93, 0x2102000, [(0, 1, 0x4000000), (0, 1, 0x800000)], false, [fl "CLR" 31 31 .wo,
  fl "INDEX" 15 0 .rw]⟩
def MAT_CNT_PKTS : RegSpec := ⟨94, 0x2102008, [(0, 1, 0x4000000), (0, 1, 0x800000)], true, [fl "PKTS" 63 0 .ro]⟩
def MAT_CNT_OCT : RegSpec := ⟨95, 0x2102010, [(0, 1, 0x4000000), (0, 1, 0x800000)], true, [fl "OCT" 63 0 .ro]⟩
def MAT_EX_KEY : RegSpec := ⟨96, 0x2103000, [(0, 1, 0x4000000), (0, 1, 0x800000), (0, 19, 4)], false, [fl "KEY" 31 0 .rw]⟩
def MAT_EX_RES : RegSpec := ⟨97, 0x2103050, [(0, 1, 0x4000000), (0, 1, 0x800000), (0, 1, 4)], false, [fl "RES" 31 0 .rw]⟩
def MAT_EX_SIDE : RegSpec := ⟨98, 0x2103058, [(0, 1, 0x4000000), (0, 1, 0x800000)], false, [fl "CNT_EN" 20 20 .rw,
  fl "CNT_IDX" 15 0 .rw]⟩
def MAT_EX_CMD : RegSpec := ⟨99, 0x2103060, [(0, 1, 0x4000000), (0, 1, 0x800000)], false, [fl "OP" 31 28 .wo,
  fl "TABLE" 27 20 .wo, fl "INDEX" 19 0 .wo]⟩
def MAT_EX_STAT : RegSpec := ⟨100, 0x2103064, [(0, 1, 0x4000000), (0, 1, 0x800000)], false, [fl "BUSY" 31 31 .ro,
  fl "CODE" 27 24 .ro]⟩
def MAT_EX_TBL : RegSpec := ⟨101, 0x2103100, [(0, 1, 0x4000000), (0, 1, 0x800000), (0, 95, 4)], false, [fs "EN" 31 31 .ro .forme,
  fs "KIND" 30 30 .ro .forme, fs "SIZE" 23 16 .ro .forme, fs "NBANK" 15 8 .ro .forme, fs "FIRST" 7 0 .ro .forme]⟩
def MAT_EX_COUNT : RegSpec := ⟨102, 0x2103300, [(0, 1, 0x4000000), (0, 1, 0x800000), (0, 31, 4)], false, [fl "COUNT" 31 0 .ro]⟩

/-! Registers of R306. -/
def L2_RPUSH : RegSpec := ⟨103, 0x2200000, [(0, 1, 0x4000000), (0, 1, 0x800000)], false, [fl "COUNT" 31 0 .rc]⟩
def L2_RSRC_MISS : RegSpec := ⟨104, 0x2200004, [(0, 1, 0x4000000), (0, 1, 0x800000)], false, [fl "COUNT" 31 0 .rc]⟩
def L2_RDST_MISS : RegSpec := ⟨105, 0x2200008, [(0, 1, 0x4000000), (0, 1, 0x800000)], false, [fl "COUNT" 31 0 .rc]⟩
def L2_CFG : RegSpec := ⟨106, 0x2201000, [(0, 1, 0x4000000)], false, [fl "LEARN_EN" 17 17 .rw, fl "SWEEP_EN" 16 16 .rw,
  fl "MOVE_WIN_MS" 15 0 .rw 0x3e8]⟩
def L2_SEED_A : RegSpec := ⟨107, 0x2201004, [(0, 1, 0x4000000)], false, [fl "SEED" 31 0 .rwl]⟩
def L2_SEED_B : RegSpec := ⟨108, 0x2201008, [(0, 1, 0x4000000)], false, [fl "SEED" 31 0 .rwl 0xffffffff]⟩
def L2_SWEEP_CFG : RegSpec := ⟨109, 0x220100c, [(0, 1, 0x4000000)], false, [fl "PERIOD_MS" 19 0 .rw 0x493e0]⟩
def L2_COUNT : RegSpec := ⟨110, 0x2201010, [(0, 1, 0x4000000)], false, [fl "COUNT" 19 0 .ro]⟩
def L2_FIFO_LVL : RegSpec := ⟨111, 0x2201014, [(0, 1, 0x4000000)], false, [fl "LEVEL" 12 0 .ro]⟩
def L2_LEARN_CNT : RegSpec := ⟨112, 0x2201020, [(0, 1, 0x4000000)], false, [fl "COUNT" 31 0 .rc]⟩
def L2_MOVE_CNT : RegSpec := ⟨113, 0x2201024, [(0, 1, 0x4000000)], false, [fl "COUNT" 31 0 .rc]⟩
def L2_FLAP_CNT : RegSpec := ⟨114, 0x2201028, [(0, 1, 0x4000000)], false, [fl "COUNT" 31 0 .rc]⟩
def L2_AGED_CNT : RegSpec := ⟨115, 0x220102c, [(0, 1, 0x4000000)], false, [fl "COUNT" 31 0 .rc]⟩
def L2_FULL_CNT : RegSpec := ⟨116, 0x2201030, [(0, 1, 0x4000000)], false, [fl "COUNT" 31 0 .rc]⟩
def L2_LEARN_DROP : RegSpec := ⟨117, 0x2201034, [(0, 1, 0x4000000)], false, [fl "COUNT" 31 0 .rc]⟩
def L2_STATIC_VIOL : RegSpec := ⟨118, 0x2201038, [(0, 1, 0x4000000)], false, [fl "COUNT" 31 0 .rc]⟩
def L2_EVT_STALL : RegSpec := ⟨119, 0x220103c, [(0, 1, 0x4000000)], false, [fl "COUNT" 31 0 .rc]⟩
def L2_HENT : RegSpec := ⟨120, 0x2201100, [(0, 1, 0x4000000), (0, 2, 4)], false, [fl "ENT" 31 0 .rw]⟩
def L2_HCMD : RegSpec := ⟨121, 0x2201110, [(0, 1, 0x4000000)], false, [fl "FIDM" 8 8 .wo, fl "OP" 3 0 .wo]⟩
def L2_HSTAT : RegSpec := ⟨122, 0x2201114, [(0, 1, 0x4000000)], false, [fl "BUSY" 31 31 .ro, fl "CODE" 27 24 .ro]⟩
def L2_EVT_BASE_LO : RegSpec := ⟨123, 0x2201200, [(0, 1, 0x4000000)], false, [fl "ADDR_LO" 31 0 .rwl]⟩
def L2_EVT_BASE_HI : RegSpec := ⟨124, 0x2201204, [(0, 1, 0x4000000)], false, [fl "ADDR_HI" 31 0 .rwl]⟩
def L2_EVT_SIZE : RegSpec := ⟨125, 0x2201208, [(0, 1, 0x4000000)], false, [fl "LOG2" 4 0 .rwl 8]⟩
def L2_EVT_HEAD : RegSpec := ⟨126, 0x220120c, [(0, 1, 0x4000000)], false, [fl "HEAD" 15 0 .rw]⟩
def L2_EVT_TAIL : RegSpec := ⟨127, 0x2201210, [(0, 1, 0x4000000)], false, [fl "TAIL" 15 0 .ro]⟩
def L2_EVT_CTL : RegSpec := ⟨128, 0x2201214, [(0, 1, 0x4000000)], false, [fl "EN" 0 0 .rwl]⟩

/-! Registers of R340. -/
def ACT_ENT : RegSpec := ⟨129, 0xc02000, [(0, 1, 0x4000000), (0, 7, 4)], false, [fl "ENT" 31 0 .rw]⟩
def ACT_CMD : RegSpec := ⟨130, 0xc02020, [(0, 1, 0x4000000)], false, [fl "OP" 31 28 .wo, fl "INDEX" 17 0 .wo]⟩
def ACT_STAT : RegSpec := ⟨131, 0xc02024, [(0, 1, 0x4000000)], false, [fl "BUSY" 31 31 .ro, fl "CODE" 27 24 .ro]⟩
def ACT_TO : RegSpec := ⟨132, 0xc02100, [(0, 1, 0x4000000), (0, 7, 0x20), (1, 7, 4)], false, [fl "TO_MS" 23 0 .rw]⟩
def CP_SITE : RegSpec := ⟨133, 0xc02200, [(0, 1, 0x4000000)], false, [fl "BASE" 31 0 .rwl]⟩
def CP_CFG : RegSpec := ⟨134, 0xc02204, [(0, 1, 0x4000000)], false, [fl "EN" 31 31 .rwl, fl "SLEN" 12 8 .rwl,
  fl "HBITS" 4 0 .rwl]⟩
def BAL_IDX : RegSpec := ⟨135, 0xc02300, [(0, 1, 0x4000000)], false, [fl "INDEX" 19 0 .rw]⟩
def BAL_DATA : RegSpec := ⟨136, 0xc02310, [(0, 1, 0x4000000), (0, 3, 4)], false, [fl "DATA" 31 0 .rw]⟩
def BAL_CMD : RegSpec := ⟨137, 0xc02320, [(0, 1, 0x4000000)], false, [fl "OP" 31 28 .wo]⟩
def BAL_STAT : RegSpec := ⟨138, 0xc02324, [(0, 1, 0x4000000)], false, [fl "BUSY" 31 31 .ro, fl "CODE" 27 24 .ro]⟩
def EXP_HEAD : RegSpec := ⟨139, 0xc02400, [(0, 1, 0x4000000)], false, [fl "HEAD" 23 0 .rw]⟩
def EXP_TAIL : RegSpec := ⟨140, 0xc02404, [(0, 1, 0x4000000)], false, [fl "TAIL" 23 0 .ro]⟩
def EXP_LOST : RegSpec := ⟨141, 0xc02408, [(0, 1, 0x4000000)], false, [fl "COUNT" 31 0 .rc]⟩
def EXP_STALL : RegSpec := ⟨142, 0xc0240c, [(0, 1, 0x4000000)], false, [fl "COUNT" 31 0 .rc]⟩
def MIR_SKIP : RegSpec := ⟨143, 0xc02500, [(0, 1, 0x4000000), (0, 15, 4)], false, [fl "COUNT" 31 0 .rc]⟩
def ACT_BAD : RegSpec := ⟨144, 0xc02600, [(0, 1, 0x4000000)], false, [fl "COUNT" 31 0 .rc]⟩
def ACT_TCP_REFUSE : RegSpec := ⟨145, 0xc02604, [(0, 1, 0x4000000)], false, [fl "COUNT" 31 0 .rc]⟩
def ACT_TCP_EXP : RegSpec := ⟨146, 0xc02608, [(0, 1, 0x4000000)], false, [fl "COUNT" 31 0 .rc]⟩
def ACT_TCP_RACE : RegSpec := ⟨147, 0xc0260c, [(0, 1, 0x4000000)], false, [fl "COUNT" 31 0 .rc]⟩
def ACT_NAT_FRAG : RegSpec := ⟨148, 0xc02610, [(0, 1, 0x4000000)], false, [fl "COUNT" 31 0 .rc]⟩
def ACT_XLAT_NOMATCH : RegSpec := ⟨149, 0xc02614, [(0, 1, 0x4000000)], false, [fl "COUNT" 31 0 .rc]⟩
def ACT_NPT_FFFF : RegSpec := ⟨150, 0xc02618, [(0, 1, 0x4000000)], false, [fl "COUNT" 31 0 .rc]⟩
def CP_MISS : RegSpec := ⟨151, 0xc0261c, [(0, 1, 0x4000000)], false, [fl "COUNT" 31 0 .rc]⟩
def BAL_NOSEL : RegSpec := ⟨152, 0xc02620, [(0, 1, 0x4000000)], false, [fl "COUNT" 31 0 .rc]⟩
def BAL_DOWN_DROP : RegSpec := ⟨153, 0xc02624, [(0, 1, 0x4000000)], false, [fl "COUNT" 31 0 .rc]⟩
def CP_ENT_W0 : RegSpec := ⟨154, 0xc80000, [(0, 1, 0x4000000), (0, 65535, 8)], false, [fl "INSIDE" 31 0 .rw]⟩
def CP_ENT_W1 : RegSpec := ⟨155, 0xc80004, [(0, 1, 0x4000000), (0, 65535, 8)], false, [fl "VALID" 31 31 .rw]⟩

/-! Registers of R382. -/
def GLB_PATCH_ADDR_LO : RegSpec := ⟨156, 0x80, [], false, [fl "ADDR_LO" 31 0 .rw]⟩
def GLB_PATCH_ADDR_HI : RegSpec := ⟨157, 0x84, [], false, [fl "ADDR_HI" 31 0 .rw]⟩
def GLB_PATCH_LEN : RegSpec := ⟨158, 0x88, [], false, [fl "LEN" 19 0 .rw]⟩
def GLB_PATCH_CTL : RegSpec := ⟨159, 0x8c, [], false, [fl "GO" 0 0 .wo]⟩
def GLB_PATCH_STATUS : RegSpec := ⟨160, 0x90, [], false, [fl "STATE" 31 28 .ro, fl "CAUSE" 23 16 .ro, fl "RECORD" 15 8 .ro 0xff]⟩

/-! Registers of R394. -/
def KCS_PATCH_VER : RegSpec := ⟨161, 0x2300000, [(0, 1, 0x4000000), (0, 1, 0x800000), (0, 2, 0x40000)], false,
  [fl "BOOT_REL" 31 16 .ro, fl "VER" 15 0 .ro]⟩
def KCS_CS_ADDR : RegSpec := ⟨162, 0x2300010, [(0, 1, 0x4000000), (0, 1, 0x800000), (0, 2, 0x40000)], false, [fl "ADDR" 13 0 .rw]⟩
def KCS_CS_PAR : RegSpec := ⟨163, 0x2300014, [(0, 1, 0x4000000), (0, 1, 0x800000), (0, 2, 0x40000)], false, [fl "ERR" 8 8 .ro,
  fl "P" 5 0 .ro]⟩
def KCS_CS_DATA : RegSpec := ⟨164, 0x2300020, [(0, 1, 0x4000000), (0, 1, 0x800000), (0, 2, 0x40000), (0, 5, 4)], false,
  [fl "DATA" 31 0 .ro]⟩
def KCS_DISP : RegSpec := ⟨165, 0x2300100, [(0, 1, 0x4000000), (0, 1, 0x800000), (0, 2, 0x40000), (0, 255, 4)], false,
  [fl "ENTRY" 31 0 .ro]⟩
def KSN_WQ_STAT : RegSpec := ⟨166, 0x2300800, [(0, 1, 0x4000000), (0, 1, 0x800000), (0, 2, 0x40000)], false, [fl "HI" 22 16 .ro,
  fl "LO" 6 0 .ro]⟩
def KSN_BUS_STAT : RegSpec := ⟨167, 0x2300804, [(0, 1, 0x4000000), (0, 1, 0x800000), (0, 2, 0x40000)], false,
  [fl "BUSY" 31 31 .ro, fl "OWNER" 30 27 .ro, fl "BEATS" 15 0 .ro]⟩
def KSN_PAR_CNT : RegSpec := ⟨168, 0x2300808, [(0, 1, 0x4000000), (0, 1, 0x800000), (0, 2, 0x40000)], false,
  [fl "COUNT" 31 0 .rc]⟩
def KSN_BAD_DONE : RegSpec := ⟨169, 0x230080c, [(0, 1, 0x4000000), (0, 1, 0x800000), (0, 2, 0x40000)], false,
  [fl "COUNT" 31 0 .rc]⟩
def KSN_SCR_PAGE : RegSpec := ⟨170, 0x2300810, [(0, 1, 0x4000000), (0, 1, 0x800000), (0, 2, 0x40000)], false, [fl "PAGE" 0 0 .rw]⟩
def KSN_ENG_CFG : RegSpec := ⟨171, 0x2301000, [(0, 1, 0x4000000), (0, 1, 0x800000), (0, 2, 0x40000), (0, 7, 0x100)], false,
  [fl "ROLE" 1 1 .rw]⟩
def KSN_ENG_STAT : RegSpec := ⟨172, 0x2301004, [(0, 1, 0x4000000), (0, 1, 0x800000), (0, 2, 0x40000), (0, 7, 0x100)], false,
  [fl "STATE" 31 29 .ro 6, fl "ROLE_ACT" 28 28 .ro, fl "ATOMW" 27 27 .ro, fl "CUST" 26 26 .ro, fl "IMASK" 25 25 .ro,
  fl "NQ" 24 22 .ro, fl "OPC" 21 14 .ro, fl "UPC" 13 0 .ro]⟩
def KSN_ENG_MCHK : RegSpec := ⟨173, 0x2301008, [(0, 1, 0x4000000), (0, 1, 0x800000), (0, 2, 0x40000), (0, 7, 0x100)], false,
  [fl "CAUSE" 31 28 .ro, fl "ADDR" 13 0 .ro]⟩
def KSN_ENG_RESET : RegSpec := ⟨174, 0x230100c, [(0, 1, 0x4000000), (0, 1, 0x800000), (0, 2, 0x40000), (0, 7, 0x100)], false,
  [fl "GO" 0 0 .wo]⟩
def KSN_ENG_IRQ : RegSpec := ⟨175, 0x2301010, [(0, 1, 0x4000000), (0, 1, 0x800000), (0, 2, 0x40000), (0, 7, 0x100)], false,
  [fl "RAISE" 0 0 .wo]⟩
def PMC_USER_EN : RegSpec := ⟨176, 0x2303000, [(0, 1, 0x4000000), (0, 1, 0x800000), (0, 2, 0x40000)], false, [fl "EN" 0 0 .rw]⟩
def PMC_CYCLE : RegSpec := ⟨177, 0x2303008, [(0, 1, 0x4000000), (0, 1, 0x800000), (0, 2, 0x40000)], true, [fl "COUNT" 63 0 .ro]⟩
def PMC_EVSEL : RegSpec := ⟨178, 0x2303100, [(0, 1, 0x4000000), (0, 1, 0x800000), (0, 2, 0x40000), (0, 7, 4)], false,
  [fl "EN" 31 31 .rw, fl "OVF" 30 30 .w1c, fl "ENGMASK" 23 16 .rw 0xff, fl "EVENT" 7 0 .rw]⟩
def PMC_CTR : RegSpec := ⟨179, 0x2303200, [(0, 1, 0x4000000), (0, 1, 0x800000), (0, 2, 0x40000), (0, 7, 8)], true,
  [fl "COUNT" 47 0 .ro]⟩

/-! Registers of R419. -/
def TSK_SCFG : RegSpec := ⟨180, 0xd00000, [(0, 1, 0x4000000)], false, [fl "PRIO" 20 16 .rw, fl "ENTRY" 13 0 .rw]⟩
def TSK_SARG : RegSpec := ⟨181, 0xd00008, [(0, 1, 0x4000000)], true, [fl "ARG" 63 0 .rw]⟩
def TSK_SINTM : RegSpec := ⟨182, 0xd00010, [(0, 1, 0x4000000)], false, [fl "INTMASK" 31 0 .rw]⟩
def TSK_CMD : RegSpec := ⟨183, 0xd00020, [(0, 1, 0x4000000)], false, [fl "OP" 31 28 .wo, fl "SLOT" 8 0 .wo]⟩
def TSK_STAT : RegSpec := ⟨184, 0xd00024, [(0, 1, 0x4000000)], false, [fl "BUSY" 31 31 .ro, fl "CODE" 27 24 .ro]⟩
def TSK_READY : RegSpec := ⟨185, 0xd00030, [(0, 1, 0x4000000)], false, [fl "COUNT" 9 0 .ro]⟩
def TSK_PREEMPT_CNT : RegSpec := ⟨186, 0xd00040, [(0, 1, 0x4000000)], false, [fl "COUNT" 31 0 .rc]⟩
def TSK_WITHDRAW_CNT : RegSpec := ⟨187, 0xd00044, [(0, 1, 0x4000000)], false, [fl "COUNT" 31 0 .rc]⟩
def TSK_QHELD_CNT : RegSpec := ⟨188, 0xd00048, [(0, 1, 0x4000000)], false, [fl "COUNT" 31 0 .rc]⟩
def TSK_BITE_CNT : RegSpec := ⟨189, 0xd0004c, [(0, 1, 0x4000000)], false, [fl "COUNT" 31 0 .rc]⟩
def TSK_LINE : RegSpec := ⟨190, 0xd00100, [(0, 1, 0x4000000), (0, 15, 4)], false, [fl "EN" 31 31 .rw, fl "BIT" 13 9 .rw,
  fl "SLOT" 8 0 .rw]⟩
def TSK_WDOG : RegSpec := ⟨191, 0xd00200, [(0, 1, 0x4000000), (0, 47, 4)], false, [fl "EN" 31 31 .rw, fl "TMO_US" 19 0 .rw 0x3e8]⟩
def TSK_ENG_ST : RegSpec := ⟨192, 0xd00300, [(0, 1, 0x4000000), (0, 47, 4)], false, [fl "PREPEND" 31 31 .ro,
  fl "SLOT" 8 0 .ro 0x1ff]⟩
def TSK_SLOT_ST : RegSpec := ⟨193, 0xd01000, [(0, 1, 0x4000000), (0, 511, 4)], false, [fl "STATE" 31 29 .ro, fl "PRIO" 28 24 .ro,
  fl "TMR" 23 23 .ro, fl "ENGINE" 22 16 .ro 0x7f, fl "FAULTS" 15 8 .ro]⟩
def TSK_SLOT_EVT : RegSpec := ⟨194, 0xd01800, [(0, 1, 0x4000000), (0, 511, 4)], false, [fl "TIMER" 31 31 .ro,
  fl "EVENTS" 30 0 .w1s]⟩

/-! Registers of R461. -/
def BUF_FREE : RegSpec := ⟨195, 0x800000, [(0, 1, 0x4000000)], false, [fl "CELLS" 18 0 .ro 0x40000]⟩
def BUF_SPILL_CFG : RegSpec := ⟨196, 0x800010, [(0, 1, 0x4000000)], false, [fl "ON" 31 16 .rw 0x800, fl "REFILL" 15 0 .rw 0x100]⟩
def BUF_PART_LOW : RegSpec := ⟨197, 0x800014, [(0, 1, 0x4000000)], false, [fl "LOW" 18 0 .rw 0x2000]⟩
def BUF_WADI_STAT : RegSpec := ⟨198, 0x800018, [(0, 1, 0x4000000)], false, [fl "PAGES" 22 0 .ro]⟩
def BUF_WADI_SIZE : RegSpec := ⟨199, 0x80001c, [(0, 1, 0x4000000)], false, [fs "UNITS" 4 0 .ro .forme]⟩
def BUF_WADI_FULL : RegSpec := ⟨200, 0x800020, [(0, 1, 0x4000000)], false, [fl "COUNT" 31 0 .rc]⟩
def BUF_SPILL_ACT : RegSpec := ⟨201, 0x800024, [(0, 1, 0x4000000)], false, [fl "VOQS" 10 0 .ro]⟩
def BUF_PART_SIZE : RegSpec := ⟨202, 0x800100, [(0, 1, 0x4000000), (0, 16, 4)], false, [fs "SIZE" 18 0 .ro .forme]⟩
def BUF_PART_USE : RegSpec := ⟨203, 0x800180, [(0, 1, 0x4000000), (0, 16, 4)], false, [fl "USE" 18 0 .ro]⟩
def BUF_AGQ : RegSpec := ⟨204, 0x800200, [(0, 1, 0x4000000), (0, 10, 4)], false, [fs "LIMIT" 18 0 .rw .forme]⟩
def BUF_AGUSE : RegSpec := ⟨205, 0x800240, [(0, 1, 0x4000000), (0, 10, 4)], false, [fl "USE" 18 0 .ro]⟩
def BUF_NOCELL_CNT : RegSpec := ⟨206, 0x800280, [(0, 1, 0x4000000), (0, 10, 4)], false, [fl "COUNT" 31 0 .rc]⟩
def BUF_QUOTA_CNT : RegSpec := ⟨207, 0x8002c0, [(0, 1, 0x4000000), (0, 10, 4)], false, [fl "COUNT" 31 0 .rc]⟩
def BUF_QPROF : RegSpec := ⟨208, 0x800300, [(0, 1, 0x4000000), (0, 31, 4)], false, [fs "LIMIT" 18 0 .rw .forme]⟩
def BUF_DFREE : RegSpec := ⟨209, 0x800400, [(0, 1, 0x4000000)], false, [fl "VALID" 31 31 .rc, fl "AGENT" 30 27 .ro,
  fl "CELL" 17 0 .ro]⟩
def BUF_DFREE_CNT : RegSpec := ⟨210, 0x800404, [(0, 1, 0x4000000)], false, [fl "COUNT" 31 0 .rc]⟩
def BUF_NONOWN : RegSpec := ⟨211, 0x800408, [(0, 1, 0x4000000)], false, [fl "VALID" 31 31 .rc, fl "AGENT" 30 27 .ro,
  fl "TAG" 26 23 .ro, fl "CELL" 17 0 .ro]⟩
def BUF_NONOWN_CNT : RegSpec := ⟨212, 0x80040c, [(0, 1, 0x4000000)], false, [fl "COUNT" 31 0 .rc]⟩
def BUF_DATA_ERR_CNT : RegSpec := ⟨213, 0x800410, [(0, 1, 0x4000000)], false, [fl "COUNT" 31 0 .rc]⟩
def BUF_CELL_IDX : RegSpec := ⟨214, 0x800500, [(0, 1, 0x4000000)], false, [fl "INDEX" 17 0 .rw]⟩
def BUF_CELL_META : RegSpec := ⟨215, 0x800508, [(0, 1, 0x4000000)], true, [fl "META" 47 0 .ro]⟩

/-! Registers of R462. -/
def TMG_CFG : RegSpec := ⟨216, 0x900000, [(0, 1, 0x4000000)], false, [fl "CT_EN" 8 8 .rw 1, fs "FABRIC" 3 3 .ro .forme,
  fs "EXC_CLASS" 2 0 .ro .forme]⟩
def TMG_RESEQ_TMO : RegSpec := ⟨217, 0x900004, [(0, 1, 0x4000000)], false, [fl "TMO_US" 15 0 .rw 0xa]⟩
def TMG_VOQ_IDX : RegSpec := ⟨218, 0x900010, [(0, 1, 0x4000000), (0, 1, 4)], false, [fl "INDEX" 9 0 .rw]⟩
def TMG_VOQ_STAT : RegSpec := ⟨219, 0x900018, [(0, 1, 0x4000000), (0, 1, 4)], false, [fl "SPILL" 31 31 .ro, fl "ELIG" 30 30 .ro,
  fl "CELLS" 18 0 .ro]⟩
def TMG_VOQ_DROP : RegSpec := ⟨220, 0x900028, [(0, 1, 0x4000000), (0, 1, 4)], false, [fl "COUNT" 31 0 .rc]⟩
def TMG_RECIRC_FULL : RegSpec := ⟨221, 0x900030, [(0, 1, 0x4000000), (0, 1, 4)], false, [fl "COUNT" 31 0 .rc]⟩
def TMG_RESEQ_CNT : RegSpec := ⟨222, 0x900040, [(0, 1, 0x4000000)], false, [fl "COUNT" 31 0 .rc]⟩
def TMG_FAB_TX : RegSpec := ⟨223, 0x900100, [(0, 1, 0x4000000), (0, 1, 0x20), (0, 3, 8)], true, [fl "CELLS" 63 0 .rc]⟩
def TMG_CT_CNT : RegSpec := ⟨224, 0x900200, [(0, 1, 0x4000000), (0, 31, 4)], false, [fl "COUNT" 31 0 .rc]⟩
def TMG_STOMP_CNT : RegSpec := ⟨225, 0x900280, [(0, 1, 0x4000000), (0, 31, 4)], false, [fl "COUNT" 31 0 .rc]⟩
def TMG_MC_SKIP : RegSpec := ⟨226, 0x900300, [(0, 1, 0x4000000), (0, 64, 4)], false, [fl "COUNT" 31 0 .rc]⟩
def TMG_VOQ_PROF : RegSpec := ⟨227, 0x901000, [(0, 1, 0x4000000), (0, 1, 0x1000), (0, 519, 4)], false, [fs "PROF" 4 0 .rw .forme]⟩
def TMG_EQ_PROF : RegSpec := ⟨228, 0x903000, [(0, 1, 0x4000000), (0, 1, 0x400), (0, 135, 4)], false, [fs "PROF" 4 0 .rw .forme]⟩
def TMG_MC_GRP : RegSpec := ⟨229, 0x910000, [(0, 1, 0x4000000), (0, 8191, 4)], false, [fl "EN" 31 31 .rw, fl "FIRST" 22 8 .rw,
  fl "COUNT" 7 0 .rw]⟩
def TMG_MC_MEM : RegSpec := ⟨230, 0x920000, [(0, 1, 0x4000000), (0, 32767, 4)], false, [fl "VALID" 31 31 .rw,
  fl "PRUNE" 30 30 .rw, fl "COVR" 29 29 .rw, fl "CLASS" 28 26 .rw, fl "PORT" 6 0 .rw]⟩

/-! Registers of R494. -/
def SCH_QS_CFG : RegSpec := ⟨231, 0xa00000, [(0, 1, 0x4000000)], false, [fl "EN" 31 31 .rw, fl "DLOG2" 3 0 .rw 8]⟩
def SCH_PORT_CFG : RegSpec := ⟨232, 0xa00100, [(0, 1, 0x4000000), (0, 31, 4)], false, [fs "SP_MASK" 31 24 .rw .forme,
  fs "GATE_EN" 23 23 .rw .forme, fl "GB_EN" 22 22 .rw 1, fl "MAXFRM" 13 0 .rw 0x2400]⟩
def SCH_PORT_OVH : RegSpec := ⟨233, 0xa00180, [(0, 1, 0x4000000), (0, 31, 4)], false, [fl "OVH" 6 0 .rw 0x14]⟩
def SCH_PSHP_W0 : RegSpec := ⟨234, 0xa00200, [(0, 1, 0x4000000), (0, 31, 8)], false, [fs "RATE" 21 0 .rw .forme]⟩
def SCH_PSHP_W1 : RegSpec := ⟨235, 0xa00204, [(0, 1, 0x4000000), (0, 31, 8)], false, [fs "BURST" 19 0 .rw .forme]⟩
def SCH_PSHP_TOK : RegSpec := ⟨236, 0xa00300, [(0, 1, 0x4000000), (0, 31, 4)], false, [fl "TOK" 23 0 .ro]⟩
def SCH_GB_HOLD : RegSpec := ⟨237, 0xa00380, [(0, 1, 0x4000000), (0, 31, 4)], false, [fl "COUNT" 31 0 .rc]⟩
def SCH_QUANTUM : RegSpec := ⟨238, 0xa01000, [(0, 1, 0x4000000), (0, 263, 4)], false, [fs "Q" 16 0 .rw .forme]⟩
def SCH_DEFICIT : RegSpec := ⟨239, 0xa01800, [(0, 1, 0x4000000), (0, 263, 4)], false, [fl "DEF" 17 0 .ro]⟩
def SCH_QSHP_W0 : RegSpec := ⟨240, 0xa02000, [(0, 1, 0x4000000), (0, 263, 8)], false, [fs "RATE" 21 0 .rw .forme]⟩
def SCH_QSHP_W1 : RegSpec := ⟨241, 0xa02004, [(0, 1, 0x4000000), (0, 263, 8)], false, [fs "BURST" 19 0 .rw .forme]⟩
def SCH_QSHP_TOK : RegSpec := ⟨242, 0xa03000, [(0, 1, 0x4000000), (0, 263, 4)], false, [fl "TOK" 23 0 .ro]⟩
def SCH_QDEPTH : RegSpec := ⟨243, 0xa04000, [(0, 1, 0x4000000), (0, 263, 8)], false, [fl "CELLS" 18 0 .ro]⟩
def SCH_QPEAK : RegSpec := ⟨244, 0xa04004, [(0, 1, 0x4000000), (0, 263, 8)], false, [fl "CELLS" 18 0 .rc]⟩
def SCH_QDELAY : RegSpec := ⟨245, 0xa05000, [(0, 1, 0x4000000), (0, 263, 8)], false, [fl "NS" 31 0 .ro]⟩
def SCH_QDMAX : RegSpec := ⟨246, 0xa05004, [(0, 1, 0x4000000), (0, 263, 8)], false, [fl "NS" 31 0 .rc]⟩
def SCH_GATE_CTL : RegSpec := ⟨247, 0xa08000, [(0, 1, 0x4000000), (0, 31, 0x40)], false, [fl "CHANGE" 31 31 .wo,
  fl "PENDING" 30 30 .ro, fl "OPER" 29 29 .ro, fs "INIT" 23 16 .rw .forme, fs "ADMIN_LEN" 10 0 .rw .forme]⟩
def SCH_GATE_CYCLE : RegSpec := ⟨248, 0xa08004, [(0, 1, 0x4000000), (0, 31, 0x40)], false, [fs "CYCLE_NS" 29 0 .rw .forme]⟩
def SCH_GATE_BASE_NS : RegSpec := ⟨249, 0xa08008, [(0, 1, 0x4000000), (0, 31, 0x40)], false, [fs "NS" 29 0 .rw .forme]⟩
def SCH_GATE_BASE_SEC : RegSpec := ⟨250, 0xa08010, [(0, 1, 0x4000000), (0, 31, 0x40)], true, [fs "SEC" 63 0 .rw .forme]⟩
def SCH_GATE_CHG_SEC : RegSpec := ⟨251, 0xa08018, [(0, 1, 0x4000000), (0, 31, 0x40)], true, [fl "SEC" 63 0 .ro]⟩
def SCH_GATE_CHG_NS : RegSpec := ⟨252, 0xa08020, [(0, 1, 0x4000000), (0, 31, 0x40)], false, [fl "NS" 29 0 .ro]⟩
def SCH_GATE_OPER : RegSpec := ⟨253, 0xa08024, [(0, 1, 0x4000000), (0, 31, 0x40)], false, [fl "STATES" 31 24 .ro 0xff,
  fl "IDX" 10 0 .ro]⟩
def SCH_GATE_OCYCLE : RegSpec := ⟨254, 0xa08028, [(0, 1, 0x4000000), (0, 31, 0x40)], false, [fl "CYCLE_NS" 29 0 .ro]⟩
def SCH_GATE_OVR : RegSpec := ⟨255, 0xa0802c, [(0, 1, 0x4000000), (0, 31, 0x40)], false, [fl "COUNT" 31 0 .rc]⟩
def SCH_GATE_LIST : RegSpec := ⟨256, 0xa20000, [(0, 1, 0x4000000), (0, 31, 0x1000), (0, 1023, 4)], false,
  [fs "GATES" 31 24 .rw .forme, fs "INTERVAL" 23 0 .rw .forme]⟩
def SCH_GATE_OLIST : RegSpec := ⟨257, 0xa40000, [(0, 1, 0x4000000), (0, 31, 0x1000), (0, 1023, 4)], false, [fl "ENTRY" 31 0 .ro]⟩

/-! Registers of R495. -/
def TSN_SID_W0 : RegSpec := ⟨258, 0x2700000, [(0, 1, 0x4000000), (0, 1, 0x800000), (0, 2047, 0x10)], false,
  [fs "MAC_LO" 31 0 .ro .forme]⟩
def TSN_SID_W1 : RegSpec := ⟨259, 0x2700004, [(0, 1, 0x4000000), (0, 1, 0x800000), (0, 2047, 0x10)], false,
  [fs "VALID" 31 31 .ro .forme, fs "TYPE" 30 30 .ro .forme, fs "VID" 27 16 .ro .forme, fs "MAC_HI" 15 0 .ro .forme]⟩
def TSN_SID_W2 : RegSpec := ⟨260, 0x2700008, [(0, 1, 0x4000000), (0, 1, 0x800000), (0, 2047, 0x10)], false,
  [fs "HANDLE" 9 0 .ro .forme]⟩
def TSN_SF_W0 : RegSpec := ⟨261, 0x2710000, [(0, 1, 0x4000000), (0, 1, 0x800000), (0, 1023, 8)], false,
  [fs "VALID" 31 31 .ro .forme, fs "PRI_ANY" 30 30 .ro .forme, fs "PRI" 29 27 .ro .forme, fs "BLOCK_OVS" 26 26 .ro .forme,
  fs "METER_EN" 25 25 .ro .forme, fs "METER" 24 15 .ro .forme, fs "MAX_SDU" 13 0 .ro .forme]⟩
def TSN_SF_W1 : RegSpec := ⟨262, 0x2710004, [(0, 1, 0x4000000), (0, 1, 0x800000), (0, 1023, 8)], false,
  [fs "REPL_EN" 31 31 .ro .forme, fs "RCV_EN" 30 30 .ro .forme, fs "REPL_GRP" 29 17 .ro .forme, fs "RCV" 16 8 .ro .forme]⟩
def TSN_SF_STAT : RegSpec := ⟨263, 0x2714000, [(0, 1, 0x4000000), (0, 1, 0x800000), (0, 1023, 4)], false,
  [fl "BLOCKED" 31 31 .w1c, fl "SEQ" 15 0 .ro]⟩
def TSN_SF_CNT : RegSpec := ⟨264, 0x2718000, [(0, 1, 0x4000000), (0, 1, 0x800000), (0, 1023, 0x10), (0, 3, 4)], false,
  [fl "COUNT" 31 0 .rc]⟩
def TSN_MTR_W0 : RegSpec := ⟨265, 0x2720000, [(0, 1, 0x4000000), (0, 1, 0x800000), (0, 1023, 0x10)], false,
  [fs "CIR" 21 0 .rw .forme]⟩
def TSN_MTR_W1 : RegSpec := ⟨266, 0x2720004, [(0, 1, 0x4000000), (0, 1, 0x800000), (0, 1023, 0x10)], false,
  [fs "EIR" 21 0 .rw .forme]⟩
def TSN_MTR_W2 : RegSpec := ⟨267, 0x2720008, [(0, 1, 0x4000000), (0, 1, 0x800000), (0, 1023, 0x10)], false,
  [fs "CBS" 19 0 .rw .forme]⟩
def TSN_MTR_W3 : RegSpec := ⟨268, 0x272000c, [(0, 1, 0x4000000), (0, 1, 0x800000), (0, 1023, 0x10)], false,
  [fs "CF" 31 31 .rw .forme, fs "DROP_YEL" 30 30 .rw .forme, fs "YEL_DEI" 29 29 .rw .forme, fs "MARK_RED_EN" 28 28 .rw .forme,
  fs "EBS" 19 0 .rw .forme]⟩
def TSN_MTR_STAT : RegSpec := ⟨269, 0x2724000, [(0, 1, 0x4000000), (0, 1, 0x800000), (0, 1023, 4)], false,
  [fl "MARK_RED" 31 31 .w1c]⟩
def TSN_RCV_W0 : RegSpec := ⟨270, 0x2730000, [(0, 1, 0x4000000), (0, 1, 0x800000), (0, 511, 8)], false,
  [fs "VALID" 31 31 .ro .forme, fs "TAKE_NOSEQ" 30 30 .ro .forme, fs "POP_RTAG" 29 29 .ro .forme, fs "LED_EN" 28 28 .ro .forme,
  fs "HISTORY" 26 16 .ro .forme, fs "RESET_MS" 15 0 .ro .forme]⟩
def TSN_RCV_W1 : RegSpec := ⟨271, 0x2730004, [(0, 1, 0x4000000), (0, 1, 0x800000), (0, 511, 8)], false,
  [fs "LED_PATHS" 31 28 .ro .forme, fs "LED_DIFF" 27 16 .ro .forme, fs "LED_PERIOD_MS" 15 0 .ro .forme]⟩
def TSN_RCV_ST : RegSpec := ⟨272, 0x2731000, [(0, 1, 0x4000000), (0, 1, 0x800000), (0, 511, 4)], false, [fl "FRESH" 31 31 .ro 1,
  fl "RSN" 15 0 .ro]⟩
def TSN_RCV_CNT : RegSpec := ⟨273, 0x2732000, [(0, 1, 0x4000000), (0, 1, 0x800000), (0, 511, 0x20), (0, 7, 4)], false,
  [fl "COUNT" 31 0 .rc]⟩
def TSN_SID_MISS : RegSpec := ⟨274, 0x273f000, [(0, 1, 0x4000000), (0, 1, 0x800000)], false, [fl "COUNT" 31 0 .rc]⟩
def TSN_FILT_MISS : RegSpec := ⟨275, 0x273f004, [(0, 1, 0x4000000), (0, 1, 0x800000)], false, [fl "COUNT" 31 0 .rc]⟩

/-! Registers of R524. -/
def MEM_CTL : RegSpec := ⟨276, 0xbc0000, [(0, 1, 0x4000000)], false, [fl "NRP" 11 8 .rw 0xb, fl "TRACK_EN" 1 1 .rw 1,
  fl "NR_EN" 0 0 .rw 1]⟩
def MEM_WDRAIN : RegSpec := ⟨277, 0xbc0004, [(0, 1, 0x4000000)], false, [fl "HI" 21 16 .rw 0x30, fl "LO" 13 8 .rw 0x10]⟩
def MEM_PANIC_CFG : RegSpec := ⟨278, 0xbc0008, [(0, 1, 0x4000000)], false, [fl "SR_LVL" 15 8 .rw 8, fl "AGE_NS" 7 0 .rw 0x96]⟩
def MEM_STACK_CTL : RegSpec := ⟨279, 0xbc0010, [(0, 1, 0x4000000), (0, 2, 4)], false, [fl "MIRROR_RD" 0 0 .rw]⟩
def MEM_STACK_STAT : RegSpec := ⟨280, 0xbc0020, [(0, 1, 0x4000000), (0, 2, 4)], false, [fl "TRAINED" 31 31 .ro,
  fl "SREF" 30 30 .ro, fl "HOT" 29 29 .ro, fl "OVERTEMP" 28 28 .ro, fl "REPAIRED" 15 8 .ro, fl "TEMP" 7 0 .ro]⟩
def MEM_TRAIN_STAT : RegSpec := ⟨281, 0xbc0030, [(0, 1, 0x4000000)], false, [fl "STEP" 31 28 .ro, fl "CODE" 27 24 .ro,
  fl "STACK" 21 20 .ro, fl "CHAN" 19 16 .ro]⟩

/-! Registers of R525. -/
def MEM_CH_STAT : RegSpec := ⟨282, 0xb00000, [(0, 1, 0x4000000), (0, 47, 0x4000)], false, [fl "TRAINED" 31 31 .ro,
  fl "PANIC" 30 29 .ro, fl "DRAIN" 28 27 .ro, fl "REPAIRED" 23 20 .ro, fl "WQ1" 13 7 .ro, fl "WQ0" 6 0 .ro]⟩
def MEM_CH_BW : RegSpec := ⟨283, 0xb00100, [(0, 1, 0x4000000), (0, 47, 0x4000), (0, 1, 8)], true, [fl "BYTES" 63 0 .rc]⟩
def MEM_CH_PANIC : RegSpec := ⟨284, 0xb00110, [(0, 1, 0x4000000), (0, 47, 0x4000), (0, 1, 4)], false, [fl "COUNT" 31 0 .rc]⟩
def MEM_CH_LATE : RegSpec := ⟨285, 0xb00118, [(0, 1, 0x4000000), (0, 47, 0x4000), (0, 1, 4)], false, [fl "COUNT" 31 0 .rc]⟩
def MEM_CH_CE : RegSpec := ⟨286, 0xb00120, [(0, 1, 0x4000000), (0, 47, 0x4000), (0, 1, 4)], false, [fl "COUNT" 31 0 .rc]⟩
def MEM_CH_ODE : RegSpec := ⟨287, 0xb00128, [(0, 1, 0x4000000), (0, 47, 0x4000), (0, 1, 4)], false, [fl "COUNT" 31 0 .rc]⟩
def MEM_CH_UE : RegSpec := ⟨288, 0xb00130, [(0, 1, 0x4000000), (0, 47, 0x4000), (0, 1, 4)], false, [fl "COUNT" 31 0 .rc]⟩
def MEM_CH_NREF : RegSpec := ⟨289, 0xb00138, [(0, 1, 0x4000000), (0, 47, 0x4000), (0, 1, 4)], false, [fl "COUNT" 31 0 .rc]⟩
def MEM_CH_NRDROP : RegSpec := ⟨290, 0xb00140, [(0, 1, 0x4000000), (0, 47, 0x4000), (0, 1, 4)], false, [fl "COUNT" 31 0 .rc]⟩
def MEM_CH_WFULL : RegSpec := ⟨291, 0xb00148, [(0, 1, 0x4000000), (0, 47, 0x4000), (0, 1, 4)], false, [fl "COUNT" 31 0 .rc]⟩
def MEM_CH_LINK : RegSpec := ⟨292, 0xb00150, [(0, 1, 0x4000000), (0, 47, 0x4000)], false, [fl "COUNT" 31 0 .rc]⟩
def MEM_CH_ELAST : RegSpec := ⟨293, 0xb00200, [(0, 1, 0x4000000), (0, 47, 0x4000)], false, [fl "VALID" 31 31 .rc,
  fl "PC" 30 30 .ro, fl "BANK" 29 25 .ro, fl "ROW" 23 10 .ro, fl "COL" 9 0 .ro]⟩
def MEM_CH_ELAST_REQ : RegSpec := ⟨294, 0xb00204, [(0, 1, 0x4000000), (0, 47, 0x4000)], false, [fl "ENGINE" 22 16 .ro,
  fl "TYPE" 11 8 .ro, fl "REQ" 3 0 .ro]⟩

/-! Registers of R568. -/
def MAC_PORT_CFG : RegSpec := ⟨295, 0x2400000, [(0, 1, 0x4000000), (0, 1, 0x800000), (0, 15, 0x400)], false,
  [fl "MODE" 31 28 .rwl, fl "FEC" 27 27 .rwl, fl "PFC_EN" 26 26 .rwl, fl "DEF_CLASS" 25 23 .rw, fl "MAXFRM_RX" 13 0 .rw 0x2400]⟩
def MAC_PORT_CTL : RegSpec := ⟨296, 0x2400004, [(0, 1, 0x4000000), (0, 1, 0x800000), (0, 15, 0x400)], false, [fl "ADMIN" 0 0 .rw]⟩
def MAC_LINK : RegSpec := ⟨297, 0x2400008, [(0, 1, 0x4000000), (0, 1, 0x800000), (0, 15, 0x400)], false, [fl "STATE" 31 29 .ro,
  fl "HOLD" 28 28 .ro, fl "FLUSHED" 27 27 .ro 1, fl "LF" 26 26 .ro, fl "RF" 25 25 .ro, fl "LANES" 7 0 .ro]⟩
def MAC_LINK_TMR : RegSpec := ⟨298, 0x240000c, [(0, 1, 0x4000000), (0, 1, 0x800000), (0, 15, 0x400)], false,
  [fl "DOWN_DB_US" 31 24 .rw 0x64, fl "UP_DB_MS" 23 16 .rw 1, fl "HOLD_US" 13 0 .rw 0x7d0]⟩
def MAC_CLASS_MAP : RegSpec := ⟨299, 0x2400010, [(0, 1, 0x4000000), (0, 1, 0x800000), (0, 15, 0x400)], false,
  [fl "MAP" 23 0 .rw 0xfacd08]⟩
def MAC_FILT_W0 : RegSpec := ⟨300, 0x2400020, [(0, 1, 0x4000000), (0, 1, 0x800000), (0, 15, 0x400), (0, 7, 8)], false,
  [fl "EN" 31 31 .rw, fl "ET_EN" 30 30 .rw, fl "VID_EN" 29 29 .rw, fl "CLASS" 26 24 .rw, fl "VID" 11 0 .rw]⟩
def MAC_FILT_W1 : RegSpec := ⟨301, 0x2400024, [(0, 1, 0x4000000), (0, 1, 0x800000), (0, 15, 0x400), (0, 7, 8)], false,
  [fl "ETYPE" 15 0 .rw]⟩
def MAC_PFC_TX : RegSpec := ⟨302, 0x2400060, [(0, 1, 0x4000000), (0, 1, 0x800000), (0, 15, 0x400)], false, [fl "EN" 31 24 .rw,
  fl "XOFF" 23 12 .rw 0x200, fl "XON" 11 0 .rw 0x100]⟩
def MAC_PFC_QUANTA : RegSpec := ⟨303, 0x2400064, [(0, 1, 0x4000000), (0, 1, 0x800000), (0, 15, 0x400)], false,
  [fl "QUANTA" 15 0 .rw 0xffff]⟩
def MAC_CNT : RegSpec := ⟨304, 0x2400100, [(0, 1, 0x4000000), (0, 1, 0x800000), (0, 15, 0x400), (0, 12, 4)], false,
  [fl "COUNT" 31 0 .rc]⟩
def MAC_RX_FRAMES : RegSpec := ⟨305, 0x2400180, [(0, 1, 0x4000000), (0, 1, 0x800000), (0, 15, 0x400)], true,
  [fl "COUNT" 63 0 .rc]⟩
def MAC_RX_OCTETS : RegSpec := ⟨306, 0x2400188, [(0, 1, 0x4000000), (0, 1, 0x800000), (0, 15, 0x400)], true,
  [fl "COUNT" 63 0 .rc]⟩
def MAC_TX_FRAMES : RegSpec := ⟨307, 0x2400190, [(0, 1, 0x4000000), (0, 1, 0x800000), (0, 15, 0x400)], true,
  [fl "COUNT" 63 0 .rc]⟩
def MAC_TX_OCTETS : RegSpec := ⟨308, 0x2400198, [(0, 1, 0x4000000), (0, 1, 0x800000), (0, 15, 0x400)], true,
  [fl "COUNT" 63 0 .rc]⟩
def MAC_LINK_CHG : RegSpec := ⟨309, 0x2404000, [(0, 1, 0x4000000), (0, 1, 0x800000)], false, [fl "CHG" 15 0 .w1c]⟩
def MAC_PROT : RegSpec := ⟨310, 0x2404100, [(0, 1, 0x4000000), (0, 1, 0x800000), (0, 7, 4)], false, [fl "EN" 31 31 .rw,
  fl "ARM" 30 30 .rw, fl "REVERT" 29 29 .rw, fl "ACTIVE" 28 28 .ro, fl "WORK" 23 20 .rw, fl "PROT" 19 16 .rw,
  fl "WTR_MS" 15 0 .rw 0x2710]⟩
def MAC_PROT_SW : RegSpec := ⟨311, 0x2404140, [(0, 1, 0x4000000), (0, 1, 0x800000), (0, 7, 4)], false, [fl "COUNT" 31 0 .rc]⟩

/-! Registers of R569. -/
def PCS_STAT : RegSpec := ⟨312, 0x2500000, [(0, 1, 0x4000000), (0, 1, 0x800000), (0, 15, 0x100)], false, [fl "AM_LOCK" 31 31 .ro,
  fl "BLK_LOCK" 30 30 .ro, fl "DESKEW" 29 29 .ro, fl "SKEW_NS" 7 0 .ro]⟩
def PCS_FEC_CORR : RegSpec := ⟨313, 0x2500008, [(0, 1, 0x4000000), (0, 1, 0x800000), (0, 15, 0x100)], true, [fl "COUNT" 63 0 .rc]⟩
def PCS_FEC_SYM : RegSpec := ⟨314, 0x2500010, [(0, 1, 0x4000000), (0, 1, 0x800000), (0, 15, 0x100)], true, [fl "COUNT" 63 0 .rc]⟩
def PCS_FEC_UNC : RegSpec := ⟨315, 0x2500018, [(0, 1, 0x4000000), (0, 1, 0x800000), (0, 15, 0x100)], false, [fl "COUNT" 31 0 .rc]⟩
def PCS_BLK_ERR : RegSpec := ⟨316, 0x250001c, [(0, 1, 0x4000000), (0, 1, 0x800000), (0, 15, 0x100)], false, [fl "COUNT" 31 0 .rc]⟩
def PCS_LOCK_LOSS : RegSpec := ⟨317, 0x2500020, [(0, 1, 0x4000000), (0, 1, 0x800000), (0, 15, 0x100)], false,
  [fl "COUNT" 31 0 .rc]⟩

/-! Registers of R570. -/
def SDS_FIR : RegSpec := ⟨318, 0x2600000, [(0, 1, 0x4000000), (0, 1, 0x800000), (0, 15, 0x400), (0, 3, 4)], false,
  [fl "PRE" 17 12 .rwl, fl "MAIN" 11 6 .rwl 0x3f, fl "POST" 5 0 .rwl]⟩
def SDS_CTL : RegSpec := ⟨319, 0x2600010, [(0, 1, 0x4000000), (0, 1, 0x800000), (0, 15, 0x400)], false, [fl "LOOP" 2 1 .rw,
  fl "ADAPT_FREEZE" 0 0 .rw]⟩
def SDS_RX_STAT : RegSpec := ⟨320, 0x2600014, [(0, 1, 0x4000000), (0, 1, 0x800000), (0, 15, 0x400)], false,
  [fl "SIGDET" 31 31 .ro, fl "CDR_LOCK" 30 30 .ro, fl "ADAPTED" 29 29 .ro, fl "CTLE" 28 24 .ro, fl "EYE" 23 16 .ro,
  fl "DFE1" 15 8 .ro]⟩
def SDS_PRBS_CTL : RegSpec := ⟨321, 0x2600020, [(0, 1, 0x4000000), (0, 1, 0x800000), (0, 15, 0x400)], false,
  [fl "GEN_EN" 31 31 .rw, fl "CHK_EN" 30 30 .rw, fl "POLY" 29 27 .rw, fl "INV" 26 26 .rw, fl "BURST_LEN" 15 8 .rw 1,
  fl "INJ_BURST" 1 1 .w1s, fl "INJ_BIT" 0 0 .w1s]⟩
def SDS_PRBS_STAT : RegSpec := ⟨322, 0x2600024, [(0, 1, 0x4000000), (0, 1, 0x800000), (0, 15, 0x400)], false,
  [fl "CHK_LOCK" 31 31 .ro]⟩
def SDS_PRBS_ERR : RegSpec := ⟨323, 0x2600028, [(0, 1, 0x4000000), (0, 1, 0x800000), (0, 15, 0x400)], false,
  [fl "COUNT" 31 0 .rc]⟩
def SDS_PRBS_BITS : RegSpec := ⟨324, 0x2600030, [(0, 1, 0x4000000), (0, 1, 0x800000), (0, 15, 0x400)], true,
  [fl "COUNT" 63 0 .rc]⟩
def SDS_INJ_CNT : RegSpec := ⟨325, 0x2600038, [(0, 1, 0x4000000), (0, 1, 0x800000), (0, 15, 0x400)], false, [fl "COUNT" 31 0 .rc]⟩

/-! Registers of R594. -/
def TIM_RAW : RegSpec := ⟨326, 0x300000, [(0, 1, 0x4000000)], true, [fl "RAW" 63 0 .ro]⟩
def TIM_STAT : RegSpec := ⟨327, 0x300008, [(0, 1, 0x4000000)], false, [fl "REF_LOST" 31 31 .ro, fl "HOLDOVER" 30 30 .ro,
  fs "REF25" 29 29 .ro .strap]⟩
def TIM_NOW_NS : RegSpec := ⟨328, 0x300010, [(0, 1, 0x4000000)], false, [fl "NS" 31 0 .ro]⟩
def TIM_NOW_FRAC : RegSpec := ⟨329, 0x300014, [(0, 1, 0x4000000)], false, [fl "FRAC" 15 0 .ro]⟩
def TIM_NOW_SEC : RegSpec := ⟨330, 0x300018, [(0, 1, 0x4000000)], true, [fl "SEC" 63 0 .ro]⟩
def TIM_NOW_RAW : RegSpec := ⟨331, 0x300020, [(0, 1, 0x4000000)], true, [fl "RAW" 63 0 .ro]⟩
def TIM_INC : RegSpec := ⟨332, 0x300030, [(0, 1, 0x4000000)], true, [fl "NS" 63 32 .ro 1, fl "FRAC" 31 0 .ro]⟩
def TIM_SET_INC : RegSpec := ⟨333, 0x300050, [], true, [fl "INC" 63 0 .rw 0x100000000]⟩
def TIM_SET_SEC : RegSpec := ⟨334, 0x300058, [], true, [fl "SEC" 63 0 .rw]⟩
def TIM_SET_NS : RegSpec := ⟨335, 0x300060, [], false, [fl "NS" 31 0 .rw]⟩
def TIM_STEP_NS : RegSpec := ⟨336, 0x300068, [], true, [fl "STEP" 63 0 .rw]⟩
def TIM_EPOCH : RegSpec := ⟨337, 0x300070, [], true, [fl "E" 63 0 .rw]⟩
def TIM_CMD : RegSpec := ⟨338, 0x300078, [], false, [fl "OP" 31 28 .wo]⟩
def TIM_CMD_STAT : RegSpec := ⟨339, 0x30007c, [], false, [fl "PENDING" 31 31 .ro, fl "CODE" 27 24 .ro]⟩
def TIM_PORT_CORR : RegSpec := ⟨340, 0x300100, [(0, 1, 0x4000000), (0, 31, 4)], false, [fl "RX" 31 16 .rw, fl "TX" 15 0 .rw]⟩
def TIM_TSQ_W0 : RegSpec := ⟨341, 0x300200, [(0, 1, 0x4000000), (0, 1, 0x20)], false, [fl "VALID" 31 31 .rc,
  fl "STATUS" 30 29 .rc, fl "HOLD" 28 28 .rc, fl "PORT" 22 16 .rc, fl "ID" 15 0 .rc]⟩
def TIM_TSQ_W1 : RegSpec := ⟨342, 0x300204, [(0, 1, 0x4000000), (0, 1, 0x20)], false, [fl "NS" 31 0 .ro]⟩
def TIM_TSQ_W2 : RegSpec := ⟨343, 0x300208, [(0, 1, 0x4000000), (0, 1, 0x20)], false, [fl "FRAC" 15 0 .ro]⟩
def TIM_TSQ_W3 : RegSpec := ⟨344, 0x300210, [(0, 1, 0x4000000), (0, 1, 0x20)], true, [fl "SEC" 63 0 .ro]⟩
def TIM_TSQ_LVL : RegSpec := ⟨345, 0x300280, [(0, 1, 0x4000000), (0, 1, 4)], false, [fl "LEVEL" 5 0 .ro]⟩
def TIM_STAMP_LOST : RegSpec := ⟨346, 0x300288, [(0, 1, 0x4000000), (0, 1, 4)], false, [fl "COUNT" 31 0 .rc]⟩
def TIM_LOST_ID : RegSpec := ⟨347, 0x300290, [(0, 1, 0x4000000), (0, 1, 4)], false, [fl "VALID" 31 31 .rc, fl "ID" 15 0 .ro]⟩
def TIM_ETMR_CTL : RegSpec := ⟨348, 0x300300, [(0, 1, 0x4000000), (0, 7, 0x20)], false, [fl "EN" 31 31 .rw,
  fs "FORME" 30 30 .ro .forme]⟩
def TIM_ETMR_PER : RegSpec := ⟨349, 0x300308, [(0, 1, 0x4000000), (0, 7, 0x20)], true, [fl "PERIOD" 47 0 .rw 0x3b9aca00]⟩
def TIM_ETMR_PH : RegSpec := ⟨350, 0x300310, [(0, 1, 0x4000000), (0, 7, 0x20)], true, [fl "PHASE" 47 0 .rw]⟩
def TIM_ETMR_CNT : RegSpec := ⟨351, 0x300318, [(0, 1, 0x4000000), (0, 7, 0x20)], false, [fl "COUNT" 31 0 .rc]⟩
def TIM_IO_CFG : RegSpec := ⟨352, 0x300400, [(0, 3, 4)], false, [fs "FUNC" 31 30 .ro .forme, fs "POL" 29 29 .ro .forme,
  fs "TIMER" 26 24 .ro .forme]⟩
def TIM_IO_WIDTH : RegSpec := ⟨353, 0x300410, [(0, 3, 4)], false, [fs "NS" 31 0 .ro .forme]⟩
def TIM_TRIG_NS : RegSpec := ⟨354, 0x300440, [(0, 3, 0x20)], false, [fl "NS" 31 0 .ro]⟩
def TIM_TRIG_FRAC : RegSpec := ⟨355, 0x300444, [(0, 3, 0x20)], false, [fl "FRAC" 15 0 .ro]⟩
def TIM_TRIG_SEC : RegSpec := ⟨356, 0x300448, [(0, 3, 0x20)], true, [fl "SEC" 63 0 .ro]⟩
def TIM_TRIG_STAT : RegSpec := ⟨357, 0x300450, [(0, 3, 0x20)], false, [fl "NEW" 31 31 .rc, fl "OVR" 30 30 .rc]⟩

/-! Registers of R620. -/
def ERR_RING_BASE_LO : RegSpec := ⟨358, 0x200000, [(0, 1, 0x4000000)], false, [fl "ADDR_LO" 31 0 .rwl]⟩
def ERR_RING_BASE_HI : RegSpec := ⟨359, 0x200004, [(0, 1, 0x4000000)], false, [fl "ADDR_HI" 31 0 .rwl]⟩
def ERR_RING_SIZE : RegSpec := ⟨360, 0x200008, [(0, 1, 0x4000000)], false, [fl "LOG2" 4 0 .rwl 8]⟩
def ERR_RING_CTL : RegSpec := ⟨361, 0x20000c, [(0, 1, 0x4000000)], false, [fl "EN" 0 0 .rwl]⟩
def ERR_RING_HEAD : RegSpec := ⟨362, 0x200010, [(0, 1, 0x4000000)], false, [fl "HEAD" 15 0 .rw]⟩
def ERR_RING_TAIL : RegSpec := ⟨363, 0x200014, [(0, 1, 0x4000000)], false, [fl "TAIL" 15 0 .ro]⟩
def ERR_RING_LOST : RegSpec := ⟨364, 0x200018, [(0, 1, 0x4000000)], false, [fl "COUNT" 31 0 .rc]⟩
def ERR_SEQ : RegSpec := ⟨365, 0x20001c, [(0, 1, 0x4000000)], false, [fl "SEQ" 15 0 .ro]⟩
def ERR_CNT : RegSpec := ⟨366, 0x200020, [(0, 1, 0x4000000), (0, 2, 4)], false, [fl "COUNT" 31 0 .rc]⟩
def ERR_QUIESCE : RegSpec := ⟨367, 0x200030, [(0, 1, 0x4000000)], false, [fl "IDLE" 9 8 .ro, fl "REGION" 1 0 .rw]⟩
def ERR_INJ : RegSpec := ⟨368, 0x200040, [(0, 1, 0x4000000)], false, [fl "GO" 31 31 .w1s, fl "CANCEL" 30 30 .w1s,
  fl "KIND" 28 28 .rw, fl "CODE" 22 16 .rw, fl "INST" 13 8 .rw, fl "TYPE" 7 0 .rw 1]⟩
def ERR_INJ_ADDR : RegSpec := ⟨369, 0x200044, [(0, 1, 0x4000000)], false, [fl "ADDR" 31 0 .rw]⟩
def ERR_INJ_CNT : RegSpec := ⟨370, 0x200048, [(0, 1, 0x4000000)], false, [fl "COUNT" 31 0 .rc]⟩
def ERR_INJ_LAST : RegSpec := ⟨371, 0x20004c, [(0, 1, 0x4000000)], false, [fl "VALID" 31 31 .ro, fl "SEQ" 15 0 .ro]⟩
def ERR_LOG_IDX : RegSpec := ⟨372, 0x200080, [(0, 1, 0x4000000)], false, [fl "IDX" 3 0 .ro]⟩
def ERR_LOG : RegSpec := ⟨373, 0x200100, [(0, 1, 0x4000000), (0, 15, 0x20), (0, 7, 4)], false, [fl "REC" 31 0 .ro]⟩
def ERR_RESP : RegSpec := ⟨374, 0x201000, [(0, 1, 0x4000000), (0, 127, 4)], false, [fl "ARM" 23 16 .rwl, fl "LIMIT" 11 8 .rw,
  fl "GAL" 2 2 .rw, fl "MSI" 1 1 .rw 1]⟩
def ERR_SRC_CNT : RegSpec := ⟨375, 0x201200, [(0, 1, 0x4000000), (0, 127, 4)], false, [fl "COUNT" 31 0 .rc]⟩

/-! Registers of R621. -/
def FLW_DIV_LOC : RegSpec := ⟨376, 0xc01400, [(0, 1, 0x4000000)], false, [fl "RADDR" 28 0 .rw]⟩
def FLW_DIV_CMD : RegSpec := ⟨377, 0xc01404, [(0, 1, 0x4000000)], false, [fl "OP" 3 0 .wo]⟩
def FLW_DIV_STAT : RegSpec := ⟨378, 0xc01408, [(0, 1, 0x4000000)], false, [fl "BUSY" 31 31 .ro, fl "CODE" 27 24 .ro,
  fl "REMEMBERED" 6 0 .ro]⟩
def FLW_DIV_CNT : RegSpec := ⟨379, 0xc0140c, [(0, 1, 0x4000000)], false, [fl "COUNT" 31 0 .rc]⟩

/-! Registers of R637. -/
def HIF_STAT : RegSpec := ⟨380, 0x500000, [(0, 1, 0x4000000)], false, [fl "LINK" 31 31 .ro, fl "SPEED" 30 28 .ro,
  fl "WIDTH" 27 24 .ro]⟩
def HIF1_CTL : RegSpec := ⟨381, 0x4500004, [], false, [fl "EXC_EN" 0 0 .rw]⟩
def HIF_TX_BASE_LO : RegSpec := ⟨382, 0x501000, [(0, 63, 0x20)], false, [fl "ADDR_LO" 31 0 .rw]⟩
def HIF_TX_BASE_HI : RegSpec := ⟨383, 0x501004, [(0, 63, 0x20)], false, [fl "ADDR_HI" 31 0 .rw]⟩
def HIF_TX_CFG : RegSpec := ⟨384, 0x501008, [(0, 63, 0x20)], false, [fl "EN" 31 31 .rw, fl "LOG2" 19 16 .rw 8, fl "VEC" 13 8 .rw,
  fl "IRQ_ALL" 2 2 .rw, fl "REGION" 1 0 .rw]⟩
def HIF_TX_HEAD : RegSpec := ⟨385, 0x50100c, [(0, 63, 0x20)], false, [fl "HEAD" 15 0 .ro]⟩
def HIF_TX_TAIL : RegSpec := ⟨386, 0x501010, [(0, 63, 0x20)], false, [fl "TAIL" 15 0 .rw]⟩
def HIF_RX_BASE_LO : RegSpec := ⟨387, 0x502000, [(0, 1, 0x4000000), (0, 63, 0x20)], false, [fl "ADDR_LO" 31 0 .rw]⟩
def HIF_RX_BASE_HI : RegSpec := ⟨388, 0x502004, [(0, 1, 0x4000000), (0, 63, 0x20)], false, [fl "ADDR_HI" 31 0 .rw]⟩
def HIF_RX_CFG : RegSpec := ⟨389, 0x502008, [(0, 1, 0x4000000), (0, 63, 0x20)], false, [fl "EN" 31 31 .rw, fl "LOG2" 19 16 .rw 8,
  fl "VEC" 13 8 .rw]⟩
def HIF_RX_HEAD : RegSpec := ⟨390, 0x50200c, [(0, 1, 0x4000000), (0, 63, 0x20)], false, [fl "HEAD" 15 0 .ro]⟩
def HIF_RX_TAIL : RegSpec := ⟨391, 0x502010, [(0, 1, 0x4000000), (0, 63, 0x20)], false, [fl "TAIL" 15 0 .rw]⟩
def HIF_RXSEL : RegSpec := ⟨392, 0x503000, [(0, 1, 0x4000000), (0, 7, 4)], false, [fl "BASE" 13 8 .rw, fl "LOG2CNT" 1 0 .rw]⟩
def HIF_TX_STALL : RegSpec := ⟨393, 0x503100, [(0, 1, 0x4000000)], false, [fl "COUNT" 31 0 .rc]⟩
def HIF_TX_BAD : RegSpec := ⟨394, 0x503104, [(0, 1, 0x4000000)], false, [fl "COUNT" 31 0 .rc]⟩
def HIF_RX_NOBUF : RegSpec := ⟨395, 0x503108, [(0, 1, 0x4000000)], false, [fl "COUNT" 31 0 .rc]⟩
def HIF_RX_TRUNC : RegSpec := ⟨396, 0x50310c, [(0, 1, 0x4000000)], false, [fl "COUNT" 31 0 .rc]⟩
def HIF_RX_DROP : RegSpec := ⟨397, 0x503110, [(0, 1, 0x4000000)], false, [fl "COUNT" 31 0 .rc]⟩

/-! Registers of R649. -/
def GAL_STAT : RegSpec := ⟨398, 0x400000, [], false, [fl "UP_SIG" 31 31 .ro, fl "DN_SIG" 30 30 .ro, fl "UP_LOS" 29 29 .w1c,
  fl "DN_LOS" 28 28 .w1c, fl "ATTACH" 27 27 .w1c, fl "UPSTREAM" 26 26 .ro, fl "ADDR" 5 0 .ro]⟩
def GAL_CRED_CTL : RegSpec := ⟨399, 0x400004, [], false, [fl "LOCK" 1 1 .w1s, fl "EN" 0 0 .rw]⟩
def GAL_KEY : RegSpec := ⟨400, 0x400010, [(0, 7, 4)], false, [fl "KEY" 31 0 .wo]⟩
def GAL_CTR_LAST : RegSpec := ⟨401, 0x400030, [], true, [fl "CTR" 63 0 .ro]⟩
def GAL_CRC_ERR : RegSpec := ⟨402, 0x400040, [], false, [fl "COUNT" 31 0 .rc]⟩
def GAL_AUTH_FAIL : RegSpec := ⟨403, 0x400044, [], false, [fl "COUNT" 31 0 .rc]⟩
def GAL_TTL_DROP : RegSpec := ⟨404, 0x400048, [], false, [fl "COUNT" 31 0 .rc]⟩
def GAL_ENUM_OVF : RegSpec := ⟨405, 0x40004c, [], false, [fl "COUNT" 31 0 .rc]⟩
def GAL_ALERT_LOST : RegSpec := ⟨406, 0x400050, [], false, [fl "COUNT" 31 0 .rc]⟩

/-! Registers of R670. -/
def SEC_STAT : RegSpec := ⟨407, 0x100000, [], false, [fl "MON" 31 31 .ro, fl "LOG_OVF" 30 30 .ro, fs "OSLOT" 27 24 .ro .otp,
  fs "VSVN" 23 16 .ro .otp, fs "OSVN" 15 8 .ro .otp]⟩
def SEC_VROOT : RegSpec := ⟨408, 0x100100, [(0, 15, 4)], false, [fs "DIG" 31 0 .ro .otp]⟩
def SEC_OROOT : RegSpec := ⟨409, 0x100140, [(0, 3, 0x40), (0, 15, 4)], false, [fs "DIG" 31 0 .ro .otp]⟩
def SEC_IMP_PK : RegSpec := ⟨410, 0x100240, [(0, 15, 4)], false, [fl "PK" 31 0 .ro]⟩
def SEC_IMP_CHK : RegSpec := ⟨411, 0x100280, [(0, 3, 4)], false, [fs "CHK" 31 0 .ro .otp]⟩
def SEC_OTP_ADDR_LO : RegSpec := ⟨412, 0x100300, [], false, [fl "ADDR_LO" 31 0 .rw]⟩
def SEC_OTP_ADDR_HI : RegSpec := ⟨413, 0x100304, [], false, [fl "ADDR_HI" 31 0 .rw]⟩
def SEC_OTP_CMD : RegSpec := ⟨414, 0x100308, [], false, [fl "OP" 31 28 .wo, fl "ARG" 7 0 .wo]⟩
def SEC_OTP_STAT : RegSpec := ⟨415, 0x10030c, [], false, [fl "BUSY" 31 31 .ro, fl "CODE" 27 24 .ro]⟩
def SEC_ATT_NONCE : RegSpec := ⟨416, 0x100400, [(0, 7, 4)], false, [fl "NONCE" 31 0 .rw]⟩
def SEC_ATT_ADDR_LO : RegSpec := ⟨417, 0x100420, [], false, [fl "ADDR_LO" 31 0 .rw]⟩
def SEC_ATT_ADDR_HI : RegSpec := ⟨418, 0x100424, [], false, [fl "ADDR_HI" 31 0 .rw]⟩
def SEC_ATT_CMD : RegSpec := ⟨419, 0x100428, [], false, [fl "GO" 0 0 .wo]⟩
def SEC_ATT_STAT : RegSpec := ⟨420, 0x10042c, [], false, [fl "BUSY" 31 31 .ro, fl "CODE" 27 24 .ro, fl "LOGN" 15 0 .ro]⟩
def SEC_LOG_STAT : RegSpec := ⟨421, 0x100500, [], false, [fl "OVF" 31 31 .ro, fl "COUNT" 8 0 .ro]⟩
def SEC_LOG_IDX : RegSpec := ⟨422, 0x100504, [], false, [fl "INDEX" 7 0 .rw]⟩
def SEC_LOG_DATA : RegSpec := ⟨423, 0x100540, [(0, 23, 4)], false, [fl "DATA" 31 0 .ro]⟩
def SEC_MREG : RegSpec := ⟨424, 0x100600, [(0, 15, 4)], false, [fl "MREG" 31 0 .ro]⟩

/-! Registers of R689. -/
def TRC_CTL : RegSpec := ⟨425, 0x600000, [(0, 1, 0x4000000)], false, [fl "EN" 31 31 .rw, fl "MODE" 30 30 .rw, fl "CLR" 29 29 .wo]⟩
def TRC_STAT : RegSpec := ⟨426, 0x600004, [(0, 1, 0x4000000)], false, [fl "WRAPPED" 31 31 .ro, fl "STOPPED" 30 30 .ro,
  fl "WPTR" 16 0 .ro]⟩
def TRC_SEQ : RegSpec := ⟨427, 0x600008, [(0, 1, 0x4000000)], false, [fl "SEQ" 31 0 .ro]⟩
def TRC_STOP : RegSpec := ⟨428, 0x60000c, [(0, 1, 0x4000000)], false, [fl "EN" 31 31 .rw, fl "ANY" 30 30 .rw,
  fl "CODE" 22 16 .rw, fl "POST" 15 0 .rw]⟩
def TRC_SRC_CFG : RegSpec := ⟨429, 0x600020, [(0, 1, 0x4000000), (1, 6, 4)], false, [fl "EN" 31 31 .rw,
  fl "TYPEMASK" 24 16 .rw 0x1ff, fl "SLOG2" 15 12 .rw, fl "SEL" 6 0 .rw 0x7f]⟩
def TRC_PIPE_H : RegSpec := ⟨430, 0x600040, [(0, 1, 0x4000000)], false, [fl "MATCH" 31 0 .rw]⟩
def TRC_PIPE_HM : RegSpec := ⟨431, 0x600044, [(0, 1, 0x4000000)], false, [fl "MASK" 31 0 .rw]⟩
def TRC_ENG_PER : RegSpec := ⟨432, 0x600048, [(0, 1, 0x4000000)], false, [fl "PER" 4 0 .rw 0x10]⟩
def TRC_DROP : RegSpec := ⟨433, 0x600060, [(0, 1, 0x4000000), (1, 6, 4)], false, [fl "COUNT" 31 0 .rc]⟩
def TRC_MARK : RegSpec := ⟨434, 0x600080, [(0, 1, 0x4000000)], false, [fl "VALUE" 31 0 .wo]⟩
def TRC_RD_IDX : RegSpec := ⟨435, 0x600100, [(0, 1, 0x4000000)], false, [fl "INDEX" 16 0 .rw]⟩
def TRC_RD_DATA : RegSpec := ⟨436, 0x600120, [(0, 1, 0x4000000), (0, 7, 4)], false, [fl "DATA" 31 0 .ro]⟩

/-! Registers of R700. -/
def GLB_THERM_STAT : RegSpec := ⟨437, 0xa0, [], false, [fl "D0_MAX" 31 24 .ro, fl "D1_MAX" 23 16 .ro, fl "HBM_MAX" 15 8 .ro,
  fl "ALERT" 0 0 .ro]⟩
def GLB_THERM_CFG : RegSpec := ⟨438, 0xa4, [], false, [fl "ALERT_C" 7 0 .rw 0x64]⟩

/-- Every register, in the tables' order. -/
def all : List RegSpec :=
  [GLB_MODE, GLB_MODE_REQ, GLB_RESET, GLB_RESET_CAUSE, GLB_BOOT_STATUS, GLB_DRAIN_CFG, GLB_FLUSH_CNT, GLB_FORME_ADDR_LO,
   GLB_FORME_ADDR_HI, GLB_FORME_LEN, GLB_FORME_CTL, GLB_FORME_STATUS, GLB_FORME_DETAIL, GLB_FORME_ID, GLB_FORME_INFO,
   FLW_CTL, FLW_SEED, FLW_LIMIT, FLW_COUNT, FLW_STACK_OOS, FLW_SWEEP_CFG, FLW_SWEEP_STATUS, FLW_PEND_CFG,
   FLW_PEND_STATUS, FLW_INS_FAST, FLW_INS_ENG, FLW_FULL_CNT, FLW_LIMIT_CNT, FLW_PEND_DROP, FLW_DEL_CNT, FLW_AGED_CNT,
   FLW_LATE_UPD, FLW_SETUP_REJ, FLW_PTAB_FULL, FLW_KFORM, FLW_HKEY, FLW_HCMD, FLW_HSTAT, FLW_HLOC, FLW_HREC, FLW_TMPL,
   FLW_MIR_CTL, FLW_MIR_IDX, FLW_MIR_ENTRY, FLW_MIR_WIN_PEAK, FLW_MIR_HIT, FLW_MIR_MISS, FLW_MIR_LOWCONF, FLW_MIR_COMMIT,
   FLW_MIR_SQUASH, FLW_MIR_SHADOW, FLW_MIR_HELD, FLW_MIR_WINFULL, FLW_QN_CFG, FLW_QN_STATUS, FLW_QN_ORDER, FLW_QN_BUSY,
   FLW_QN_FULL, FLW_QN_ORPHAN, FLW_QN_TORN] ++
  [FLW_QN_TORN_LOG, FLW_QN_RLOC, FLW_QN_RCMD, FLW_QN_RSTAT, FLW_QN_EPOCH, PRS_PORT_CFG, PRS_PORT_ZONE, PRS_ZMAP,
   PRS_MALF_ACT, PRS_MALF_CNT, PRS_MALF_LAST, PRS_RECIRC_DROP, PRS_NOFLOW, PRS_SPREAD_OOR, PRS_PAT_IDX, PRS_PAT_INFO,
   PRS_PAT_HITS, PRS_PARSED, PRS_INSPECTED, MAT_TDESC, MAT_TPROF, MAT_TPROF_GMASK, MAT_TCAM_VAL, MAT_TCAM_MASK,
   MAT_TCAM_RES, MAT_TCAM_SIDE, MAT_TCAM_CMD, MAT_TCAM_STAT, MAT_TCAM_BLKCTL, MAT_TCAM_MISM, MAT_TCAM_MLAST,
   MAT_PROF_HIT, MAT_PROF_MISS, MAT_CNT_SEL, MAT_CNT_PKTS, MAT_CNT_OCT, MAT_EX_KEY, MAT_EX_RES, MAT_EX_SIDE, MAT_EX_CMD,
   MAT_EX_STAT, MAT_EX_TBL, MAT_EX_COUNT, L2_RPUSH, L2_RSRC_MISS, L2_RDST_MISS, L2_CFG, L2_SEED_A, L2_SEED_B,
   L2_SWEEP_CFG, L2_COUNT, L2_FIFO_LVL, L2_LEARN_CNT, L2_MOVE_CNT, L2_FLAP_CNT, L2_AGED_CNT, L2_FULL_CNT, L2_LEARN_DROP,
   L2_STATIC_VIOL, L2_EVT_STALL] ++
  [L2_HENT, L2_HCMD, L2_HSTAT, L2_EVT_BASE_LO, L2_EVT_BASE_HI, L2_EVT_SIZE, L2_EVT_HEAD, L2_EVT_TAIL, L2_EVT_CTL,
   ACT_ENT, ACT_CMD, ACT_STAT, ACT_TO, CP_SITE, CP_CFG, BAL_IDX, BAL_DATA, BAL_CMD, BAL_STAT, EXP_HEAD, EXP_TAIL,
   EXP_LOST, EXP_STALL, MIR_SKIP, ACT_BAD, ACT_TCP_REFUSE, ACT_TCP_EXP, ACT_TCP_RACE, ACT_NAT_FRAG, ACT_XLAT_NOMATCH,
   ACT_NPT_FFFF, CP_MISS, BAL_NOSEL, BAL_DOWN_DROP, CP_ENT_W0, CP_ENT_W1, GLB_PATCH_ADDR_LO, GLB_PATCH_ADDR_HI,
   GLB_PATCH_LEN, GLB_PATCH_CTL, GLB_PATCH_STATUS, KCS_PATCH_VER, KCS_CS_ADDR, KCS_CS_PAR, KCS_CS_DATA, KCS_DISP,
   KSN_WQ_STAT, KSN_BUS_STAT, KSN_PAR_CNT, KSN_BAD_DONE, KSN_SCR_PAGE, KSN_ENG_CFG, KSN_ENG_STAT, KSN_ENG_MCHK,
   KSN_ENG_RESET, KSN_ENG_IRQ, PMC_USER_EN, PMC_CYCLE, PMC_EVSEL, PMC_CTR] ++
  [TSK_SCFG, TSK_SARG, TSK_SINTM, TSK_CMD, TSK_STAT, TSK_READY, TSK_PREEMPT_CNT, TSK_WITHDRAW_CNT, TSK_QHELD_CNT,
   TSK_BITE_CNT, TSK_LINE, TSK_WDOG, TSK_ENG_ST, TSK_SLOT_ST, TSK_SLOT_EVT, BUF_FREE, BUF_SPILL_CFG, BUF_PART_LOW,
   BUF_WADI_STAT, BUF_WADI_SIZE, BUF_WADI_FULL, BUF_SPILL_ACT, BUF_PART_SIZE, BUF_PART_USE, BUF_AGQ, BUF_AGUSE,
   BUF_NOCELL_CNT, BUF_QUOTA_CNT, BUF_QPROF, BUF_DFREE, BUF_DFREE_CNT, BUF_NONOWN, BUF_NONOWN_CNT, BUF_DATA_ERR_CNT,
   BUF_CELL_IDX, BUF_CELL_META, TMG_CFG, TMG_RESEQ_TMO, TMG_VOQ_IDX, TMG_VOQ_STAT, TMG_VOQ_DROP, TMG_RECIRC_FULL,
   TMG_RESEQ_CNT, TMG_FAB_TX, TMG_CT_CNT, TMG_STOMP_CNT, TMG_MC_SKIP, TMG_VOQ_PROF, TMG_EQ_PROF, TMG_MC_GRP, TMG_MC_MEM,
   SCH_QS_CFG, SCH_PORT_CFG, SCH_PORT_OVH, SCH_PSHP_W0, SCH_PSHP_W1, SCH_PSHP_TOK, SCH_GB_HOLD, SCH_QUANTUM, SCH_DEFICIT] ++
  [SCH_QSHP_W0, SCH_QSHP_W1, SCH_QSHP_TOK, SCH_QDEPTH, SCH_QPEAK, SCH_QDELAY, SCH_QDMAX, SCH_GATE_CTL, SCH_GATE_CYCLE,
   SCH_GATE_BASE_NS, SCH_GATE_BASE_SEC, SCH_GATE_CHG_SEC, SCH_GATE_CHG_NS, SCH_GATE_OPER, SCH_GATE_OCYCLE, SCH_GATE_OVR,
   SCH_GATE_LIST, SCH_GATE_OLIST, TSN_SID_W0, TSN_SID_W1, TSN_SID_W2, TSN_SF_W0, TSN_SF_W1, TSN_SF_STAT, TSN_SF_CNT,
   TSN_MTR_W0, TSN_MTR_W1, TSN_MTR_W2, TSN_MTR_W3, TSN_MTR_STAT, TSN_RCV_W0, TSN_RCV_W1, TSN_RCV_ST, TSN_RCV_CNT,
   TSN_SID_MISS, TSN_FILT_MISS, MEM_CTL, MEM_WDRAIN, MEM_PANIC_CFG, MEM_STACK_CTL, MEM_STACK_STAT, MEM_TRAIN_STAT,
   MEM_CH_STAT, MEM_CH_BW, MEM_CH_PANIC, MEM_CH_LATE, MEM_CH_CE, MEM_CH_ODE, MEM_CH_UE, MEM_CH_NREF, MEM_CH_NRDROP,
   MEM_CH_WFULL, MEM_CH_LINK, MEM_CH_ELAST, MEM_CH_ELAST_REQ, MAC_PORT_CFG, MAC_PORT_CTL, MAC_LINK, MAC_LINK_TMR,
   MAC_CLASS_MAP] ++
  [MAC_FILT_W0, MAC_FILT_W1, MAC_PFC_TX, MAC_PFC_QUANTA, MAC_CNT, MAC_RX_FRAMES, MAC_RX_OCTETS, MAC_TX_FRAMES,
   MAC_TX_OCTETS, MAC_LINK_CHG, MAC_PROT, MAC_PROT_SW, PCS_STAT, PCS_FEC_CORR, PCS_FEC_SYM, PCS_FEC_UNC, PCS_BLK_ERR,
   PCS_LOCK_LOSS, SDS_FIR, SDS_CTL, SDS_RX_STAT, SDS_PRBS_CTL, SDS_PRBS_STAT, SDS_PRBS_ERR, SDS_PRBS_BITS, SDS_INJ_CNT,
   TIM_RAW, TIM_STAT, TIM_NOW_NS, TIM_NOW_FRAC, TIM_NOW_SEC, TIM_NOW_RAW, TIM_INC, TIM_SET_INC, TIM_SET_SEC, TIM_SET_NS,
   TIM_STEP_NS, TIM_EPOCH, TIM_CMD, TIM_CMD_STAT, TIM_PORT_CORR, TIM_TSQ_W0, TIM_TSQ_W1, TIM_TSQ_W2, TIM_TSQ_W3,
   TIM_TSQ_LVL, TIM_STAMP_LOST, TIM_LOST_ID, TIM_ETMR_CTL, TIM_ETMR_PER, TIM_ETMR_PH, TIM_ETMR_CNT, TIM_IO_CFG,
   TIM_IO_WIDTH, TIM_TRIG_NS, TIM_TRIG_FRAC, TIM_TRIG_SEC, TIM_TRIG_STAT, ERR_RING_BASE_LO, ERR_RING_BASE_HI] ++
  [ERR_RING_SIZE, ERR_RING_CTL, ERR_RING_HEAD, ERR_RING_TAIL, ERR_RING_LOST, ERR_SEQ, ERR_CNT, ERR_QUIESCE, ERR_INJ,
   ERR_INJ_ADDR, ERR_INJ_CNT, ERR_INJ_LAST, ERR_LOG_IDX, ERR_LOG, ERR_RESP, ERR_SRC_CNT, FLW_DIV_LOC, FLW_DIV_CMD,
   FLW_DIV_STAT, FLW_DIV_CNT, HIF_STAT, HIF1_CTL, HIF_TX_BASE_LO, HIF_TX_BASE_HI, HIF_TX_CFG, HIF_TX_HEAD, HIF_TX_TAIL,
   HIF_RX_BASE_LO, HIF_RX_BASE_HI, HIF_RX_CFG, HIF_RX_HEAD, HIF_RX_TAIL, HIF_RXSEL, HIF_TX_STALL, HIF_TX_BAD,
   HIF_RX_NOBUF, HIF_RX_TRUNC, HIF_RX_DROP, GAL_STAT, GAL_CRED_CTL, GAL_KEY, GAL_CTR_LAST, GAL_CRC_ERR, GAL_AUTH_FAIL,
   GAL_TTL_DROP, GAL_ENUM_OVF, GAL_ALERT_LOST, SEC_STAT, SEC_VROOT, SEC_OROOT, SEC_IMP_PK, SEC_IMP_CHK, SEC_OTP_ADDR_LO,
   SEC_OTP_ADDR_HI, SEC_OTP_CMD, SEC_OTP_STAT, SEC_ATT_NONCE, SEC_ATT_ADDR_LO, SEC_ATT_ADDR_HI, SEC_ATT_CMD] ++
  [SEC_ATT_STAT, SEC_LOG_STAT, SEC_LOG_IDX, SEC_LOG_DATA, SEC_MREG, TRC_CTL, TRC_STAT, TRC_SEQ, TRC_STOP, TRC_SRC_CFG,
   TRC_PIPE_H, TRC_PIPE_HM, TRC_ENG_PER, TRC_DROP, TRC_MARK, TRC_RD_IDX, TRC_RD_DATA, GLB_THERM_STAT, GLB_THERM_CFG]

end R

end Sys2Proof.Machine
end

