-- ==== Sys2Proof/Machine/Maps.lean ====
section
/-! DEFINITION. Sparse tables: lists of (key, value) pairs with rising keys, the form every large store of the part is held in, and
the pair of copies, one for each die. -/

namespace Sys2Proof.Machine

/-- A sparse table: pairs sorted by key, no key twice. -/
abbrev SMap (α : Type) := List (Nat × α)

/-- The value at a key, if one is listed. -/
def SMap.look {α : Type} : SMap α → Nat → Option α
  | [], _ => none
  | (j, v) :: m, k => if j = k then some v else SMap.look m k

/-- The value at a key, with what an unlisted key reads as. -/
def SMap.get {α : Type} (m : SMap α) (k : Nat) (d : α) : α := (SMap.look m k).getD d

/-- The table without the key. -/
def SMap.del {α : Type} : SMap α → Nat → SMap α
  | [], _ => []
  | (j, v) :: m, k => if j = k then SMap.del m k else (j, v) :: SMap.del m k

/-- The table with the key at a value, in sorted order. -/
def SMap.put {α : Type} : SMap α → Nat → α → SMap α
  | [], k, v => [(k, v)]
  | (j, w) :: m, k, v => if k < j then (k, v) :: (j, w) :: m else if j = k then (k, v) :: m else (j, w) :: SMap.put m k v

/-- The table with the key at a value, listing nothing that equals what an unlisted key reads as. -/
def SMap.set {α : Type} [DecidableEq α] (m : SMap α) (k : Nat) (v d : α) : SMap α := if v = d then SMap.del m k else SMap.put m k v

/-- Keys strictly rising. -/
def SMap.sorted {α : Type} : SMap α → Bool
  | [] => true
  | [_] => true
  | (j, _) :: (k, v) :: m => decide (j < k) && SMap.sorted ((k, v) :: m)

/-- The values that satisfy a test, in key order. -/
def SMap.vals {α : Type} (m : SMap α) (p : Nat → α → Bool) : List α := (m.filter (fun kv => p kv.1 kv.2)).map Prod.snd

/-- Every value rewritten. -/
def SMap.mapv {α : Type} (m : SMap α) (f : Nat → α → α) : SMap α := m.map (fun kv => (kv.1, f kv.1 kv.2))

/-- R10: one copy for each die. -/
structure Two (α : Type) where
  d0 : α
  d1 : α
  deriving DecidableEq, Repr

/-- The copy of die d. -/
def Two.get {α : Type} (t : Two α) (d : Nat) : α := if d = 0 then t.d0 else t.d1

/-- The pair with die d's copy replaced. -/
def Two.set {α : Type} (t : Two α) (d : Nat) (v : α) : Two α := if d = 0 then { t with d0 := v } else { t with d1 := v }

/-- The pair with die d's copy rewritten. -/
def Two.upd {α : Type} (t : Two α) (d : Nat) (f : α → α) : Two α := t.set d (f (t.get d))

/-- Both copies rewritten. -/
def Two.both {α : Type} (t : Two α) (f : α → α) : Two α := ⟨f t.d0, f t.d1⟩

/-- The numbers from a to b. -/
def span (a b : Nat) : List Nat := (List.range (b + 1 - a)).map (· + a)

/-- A list with its element at an index replaced, unchanged beyond its end. -/
def setAt {α : Type} : List α → Nat → α → List α
  | [], _, _ => []
  | _ :: l, 0, v => v :: l
  | a :: l, n + 1, v => a :: setAt l n v

/-- A list with the bytes from an offset on replaced, unchanged beyond its end. -/
def patch (bs : List Byte) (o : Nat) (new : List Byte) : List Byte :=
  (bs.take o) ++ ((new ++ bs.drop (o + new.length)).take (bs.length - o))

end Sys2Proof.Machine
end

