-- ==== Sys2Proof/Machine/Types.lean ====
section
/-! DEFINITION. The records that State is made of, chapter by chapter: what each block of the part holds beside its registers. -/

namespace Sys2Proof.Machine

/-- R53: the eight modes. -/
inductive Mode where
  | cold | root | enrol | load | run | drain | rest | proof
  deriving DecidableEq, Repr

/-- What keeps the part in COLD: nothing, a rail below its level (R693), a thermal trip (R698). -/
inductive Hold where
  | none | rails | thermal
  deriving DecidableEq, Repr

/-- R96, R101, R113: the forme loader. `state` is the STATE field; `img` the staging SRAM; `holds` the opcodes whose work items QUIESCE holds. -/
structure Loader where
  state : Nat
  img : List Byte
  holds : List Nat
  yields : List Nat
  deriving DecidableEq, Repr

/-- A section of the active forme: its claims (RTYPE, DIE, FIRST, COUNT) and body (R86). -/
structure Section where
  typ : Nat
  claims : List (Nat × Nat × Nat × Nat)
  body : List Byte
  deriving DecidableEq, Repr

/-- R51–R83, R96–R115, R698: modes, resets, the forme and patch loaders, heat. -/
structure GlbS where
  mode : Mode
  prev : Mode
  /-- The target of the transition in progress; some exactly while TRANS = 1. -/
  trans : Option Mode
  /-- R107: the transition waits for the loader. -/
  deferred : Bool
  hold : Hold
  /-- R76: TMO_MS as in force when DRAIN was entered. -/
  drainTmo : Nat
  loader : Loader
  /-- R384: a patch load is in progress. -/
  patching : Bool
  /-- The sections of the active forme, by type. -/
  active : List Section
  /-- R109: accesses held, in host order: path, offset, the value written or none for a read. -/
  held : List (Path × Nat × Option Word)
  /-- R698: the last readings, in degrees. -/
  die0 : Int
  die1 : Int
  /-- R698: THERM_TRIP_N is low. -/
  trip : Bool
  deriving DecidableEq, Repr

/-- R650–R670: the security domain. -/
structure SecS where
  vroot : List Byte
  /-- R651: the programmed owner roots, slot 0 first. -/
  oroot : List (List Byte)
  dsecret : List Byte
  impChk : List Byte
  vsvn : Nat
  osvn : Nat
  /-- R656: the imprint's public key; empty before it is derived. -/
  pk : List Byte
  /-- R658: the stored entries, oldest first, 256 at most. -/
  log : List (List Byte)
  /-- R661: entries folded since COLD. -/
  logn : Nat
  mreg : List Byte
  /-- R665: the SVN of every vendor image or patch loaded. -/
  vendorSvn : List Nat
  /-- R661: the captured statement of the attestation in progress. -/
  stmt : Option (List Byte)
  /-- R670: the fifteen words latched by a read of SEC_MREG[0], for each path. -/
  mregP : List Byte
  mregG : List Byte
  /-- R668: the boundary register of the test port, and whether its instruction is BYPASS. -/
  tap : List Bool
  tapBypass : Bool
  deriving DecidableEq, Repr

/-- A presented time captured with its raw count: P in units of 2^-32 ns (R572). -/
structure Cap where
  p : Int
  raw : Nat
  deriving DecidableEq, Repr

/-- R576–R579: the pending time command with its raw epoch and value. -/
structure TimCmd where
  op : Nat
  e : Nat
  v : Int
  /-- The nanoseconds of a SET, which R577 tests. -/
  ns : Nat
  arrived : Bool
  /-- R579: the raw counters have reached E: its parameters are in force. -/
  acted : Bool
  deriving DecidableEq, Repr

/-- R584: an entry of a stamp queue. -/
structure Stamp where
  status : Nat
  hold : Bool
  port : Nat
  id : Nat
  p : Int
  deriving DecidableEq, Repr

/-- R583, R584: a stamped frame that has ended and whose entry has not reached its queue. -/
structure Due where
  status : Nat
  port : Nat
  id : Nat
  raw : Nat
  /-- R575: HOLDOVER when the stamp was taken. -/
  hold : Bool
  deriving DecidableEq, Repr

/-- R592: a TIME_IO pin: asserted as an output; its latest capture and what a read latched on each path. -/
structure Pin where
  out : Bool
  cap : Int
  latP : Int
  latG : Int
  deriving DecidableEq, Repr

/-- R571–R594: the time base. -/
structure TimS where
  running : Bool
  raw : Two Nat
  /-- OFFSET in units of 2^-32 ns. -/
  offset : Int
  /-- INC in units of 2^-32 ns. -/
  inc : Nat
  /-- R573: the raw counts of the changes, newest first, each with the OFFSET and INC before it, back to the oldest raw value not yet converted. -/
  old : List (Nat × Int × Nat)
  cmd : Option TimCmd
  /-- R593: the capture of each die, for PCIe and for the galley chain. -/
  capP : Two Cap
  capG : Two Cap
  /-- R584: the stamp queue of each region. -/
  tsq : List (List Stamp)
  /-- R586: entries on their way to each region's queue, in stamp order. -/
  due : List (List Due)
  /-- R593: the record latched by a pop, for each region and path. -/
  tsqP : List Int
  tsqG : List Int
  pins : List Pin
  deriving DecidableEq, Repr

/-- R18, R19: the latches of one access path. `rl` is the register whose high word is latched with that word; `wl` the low word staged. -/
structure Latch where
  rl : Option (Nat × Nat)
  wl : Option (Nat × Nat)
  /-- The value the path's last read returned. -/
  last : Nat
  /-- R708: the path's last read completed as Unsupported Request. -/
  ur : Bool
  deriving DecidableEq, Repr

/-- R708: the completion of the last read or configuration request that an endpoint answered. -/
inductive EpCpl where
  | none
  | data (v : Nat)
  | unsupported
  | retry
  deriving DecidableEq, Repr

/-- R622–R637, R708: one PCIe endpoint: whether it accepts configuration requests, whether its link is up, the two enables of its configuration
space (memory space, bus master), and its MSI-X state. -/
structure Endpoint where
  ready : Bool
  up : Bool
  memEn : Bool
  busEn : Bool
  masked : List Nat
  pending : List Nat
  /-- R627: messages sent, oldest first. -/
  sent : List Nat
  /-- R622: in D3hot. -/
  d3 : Bool
  /-- R622: the MSI-X table: each vector's message address and data. -/
  vecs : SMap (Nat × Nat)
  cpl : EpCpl
  deriving DecidableEq, Repr

/-- R622–R637: the host interface. -/
structure HifS where
  pcie : Latch
  galley : Latch
  ep : Two Endpoint
  /-- Bytes of host memory that the part has written by DMA. -/
  mem : SMap Byte
  /-- R630: the transmit rings stalled at a descriptor whose frame was refused its cells. -/
  stalled : List (Nat × List Byte × List Byte)
  deriving DecidableEq, Repr

/-- R638–R649: the galley chain. -/
structure GalS where
  addr : Nat
  key : List Byte
  /-- Alerts waiting, oldest first, at most four. -/
  alerts : List (List Byte)
  /-- Frames sent: out of DOWN or UP, and the bytes of R639, oldest first. -/
  sent : List (Bool × List Byte)
  /-- R109, R642: the RD or WR that waits: the port it arrived on, its CMD and SEQ; none for a broadcast. -/
  wait : Option (Bool × Nat × Nat)
  /-- R645: whether UP, and DOWN, has declared loss of signal and not received valid characters for 10 µs since. -/
  lostUp : Bool
  lostDn : Bool
  deriving DecidableEq, Repr

/-- R610: records of a CODE written in the current millisecond, and whether one has been withheld since the last written. -/
structure Lim where
  ms : Nat
  n : Nat
  supp : Bool
  deriving DecidableEq, Repr

/-- R595–R621: one die's error block. -/
structure ErrS where
  /-- R613: remembered entries, RADDR and TYPE. -/
  rem : List (Nat × Nat)
  lim : SMap Lim
  /-- R609: records were lost since the last that reached the ring. -/
  ovf : Bool
  /-- R617: injected faults that stand in the datapath: CODE and the address of the fault. Every event of one carries INJ. -/
  injd : List (Nat × Nat)
  deriving DecidableEq, Repr

/-- R673, R675: a record in a source's FIFO: the raw count of its event, SRC, TYPE, PAYLOAD, and the CODE of an ERR record. -/
structure TrcRec where
  raw : Nat
  src : Nat
  typ : Nat
  pay : List Byte
  code : Option Nat
  deriving DecidableEq, Repr

/-- R671–R689: one die's trace buffer. -/
structure TrcS where
  buf : SMap (List Byte)
  /-- R673: the FIFO of each source, by SRC; the sources of which a record was dropped since one was last stored; where the rotation over PIPE, ENG, MEM
  and SCHED stands. -/
  fifo : List (List TrcRec)
  lossy : List Bool
  turn : Nat
  /-- R681: records still to store after the trigger. -/
  post : Option Nat
  /-- R681: records stored since the last CLR. -/
  stored : Nat
  /-- R679: records of each source that passed the other tests, for sampling. -/
  samp : List Nat
  /-- R682: the galley path's RD_IDX, and the record latched on each path. -/
  idxG : Nat
  latP : List Byte
  latG : List Byte
  deriving DecidableEq, Repr

/-! ## Flow records (chapters 4 to 6) -/

/-- R130: the slot states. -/
inductive TagState where
  | empty | valid | pending | torn
  deriving DecidableEq, Repr

/-- R121: a flow record; `key` is bytes 0 to 39. CHECK is computed (R124). -/
structure Rec where
  key : List Byte
  action : Nat
  flags : Nat
  pkts : Nat
  octets : Nat
  last : Nat
  tcpst : Nat
  age : Nat
  aux : Nat
  deriving DecidableEq, Repr

/-- R127, R129: a slot with its tag word. `badP` and `badM` say that the primary and the mirror copy fail their check; `gen` counts the
insertions and deletions applied to the slot, which R157 compares. -/
structure Slot where
  st : TagState
  alt : Bool
  ktag : Nat
  form : Nat
  body : Rec
  badP : Bool
  badM : Bool
  gen : Nat
  deriving DecidableEq, Repr

/-- R208: a packet write-back: frame length, direction, the TCP states it moves between, and the tag it was read under (R157, R318). -/
structure Wb where
  len : Nat
  initiator : Bool
  tcp : Option (Nat × Nat)
  gen : Nat
  ktag : Nat
  form : Nat
  deriving DecidableEq, Repr

/-- R208: the operations of an atomic update unit. `tok` is the issuing engine's result that the operation completes, where it has one. -/
inductive AuuKind where
  | wb (w : Wb)
  | add (e tok dp doct : Nat)
  | stamp (e tok : Nat)
  | cset
  | cdel
  | cwrite (e tok mask : Nat) (bytes : List Byte)
  deriving DecidableEq, Repr

/-- An operation waiting at the atomic update unit of its record. -/
structure AuuOp where
  raddr : Nat
  kind : AuuKind
  deriving DecidableEq, Repr

/-- R147: why a pending-table entry exists: a fast insertion, an engine-assisted setup, an engine hold (R199), a host insertion. -/
inductive PKind where
  | fast | setup | hold | host
  deriving DecidableEq, Repr

/-- R147, R152: a pending-table entry with its list of held packets, first packet first. -/
structure PEnt where
  idx : Nat
  key : List Byte
  h : Nat
  kform : Nat
  kind : PKind
  region : Nat
  raddr : Option Nat
  pkts : List Nat
  /-- R612: an armed FLW_SETUP_TMO diverted the flow. -/
  diverted : Bool
  /-- R77: the insertion was under way at a FLUSH: what it releases is discarded. -/
  flush : Bool
  deriving DecidableEq, Repr

/-- R213: a quoin entry. -/
structure Quoin where
  wi : Bool
  owner : Nat
  epoch : Nat
  /-- R220: granted, while packets of the flow that read the record before the hold are still in their windows. -/
  settling : Bool
  deriving DecidableEq, Repr

/-- R219: an engine waiting in QACQ, with the result its status completes. -/
structure QWait where
  e : Nat
  raddr : Nat
  wi : Bool
  tok : Nat
  deriving DecidableEq, Repr

/-- R335, R338: the export walker of a die: the visits that its pacing timer has let it make, and the slots visited in the present period. -/
structure Walk where
  due : Nat
  seen : List Nat
  deriving DecidableEq, Repr

/-- R121–R234: the flow table of both dies. Slots are keyed by RADDR (R212), tag-block checks by RADDR div 8, hints by die and index. -/
structure FlwS where
  slots : SMap Slot
  /-- R128: buckets whose tag block fails its check: primary copy, mirror copy. -/
  tagBad : SMap (Bool × Bool)
  hint : SMap Nat
  pend : Two (List PEnt)
  auuq : List AuuOp
  quoins : SMap Quoin
  waits : List QWait
  /-- R219: the engine numbers, 96 for pipeline requests, that won most recently rank last. -/
  rot : List Nat
  tornLog : Two (List Nat)
  tornOvf : Two Bool
  /-- R612: the error source of the divert of a record, by RADDR. -/
  divSrc : SMap Nat
  /-- R520: the slots whose next visit by the sweeper (requester 4) or the export walker (5) passes over them: requester, RADDR. -/
  pass : List (Nat × Nat)
  /-- R335: the export walker of each die. -/
  walk : Two Walk
  deriving DecidableEq, Repr

/-! ## Packets (chapters 5, 7, 9, 12) -/

/-- Where a packet stands between the receive FIFO and its queue. -/
inductive Stage where
  /-- In the region, before its parse is complete. -/
  | arrived
  /-- Stateless, at its FLOW stage: its pattern result, or an earlier packet's of its port, is outstanding (R262, R171). -/
  | waiting
  /-- In the commit window of its own die, its record read outstanding. -/
  | window
  /-- In the commit window of the ingress die, its descriptor on the way to the home die. -/
  | crossing
  /-- Its descriptor at the home die, its record read outstanding. -/
  | remote
  /-- Its verdict on the way to the ingress die. -/
  | verdict
  /-- Squashed, its replay due (R193). -/
  | replay
  /-- On a pending list or engine hold list. -/
  | listed
  /-- Held in the commit window behind an engine's hold (R199). -/
  | held
  /-- In an engine's work item. -/
  | engine
  /-- Waiting in a recirculation queue. -/
  | recirc
  deriving DecidableEq, Repr

/-- R239–R252: what parsing gives a packet: metadata, header vector, parse depth D, outermost VID, malformed cause, canonical key, H,
swap bit, fragment mark, and where its key headers lie. -/
structure PktHdr where
  md : List Byte
  hv : List Byte
  depth : Nat
  vid : Option Nat
  malf : Nat
  key : List Byte
  h : Option Nat
  swap : Bool
  frag : Bool
  ipOff : Option Nat
  l4Off : Option Nat
  v6 : Bool
  deriving DecidableEq, Repr

/-- R188, R331: the action entry of a packet, its balancer group and the backend entry it is pinned to, as they stand when its action-dependent stages
begin; `act` and `aux` name them. -/
structure Snap where
  act : Nat
  aux : Nat
  ent : List Byte
  grp : Nat × Nat
  bk : Nat
  bkw : List Nat
  deriving DecidableEq, Repr

/-- R294: a source lookup of a packet: the MAC address and FID, and whether it found an entry whose DEST is the ingress port. -/
structure L2Src where
  mac : Nat
  fid : Nat
  inPlace : Bool
  deriving DecidableEq, Repr

/-- R177–R188, R274: what the pipeline holds for a packet: its prediction with the CONF it rests on; metadata, counter hits and learn sources after the
action-independent stages; the deltas and sources held; the entries its action-dependent stages read, once they have begun; the VOQ of its speculative
entry; the source of an ECC failure (R275); the pattern hits (slot, PID) of an inspected packet whose result is outstanding (R262). -/
structure PktRun where
  pred : Bool
  pact : Nat
  paux : Nat
  pconf : Nat
  hintLoc : Option (Nat × Nat)
  md0 : List Byte
  deltas0 : List Nat
  src0 : List L2Src
  deltas : List Nat
  src : List L2Src
  snap : Option Snap
  spec : Option Nat
  ecc : Option Nat
  pat : Option (List (Nat × Nat))
  /-- R267: the packet has been counted in the inspected class. -/
  insp : Bool
  deriving DecidableEq, Repr

/-- R151: what a failed insertion counts. -/
inductive InsFail where
  | full | limit | ptab | nosel
  deriving DecidableEq, Repr

/-- R189: what the home region decides of a stateful packet, as the ingress region has to carry it out. -/
inductive Oc where
  /-- Row 1, or row 2 with `pend`: on the list of a pending-table entry. -/
  | listed (pend : Bool)
  /-- Row 1, or row 2 with `pend`: its list is full, so it is dropped (R152). -/
  | over (pend : Bool)
  /-- Row 1: held in its commit window (R199). -/
  | held
  /-- Row 2: its insertion failed at once (R151). -/
  | fail (f : InsFail)
  /-- Row 3, with the source of R612. -/
  | divert (srcId : Nat)
  | drop
  | engine
  | commit
  | squash
  deriving DecidableEq, Repr

/-- R189, R204, R615: what a packet's record read returned, for the decision to go by: a record or tag block that failed in every copy, or a slot that
held a complete or torn record, with the error source of its divert. A read that found no such slot decides nothing and is made again. -/
inductive Rd where
  | bad (ra : Nat)
  | slot (ra : Nat) (s : Slot) (src : Nat)
  deriving DecidableEq, Repr

/-- R189–R195: its commit-window entry, what its record read returned, the record it goes by (RADDR, generation, contents), the TCP transition to apply,
whether its own record squashed it, whether it is or was replayed, and whether that replay's stages have ended; what its home region has decided, while a
verdict carries it; whether its record or verdict has come and waits for earlier packets of its flow; R77: 1 once a FLUSH has marked it, 2 once its frame
is gone too. -/
structure PktWin where
  win : Option Nat
  rd : Option Rd
  loc : Option Nat
  gen : Nat
  img : Option Rec
  tcp : Option (Nat × Nat)
  squashed : Bool
  replayed : Bool
  ran : Bool
  oc : Option Oc
  ret : Bool
  flush : Nat
  deriving DecidableEq, Repr

/-- R235, R541: a packet between arrival and commit: die of its body, ingress region and port (0 to 68), arrival order, the frame with its
FCS, receive stamp (R580), pass, owner tag and partition of its cells (R428), ingress class, head cell as die · 2^18 + c (R420), whether the
frame is bad (1 FCS, 2 oversize, R540), the stamp ID it requests (R583), and where it stands. -/
structure Pkt extends PktHdr, PktRun, PktWin where
  d : Nat
  g : Nat
  port : Nat
  ord : Nat
  bytes : List Byte
  stamp : Int
  pass : Nat
  agent : Nat
  part : Nat
  cls : Nat
  head : Nat
  bad : Nat
  stampId : Option Nat
  stage : Stage
  deriving DecidableEq, Repr

/-- R197: a verdict: the commit-window entry and region window it names, the outcome code, and of the record ACTION, TCPST, AUX and location. `pkt` is the
model's own: the packet that the entry held when the home region decided. -/
structure Verdict where
  win : Nat
  rgn : Nat
  code : Nat
  action : Nat
  tcpst : Nat
  aux : Nat
  bucket : Nat
  slot : Nat
  alt : Bool
  stack : Nat
  pkt : Nat
  deriving DecidableEq, Repr

/-- R202: what crosses the die link: the descriptor of a packet, or a verdict. -/
inductive Link where
  | desc (n : Nat)
  | verd (v : Verdict)
  deriving DecidableEq, Repr

/-- R195–R203: the packets, the commit windows, the link queues and the replay orders. -/
structure PktS where
  pkts : SMap Pkt
  next : Nat
  ord : Nat
  /-- R195: commit window of each region: (entry, packet), in arrival order. -/
  win : List (List (Nat × Nat))
  /-- R202: descriptors and verdicts on their way to each die, in the order in which they were sent. -/
  link : Two (List Link)
  /-- R191, R192: the replay order of each region: the packets whose replay has not started. -/
  replay : List (List Nat)
  /-- R193: the replays in progress in each region, in the order in which they started. -/
  run : List (List Nat)
  /-- R203: the recirculation queue of each region. -/
  recirc : List (List Nat)
  deriving DecidableEq, Repr

/-! ## Buffers and queues (chapters 12 and 13) -/

/-- R421: the metadata of a cell that has been allocated; a free cleared ALLOC and left the rest. `inp` is 8·port + class of the frame that holds it,
for R551. -/
structure Cell where
  alloc : Bool
  owner : Nat
  part : Nat
  ref : Nat
  head : Bool
  last : Bool
  fill : Nat
  next : Nat
  inp : Option Nat
  deriving DecidableEq, Repr

/-- R632: what a receive descriptor says of a frame. -/
structure RxInfo where
  kind : Nat
  cause : Nat
  portIn : Nat
  srcId : Nat
  zone : Nat
  h : Option Nat
  rx : Int
  deriving DecidableEq, Repr

/-- R425: an entry of a VOQ or egress queue: the packet it names, its head cell and number of cells, the tag that owns them (R429) and their
partition, the partition charged for a copy (R433), the frame as it leaves with its FCS, whether it is committed (R187), cut through (R458), due a
stomped FCS (R459), the moment of its commit (R491), its transmit stamp ID (R583), the recovery instance of R486. R446: `flight` marks the entry that a
cut-through frame has in its egress queue while its cells still come: it holds no reference, the VOQ entry does. -/
structure QEnt where
  pkt : Nat
  head : Nat
  n : Nat
  owner : Nat
  part : Nat
  charge : Option Nat
  bytes : List Byte
  committed : Bool
  cut : Bool
  stomp : Bool
  commitP : Int
  stamp : Option Nat
  rcv : Option Nat
  info : RxInfo
  flight : Bool
  deriving DecidableEq, Repr

/-- R451: the cells of an entry that one page holds; `last` when the entry ends in the page, `drop` once a failed read discards the frame (R453). -/
structure Piece where
  ent : QEnt
  n : Nat
  last : Bool
  drop : Bool
  deriving DecidableEq, Repr

/-- R451, R500: a wadi page: the stack of its die and the page number that say where it lies, and the pieces of entries it holds, in queue order. -/
structure Page where
  stack : Nat
  n : Nat
  ps : List Piece
  /-- R453, R520: its read failed correction. -/
  bad : Bool
  deriving DecidableEq, Repr

/-- R438, R450–R452: a VOQ: entries on chip, head first; in spill, the pages written, the page being read with the cells reserved for it,
the pieces returned of an entry whose end has not, and the entries behind, each with the cells of it that pages already hold. -/
structure Voq where
  ents : List QEnt
  pages : List Page
  rd : Option Page
  got : List Piece
  tail : List (QEnt × Nat)
  spill : Bool
  deriving DecidableEq, Repr

/-- R442, R444: the transfer in progress from an ingress region: its VOQ, cells sent and in all, the slot it began in, cells reserved on the
other die. In compatibility mode, the sequence number of its first cell and the cells that have reached the egress region. R446: whether its frame
stands in the egress queue already, and the slot in which its transmission began. -/
structure Xfer where
  v : Nat
  sent : Nat
  total : Nat
  start : Nat
  rsv : Nat
  seq : Nat
  arrived : List Nat
  put : Bool
  out : Option Nat
  deriving DecidableEq, Repr

/-- R436, R439, R444: a frame that is still arriving: its packet, front port, head cell, last cell so far, cells to come, its length, the agent,
partition and ingress class that its cells are charged to, and whether it is free of errors. -/
structure Arr where
  pkt : Nat
  port : Nat
  head : Nat
  last : Nat
  left : Nat
  len : Nat
  agent : Nat
  part : Nat
  inp : Option Nat
  good : Bool
  deriving DecidableEq, Repr

/-- R447: a cell waiting in an intermediate region: ingress region, VOQ, index within its frame. -/
structure MCell where
  g : Nat
  v : Nat
  i : Nat
  deriving DecidableEq, Repr

/-- R420–R460: the cell stores, VOQs, egress queues (keyed 8·port + class, port 64 the host port) and the fabric. -/
structure BufS where
  cells : SMap Cell
  start : Two Nat
  /-- The frames still arriving, oldest first. -/
  arr : List Arr
  voq : SMap Voq
  eq : SMap (List QEnt)
  /-- R441: grant, accept and VOQ pointers. -/
  gp : List Nat
  ap : List Nat
  rr : SMap Nat
  /-- Transfers: native keyed 4·g + egress region; compatibility keyed 16 + 520·g + v. -/
  xfer : SMap Xfer
  slot : Nat
  /-- R447: the intermediate queues, keyed 4·m + egress region. -/
  mid : SMap (List MCell)
  seq : SMap Nat
  /-- R551: ingress classes in XOFF, 8·port + class, and cells held for each. -/
  held : SMap Nat
  xoff : List Nat
  /-- R500: the stack of each die that the next wadi page is taken from. -/
  rotor : Two Nat
  /-- R452, R508: pages in the prefetch buffer of each die's wadi reader. -/
  level : Two Nat
  deriving DecidableEq, Repr

/-- R463: the frame in transmission at a port: its class and queue entry (none for a MAC control frame), the bytes, the length charged. -/
structure Tx where
  cls : Option Nat
  ent : Option QEnt
  bytes : List Byte
  len : Int
  /-- R480: its gate closed while it was in transmission. -/
  closed : Bool
  /-- R575: HOLDOVER when its first byte left. -/
  hold : Bool
  deriving DecidableEq, Repr

/-- R463–R480, R546–R552: one port's egress side. Tokens are in 1/640,000 byte, with the raw count of their last accrual. -/
structure Egr where
  tx : Option Tx
  /-- R552: MAC control frames waiting, with 9 or 10, the counter of R568 that each raises. -/
  ctl : List (Nat × List Byte)
  rr : Nat
  fresh : List Bool
  ptok : Int
  plast : Nat
  qtok : List Int
  qlast : List Nat
  /-- R547: the pause times in force, in quanta; 0 for none. -/
  pause : Nat
  pfc : List Nat
  /-- R479: the head frames that row 5 has been counted for, as 8·packet + class. -/
  gbHeld : List Nat
  /-- R475: OBASE. -/
  obase : Int
  olen : Nat
  /-- R551: the raw count at which the newest PFC frame was made: the classes whose state changes at that moment share it. -/
  pfcAt : Option Nat
  deriving DecidableEq, Repr

/-- R483: a meter's buckets in 1/640,000 byte and the raw count of their last refill. -/
structure Meter where
  c : Nat
  e : Nat
  last : Nat
  deriving DecidableEq, Repr

/-- R463–R491: the egress ports, the frames sent (port and bytes, oldest first), delay-sampling counts, meters, recovery histories, and the
PASSED and DISCARDED of each test period (R489). -/
structure EgrS where
  ports : SMap Egr
  sent : List (Nat × List Byte)
  qs : SMap Nat
  mtr : SMap Meter
  hist : SMap Nat
  led : SMap (Nat × Nat)
  /-- R561: groups whose WTR has elapsed and whose revert waits for a frame boundary: 8·region + n. -/
  revert : List Nat
  /-- R566: the frames that a near-end loopback returns to their port's own receiver, port and bytes, oldest first. -/
  looped : List (Nat × List Byte)
  deriving DecidableEq, Repr

/-! ## Actions (chapter 9) and HBM engine areas (chapter 14) -/

/-- R307, R323, R328: the action, cell-plan and balancer stores, keyed by die and index. -/
structure ActS where
  ent : SMap (List Byte)
  /-- R323: word 0 writes of CP_ENT that are held. -/
  cpHeld : SMap Nat
  grp : SMap (List Nat)
  bk : SMap (List Nat)
  pool : SMap Nat
  /-- R334: eligible packets per session and region. -/
  samp : SMap Nat
  deriving DecidableEq, Repr

/-! ## Engines (chapter 10) and threads (chapter 11) -/

/-- R360, R361: a work item: opcode, KIND, the packet, RADDR of the implicit quoin, the record as read at dispatch; R77: whether a FLUSH found it. -/
structure Item where
  op : Nat
  kind : Nat
  pkt : Nat
  raddr : Nat
  record : List Byte
  flush : Bool
  deriving DecidableEq, Repr

/-- R342, R343: a memory operation outstanding: its token, the registers it will write from `dst` on, and the values once the operation is
done. `n` registers are pending. R392, R520: of an LDH, the engine address and the bytes that it reads. -/
structure Infl where
  tok : Nat
  dst : Nat
  n : Nat
  vals : Option (List Nat)
  ldh : Option (Nat × Nat)
  deriving DecidableEq, Repr

/-- R368: an entry of the commit journal. -/
inductive Jent where
  | stl (a : Nat) (bs : List Byte)
  | sts (a : Nat) (bs : List Byte)
  | sth (a : Nat) (bs : List Byte)
  | qwrite (ra mask : Nat) (bs : List Byte) (tok : Nat)
  | radd (ra dp doct tok : Nat)
  | rstamp (ra tok : Nat)
  deriving DecidableEq, Repr

/-- R368, R372: an atomic window: its checkpoint, the address of the ATOM word, the journal oldest first, the operations issued inside. -/
structure Win where
  w : List Nat
  stack : List Nat
  at_ : Nat
  journal : List Jent
  toks : List Nat
  deriving DecidableEq, Repr

/-- R366, R367: the routine under a handler: the saved micro-PC, its w24–w31, and the first token of an operation that the handler issued. -/
structure Handler where
  upc : Nat
  hi : List Nat
  mark : Nat
  deriving DecidableEq, Repr

/-- R341, R397: what an engine runs: w0–w31, micro-PC, call stack (top first). -/
structure Ctx where
  w : List Nat
  upc : Nat
  stack : List Nat
  deriving DecidableEq, Repr

/-- R341–R379: an engine. Its STATE, ROLE_ACT, IMASK and the rest of KSN_ENG_STAT stand in that register. -/
structure Eng where
  ctx : Ctx
  lmem : SMap Byte
  item : Option Item
  infl : List Infl
  win : Option Win
  irqs : List Nat
  handler : Option Handler
  /-- R366: the handler's own w24–w31. -/
  hw : List Nat
  /-- R344, R349: a word that ends its turn whose quoin request waits: the word, and BREG as it stood at issue. -/
  turn : Option (Nat × Nat)
  deriving DecidableEq, Repr

/-- R341–R394: the engines, the control store (one copy of the words with their parity, R25, and the words and dispatch entries of single
clusters whose parity an injection broke), scratch, work queues, and the bus ranks. -/
structure EngS where
  eng : SMap Eng
  cs : SMap (Nat × Nat)
  csBad : List (Nat × Nat)
  dispBad : List (Nat × Nat)
  scr : SMap Byte
  hi : SMap (List Item)
  lo : SMap (List Item)
  /-- R360: items of each region that wait for a queue; R219: items that wait for their quoin. -/
  wait : SMap (List Item)
  qitems : List Item
  /-- R360: the cluster after the one that took a region's last item. -/
  rot : SMap Nat
  tok : Nat
  /-- R387: requesters of each cluster, highest rank first. -/
  rank : SMap (List Nat)
  deriving DecidableEq, Repr

/-- R397, R401: a thread's context while it is switched out. `how` is 0 before its first dispatch, 1 in WAIT, 2 in
YIELD, 3 in a WAIT that its timer ended; `timed` says that its WAIT loaded the timer, `tmo` what was last loaded, in µs. -/
structure TSlot where
  ctx : Ctx
  breg : Nat
  how : Nat
  mask : Nat
  timed : Bool
  tmo : Nat
  intm : Nat
  entry : Nat
  arg : Nat
  deriving DecidableEq, Repr

/-- R395–R419: the task schedulers of both dies: slots keyed by 512·die + slot, ready lists by 32·die + level, the engines blocked in WAIT,
the rotation of R399 (most recently served last), and the event lines 8 to 11 whose rising edges have still to reach their slots (R407). -/
structure TskS where
  slots : SMap TSlot
  ready : SMap (List Nat)
  idle : Two (List Nat)
  rot : Two (List Nat)
  edges : Two (List Nat)
  deriving DecidableEq, Repr

/-- R503–R507: a request of a pseudo-channel: once its flow-path read has raised panic, the raw count at which that read was issued; the row hits that have
passed over it; its place in the order of acceptance. -/
structure HbmWait where
  req : HbmReq
  issue : Option Int
  passed : Nat
  seq : Nat
  deriving DecidableEq, Repr

/-- R503–R514: one pseudo-channel: its queues, oldest first. -/
structure PchS where
  rq : List HbmWait
  wq : List HbmWait
  /-- R503: requests that still wait at their requesters for room in a queue. -/
  held : List HbmWait
  /-- R506: a write drain is in progress. -/
  drain : Bool
  /-- R511: the banks whose refreshes are postponed, one entry for each interval owed, oldest first. -/
  owed : List Nat
  /-- R505: the rows that stand open, as bank and row. -/
  opened : List (Nat × Nat)
  /-- R513: bank and row of the activations whose neighbours' refresh is pending, oldest first. -/
  nref : List (Nat × Nat)
  /-- R513: draws made. -/
  draws : Nat
  /-- R504: requests accepted. -/
  seq : Nat
  deriving DecidableEq, Repr

/-- R496–R525: the HBM stacks. `mem` holds the bytes of the engine areas, keyed by stack and stack address; pseudo-channels are keyed by
2 · global channel + u. -/
structure HbmS where
  mem : SMap Byte
  pch : SMap PchS
  /-- R515: what the random generators were seeded with. -/
  seed : Nat
  /-- R517: the stacks whose training has stopped. -/
  failed : List Nat
  deriving DecidableEq, Repr

/-! ## Match memories (chapter 8) -/

/-- R272, R273: a TCAM entry: value and mask of up to 640 bits, result, side data [20:0] (CNT_EN, PRI, CNT_IDX), valid. -/
structure TEnt where
  val : Nat
  mask : Nat
  res : Nat
  side : Nat
  valid : Bool
  deriving DecidableEq, Repr

/-- R286: a valid exact-match entry. -/
structure XEnt where
  key : List Byte
  res : Nat
  side : Nat
  deriving DecidableEq, Repr

/-- R293: an L2 entry in use, with its LTICK. -/
structure L2Ent where
  mac : Nat
  fid : Nat
  dest : Nat
  static : Bool
  host : Bool
  noage : Bool
  hit : Bool
  clr : Bool
  flap : Nat
  ltick : Nat
  deriving DecidableEq, Repr

/-- R302: a FLUSH that waits for the event ring: DEST, the FID when FIDM = 1, the position that it goes on from. -/
structure L2Flush where
  dest : Nat
  fid : Option Nat
  next : Nat
  deriving DecidableEq, Repr

/-- R268–R306: TCAM rows and their shadows (keyed by region, profile and entry), exact and direct tables, the L2 tables, learn FIFOs,
counter pairs, pattern hits. -/
structure MatS where
  tcam : SMap TEnt
  shadow : SMap TEnt
  exact : SMap XEnt
  direct : SMap Nat
  l2 : SMap L2Ent
  /-- R294: pushes (MAC, FID, port), oldest first. -/
  learn : Two (List (Nat × Nat × Nat))
  cnt : SMap (Nat × Nat)
  patHit : SMap Nat
  /-- Words with a double-bit error: error CODE and key of the entry. -/
  bad : List (Nat × Nat)
  /-- R282: rows whose mismatch has been reported: region, block, row. -/
  mism : List (Nat × Nat × Nat)
  /-- R278: the verified TCAM write that is in progress in a region in RUN: profile and index. -/
  twr : SMap (Nat × Nat)
  /-- R281: the bits of its rows that the array takes wrong in the TCAM write of the command in progress. -/
  flip : Nat
  /-- R302: the FLUSH of each die that waits. -/
  flush : Two (Option L2Flush)
  deriving DecidableEq, Repr

end Sys2Proof.Machine
end

