-- ==== Sys2Proof/Machine/State.lean ====
section
/-! DEFINITION. The state of the part: every register, store, queue and pin, and the queue of commands that wait. -/

namespace Sys2Proof.Machine

/-- Everything the part holds but the queue of commands. -/
structure Dev where
  /-- The register file: BAR0 offset of each word that is not at its reset value. -/
  regs : SMap Word
  /-- The model's own counter of free values drawn. -/
  free : Nat
  glb : GlbS
  sec : SecS
  tim : TimS
  hif : HifS
  gal : GalS
  err : Two ErrS
  trc : Two TrcS
  flw : FlwS
  pk : PktS
  buf : BufS
  egr : EgrS
  act : ActS
  eng : EngS
  tsk : TskS
  hbm : HbmS
  mat : MatS
  deriving DecidableEq, Repr

/-- The part and the commands that wait for it, first in, first out. -/
structure State where
  dev : Dev
  pending : List Instr
  deriving DecidableEq, Repr

/-- Why a step stops with a fault. -/
inductive Fault where
  /-- Raised by every meaning whose operands describe no event of the part (port 69, engine 96, a fetched image of another length than the one asked for).
  Safe: the part never shows such a command. -/
  | noSuchUnit
  deriving DecidableEq, Repr

/-- Why a step is refused. -/
inductive Refusal where
  /-- Raised by an arm of exec whose command has no meaning yet. Safe: nothing can be proved of it. -/
  | notModelled (mnemonic : String)
  deriving DecidableEq, Repr

/-- R61, R17: the modes block on exit from COLD. -/
def GlbS.reset : GlbS :=
  ⟨.root, .cold, none, false, .none, 200, ⟨0, [], [], []⟩, false, [], [], 0, 0, false⟩

/-- R650, R660: the security domain on exit from COLD of a part as manufactured. -/
def SecS.reset : SecS :=
  ⟨Config.vroot, [], Config.dsecret, Config.impChk, 0, 0, [], [], 0, List.replicate 64 0#8, [], none, [], [], [], true⟩

/-- R571, R594: the time base when power-on reset completes. -/
def TimS.reset : TimS :=
  ⟨true, ⟨0, 0⟩, 0, 2 ^ 32, [], none, ⟨⟨0, 0⟩, ⟨0, 0⟩⟩, ⟨⟨0, 0⟩, ⟨0, 0⟩⟩, [[], [], [], []], [[], [], [], []], [0, 0, 0, 0], [0, 0, 0, 0],
    List.replicate 4 ⟨false, 0, 0, 0⟩⟩

/-- R708: an endpoint that has not trained; its configuration space at the defaults of PCI: memory space and bus master disabled, every vector of
the MSI-X table masked, none pending. -/
def Endpoint.reset : Endpoint := ⟨false, false, false, false, List.range 64, [], [], false, [], .none⟩

/-- R637: the host interface on exit from COLD. -/
def HifS.reset : HifS := ⟨⟨none, none, 0, false⟩, ⟨none, none, 0, false⟩, ⟨Endpoint.reset, Endpoint.reset⟩, [], []⟩

/-- R649: the galley chain on exit from power-on. -/
def GalS.reset : GalS := ⟨0, List.replicate 32 0#8, [], [], none, false, false⟩

/-- R620: one die's error block on exit from COLD. -/
def ErrS.reset : ErrS := ⟨[], [], false, []⟩

/-- R671: one die's trace buffer on exit from COLD. -/
def TrcS.reset : TrcS := ⟨[], List.replicate 7 [], List.replicate 7 false, 0, none, 0, List.replicate 7 0, 0, List.replicate 32 0#8, List.replicate 32 0#8⟩

/-- R17, R71: the flow table on exit from COLD: every slot invalid. -/
def FlwS.reset : FlwS := ⟨[], [], [], ⟨[], []⟩, [], [], [], List.range 97, ⟨[], []⟩, ⟨false, false⟩, [], [], ⟨⟨0, []⟩, ⟨0, []⟩⟩⟩

/-- No packet in the part. -/
def PktS.reset : PktS := ⟨[], 0, 0, [[], [], [], []], ⟨[], []⟩, [[], [], [], []], [[], [], [], []], [[], [], [], []]⟩

/-- R420, R441: empty cell stores and queues, the pointers at region 0. -/
def BufS.reset : BufS := ⟨[], ⟨0, 0⟩, [], [], [], [0, 0, 0, 0], [0, 0, 0, 0], [], [], 0, [], [], [], [], ⟨0, 0⟩, ⟨0, 0⟩⟩

/-- R463: every port idle. -/
def EgrS.reset : EgrS := ⟨[], [], [], [], [], [], [], []⟩

/-- R307, R328: the stores of chapter 9 on exit from COLD. -/
def ActS.reset : ActS := ⟨[], [], [], [], [], []⟩

/-- R379, R24: every engine in reset with registers 0, empty stores and queues. -/
def EngS.reset : EngS := ⟨[], [], [], [], [], [], [], [], [], [], 0, []⟩

/-- R419: every slot FREE, no engine waiting. -/
def TskS.reset : TskS := ⟨[], [], ⟨[], []⟩, ⟨span 0 47, span 48 95⟩, ⟨[], []⟩⟩

/-- R496: the stacks on exit from COLD. -/
def HbmS.reset : HbmS := ⟨[], [], 0, []⟩

/-- R101: every match memory cleared. -/
def MatS.reset : MatS := ⟨[], [], [], [], [], ⟨[], []⟩, [], [], [], [], [], 0, ⟨none, none⟩⟩

/-- The part on exit from the COLD of a power-on reset. -/
def Dev.reset : Dev :=
  ⟨[], 0, GlbS.reset, SecS.reset, TimS.reset, HifS.reset, GalS.reset, ⟨ErrS.reset, ErrS.reset⟩, ⟨TrcS.reset, TrcS.reset⟩,
    FlwS.reset, PktS.reset, BufS.reset, EgrS.reset, ActS.reset, EngS.reset, TskS.reset, HbmS.reset, MatS.reset⟩

/-- The machine right after reset: no command waits. -/
def State.reset : State := ⟨Dev.reset, []⟩

end Sys2Proof.Machine
end

