-- ==== Sys2Proof/Machine/Ops.lean ====
section
/-! DEFINITION. The operations every block shares: the register file, the presented time, DMA, MSI-X, trace records and error events. -/

namespace Sys2Proof.Machine

/-- The BAR0 offset of a register with its indices in the order of RegSpec.dims. -/
def RegSpec.addr (r : RegSpec) (ix : List Nat) : Nat :=
  r.off + ((r.dims.zip ix).map (fun p => p.2 * p.1.2.2)).sum

/-- R17: the value the register holds on exit from COLD; fields marked forme, OTP or strap read 0. -/
def RegSpec.reset (r : RegSpec) : Nat := (r.fields.map (fun f => f.rst * 2 ^ f.lo)).sum

/-- The field of a register by its name. -/
def RegSpec.field (r : RegSpec) (n : String) : Option RField := r.fields.find? (·.name == n)

/-- R13: the word of the register file at a BAR0 offset; an unlisted word holds its reset value. -/
def regWord (regs : SMap Word) (a rst : Nat) : Nat := (SMap.get regs a (BitVec.ofNat 32 rst)).toNat

/-- The register file with the word at an offset replaced. -/
def regPut (regs : SMap Word) (a rst v : Nat) : SMap Word := SMap.set regs a (BitVec.ofNat 32 v) (BitVec.ofNat 32 rst)

/-- R18: the value of a register, 64 bits for a wide one. -/
def Dev.getW (d : Dev) (r : RegSpec) (ix : List Nat) : Nat :=
  let a := r.addr ix
  let lo := regWord d.regs a r.reset
  if r.wide then lo + regWord d.regs (a + 4) (r.reset / 2 ^ 32) * 2 ^ 32 else lo

/-- The part with a register set whole. -/
def Dev.setW (d : Dev) (r : RegSpec) (ix : List Nat) (v : Nat) : Dev :=
  let a := r.addr ix
  let lo := regPut d.regs a r.reset v
  { d with regs := if r.wide then regPut lo (a + 4) (r.reset / 2 ^ 32) (v / 2 ^ 32) else lo }

/-- REGISTER.FIELD, 0 for a field the register has not. -/
def Dev.get (d : Dev) (r : RegSpec) (ix : List Nat) (f : String) : Nat :=
  match r.field f with
  | some g => bitsOf (d.getW r ix) g.hi g.lo
  | none => 0

/-- REGISTER.FIELD := v, the low bits of v (R11). -/
def Dev.put (d : Dev) (r : RegSpec) (ix : List Nat) (f : String) (v : Nat) : Dev :=
  match r.field f with
  | some g => d.setW r ix (setBits (d.getW r ix) g.hi g.lo v)
  | none => d

/-- Whether a one-bit field is 1. -/
def Dev.bit (d : Dev) (r : RegSpec) (ix : List Nat) (f : String) : Bool := d.get r ix f = 1

/-- R684: a counter raised by n; it wraps at its width. -/
def Dev.bump (d : Dev) (r : RegSpec) (ix : List Nat) (f : String) (n : Nat) : Dev := d.put r ix f (d.get r ix f + n)

/-- A counter that its register table calls saturating. -/
def Dev.bumpSat (d : Dev) (r : RegSpec) (ix : List Nat) (f : String) (n : Nat) : Dev :=
  match r.field f with
  | some g => d.put r ix f (min (d.get r ix f + n) (2 ^ (g.hi + 1 - g.lo) - 1))
  | none => d

/-- A fresh free value below a bound: nothing constrains it further. -/
def Dev.fresh (d : Dev) (bound : Nat) : Nat × Dev := (Config.freeValue d.free % bound, { d with free := d.free + 1 })

/-! ## Time (R571–R573) -/

/-- One nanosecond in the unit presented time is kept in, 2^-32 ns. -/
def nsUnit : Nat := 2 ^ 32

/-- R572: presented time of a raw count, in units of 2^-32 ns. -/
def TimS.pAt (t : TimS) (raw : Nat) : Int := t.offset + (raw * t.inc : Nat)

/-- R573: presented time of an event at a raw count, under the parameters in force at that count. -/
def TimS.pEvent (t : TimS) (raw : Nat) : Int :=
  match t.old.reverse.find? (fun x => decide (raw < x.1)) with
  | some (_, o, i) => o + (raw * i : Nat)
  | none => t.pAt raw

/-- The presented time of die k now. -/
def Dev.now (d : Dev) (k : Nat) : Int := d.tim.pAt (d.tim.raw.get k)

/-- R572: SEC. -/
def pSec (p : Int) : Nat := ((p / (nsUnit * 1000000000 : Nat)) % ((2 ^ 64 : Nat) : Int)).toNat
/-- R572: NS. -/
def pNs (p : Int) : Nat := ((p / (nsUnit : Nat)) % 1000000000).toNat
/-- R572: FRAC, truncated to 2^-16 ns. -/
def pFrac (p : Int) : Nat := ((p / 65536) % 65536).toNat

/-! ## Host memory and MSI-X (R624, R627) -/

/-- Bytes written by DMA from an address on. -/
def dmaWrite (m : SMap Byte) (a : Nat) : List Byte → SMap Byte
  | [] => m
  | b :: bs => dmaWrite (SMap.put m (a % 2 ^ 64) b) (a + 1) bs

/-- Bytes written to host memory. -/
def Dev.dma (d : Dev) (a : Nat) (bs : List Byte) : Dev := { d with hif := { d.hif with mem := dmaWrite d.hif.mem a bs } }

/-- R622, R708: an endpoint can send requests of its own: it is trained, in D0, and its bus master enable is set. -/
def Endpoint.sends (e : Endpoint) : Bool := e.ready && e.up && e.busEn && !e.d3

/-- R609, R63: the host path of the die 0 endpoint takes DMA. -/
def Dev.dmaUp (d : Dev) : Bool := d.hif.ep.d0.sends

/-- R627: an occurrence of a vector's condition on an endpoint: a masked vector sets its pending bit; otherwise one message goes out
when the endpoint can send, and waits as one message until then. -/
def Endpoint.signal (e : Endpoint) (v : Nat) : Endpoint :=
  if e.masked.contains v || !e.sends then
    if e.pending.contains v then e else { e with pending := e.pending ++ [v] }
  else { e with sent := e.sent ++ [v] }

/-- R627: an occurrence of vector v of the endpoint of die k. -/
def Dev.msix (d : Dev) (k v : Nat) : Dev := { d with hif := { d.hif with ep := d.hif.ep.upd k (·.signal v) } }

/-- R627: the endpoint can send again: the messages that waited and are not masked go out. -/
def Endpoint.release (e : Endpoint) : Endpoint :=
  if e.sends then
    { e with sent := e.sent ++ e.pending.filter (fun v => !e.masked.contains v), pending := e.pending.filter (fun v => e.masked.contains v) }
  else e

/-! ## Trace (R671–R681) -/

/-- R671: the records a buffer holds. -/
def trcSize : Nat := 131072

/-- R674: whether sources capture in a mode. -/
def Mode.captures : Mode → Bool
  | .cold | .root => false
  | _ => true

/-- R671, R673, R675, R681: the writer stores one record; it carries LOSS when one of its source was dropped before it. -/
def Dev.trcStore (d : Dev) (k : Nat) (x : TrcRec) : Dev :=
  let t := d.trc.get k
  let seq := d.get R.TRC_SEQ [k] "SEQ"
  let loss := t.lossy.getD x.src false
  let rec_ := leBytes 4 seq ++ leBytes 6 x.raw ++ [BitVec.ofNat 8 (x.src + 16 * b2n loss), BitVec.ofNat 8 x.typ] ++ sliceB x.pay 0 20
  let w := seq % trcSize
  let stored := t.stored + 1
  let trig := d.bit R.TRC_STOP [k] "EN" && (match x.code with
    | some c => d.bit R.TRC_STOP [k] "ANY" || d.get R.TRC_STOP [k] "CODE" == c
    | none => false)
  let post := match t.post with
    | some n => some (n - 1)
    | none => if trig then some (d.get R.TRC_STOP [k] "POST")
      else if d.bit R.TRC_CTL [k] "MODE" && stored == trcSize then some 0 else none
  let d := { d with trc := d.trc.set k { t with buf := SMap.put t.buf w rec_, lossy := setAt t.lossy x.src false, stored := stored, post := post } }
  let d := (d.put R.TRC_SEQ [k] "SEQ" (seq + 1)).put R.TRC_STAT [k] "WPTR" ((w + 1) % trcSize)
  if w + 1 = trcSize then d.put R.TRC_STAT [k] "WRAPPED" 1 else d

/-- R673: the source whose FIFO head the writer takes next: ERR, MARK, then the others in rotating order. -/
def TrcS.pick (t : TrcS) : Option Nat :=
  ([5, 6] ++ (List.range 4).map (fun i => 1 + (t.turn + i) % 4)).find? (fun s => !(t.fifo.getD s []).isEmpty)

/-- R673, R681: the writer takes up to n FIFO heads of a die; none once capture has stopped. -/
def Dev.trcDrain (k : Nat) : Nat → Dev → Dev
  | 0, d => d
  | n + 1, d =>
    let t := d.trc.get k
    if t.post = some 0 || d.bit R.TRC_STAT [k] "STOPPED" then d else
    match t.pick with
    | none => d
    | some s =>
      match t.fifo.getD s [] with
      | [] => d
      | x :: l =>
        let t := { t with fifo := setAt t.fifo s l, turn := if s ≤ 4 then s % 4 else t.turn }
        Dev.trcDrain k n ({ d with trc := d.trc.set k t }.trcStore k x)

/-- R673: the writer has taken all that the FIFOs of a die hold, as it has when the host accesses the TRC block: DESIGN CHOICE, log entry 96. -/
def Dev.trcSettle (d : Dev) (k : Nat) : Dev := Dev.trcDrain k 96 d

/-- R673: a record reaches its source's FIFO, or is dropped and counted while the FIFO holds 16. How many CCLK cycles, of two records each, the writer
has had since the last one is free. -/
def Dev.trcArrive (d : Dev) (k : Nat) (x : TrcRec) : Dev :=
  let (n, d) := d.fresh 49
  let d := Dev.trcDrain k (2 * n) d
  let t := d.trc.get k
  let l := t.fifo.getD x.src []
  if l.length ≥ 16 then { d with trc := d.trc.set k { t with lossy := setAt t.lossy x.src true } }.bump R.TRC_DROP [k, x.src] "COUNT" 1
  else { d with trc := d.trc.set k { t with fifo := setAt t.fifo x.src (l ++ [x]) } }

/-- R679: a record of a source that its selector matches, captured when capture, its TYPE bit and sampling take it. -/
def Dev.trace (d : Dev) (k src typ : Nat) (pay : List Byte) (sel : Bool := true) (code : Option Nat := none) : Dev :=
  let t := d.trc.get k
  if d.glb.mode.captures && d.bit R.TRC_CTL [k] "EN" && d.bit R.TRC_SRC_CFG [k, src] "EN" && sel
      && (bitsOf (d.get R.TRC_SRC_CFG [k, src] "TYPEMASK") (typ - 1) (typ - 1) == 1) && t.post != some 0 then
    let n := t.samp.getD src 0
    let d := { d with trc := d.trc.set k { t with samp := setAt t.samp src (n + 1) } }
    if n % 2 ^ d.get R.TRC_SRC_CFG [k, src] "SLOG2" = 0 then d.trcArrive k ⟨d.tim.raw.get k, src, typ, pay, code⟩ else d
  else d

/-! ## Error events (R595–R611) -/

/-- R602: the level of a source's ID by its CODE. -/
def codeLevel (code : Nat) : Nat :=
  if [0x02, 0x03].contains code then 4
  else if [0x12, 0x20, 0x21, 0x22, 0x43, 0x70].contains code then 2
  else if code = 0x31 then 1
  else if [0x30, 0x32, 0x50, 0x51, 0x52, 0x60, 0x61].contains code then 0
  else 3

/-- R602: the assigned CODE values. -/
def codes : List Nat := [0x01, 0x02, 0x03, 0x04, 0x10, 0x11, 0x12, 0x20, 0x21, 0x22, 0x23, 0x30, 0x31, 0x32, 0x40, 0x41, 0x42, 0x43,
  0x50, 0x51, 0x52, 0x53, 0x54, 0x60, 0x61, 0x70]

/-- R602: how many instances of a source a die has. -/
def codeInsts (code : Nat) : Nat :=
  if code = 0x01 then 2 else if [0x10, 0x53, 0x54].contains code then 3 else if [0x12, 0x43, 0x70].contains code then 2
  else if code = 0x20 then 18 else if [0x21, 0x22].contains code then 16 else if [0x30, 0x32, 0x50, 0x51, 0x52].contains code then 48
  else if code = 0x31 then 6 else if [0x60, 0x61].contains code then 32 else 1

/-- R603: the armable responses of a CODE, as a mask. -/
def codeArms (code : Nat) : Nat := if code = 0x30 then 7 else if [0x12, 0x21, 0x32, 0x41, 0x43, 0x51].contains code then 1 else 0

/-- R595: the source ID. -/
def srcId (level code inst : Nat) : Nat := level * 2 ^ 13 + code * 2 ^ 6 + inst

/-- What an event's response did: whether an armed response completed, and its bit number, 0xFF for none (R605, R606). -/
structure Resp where
  acted : Bool
  num : Nat
  deriving DecidableEq, Repr

/-- No response taken. -/
def noResp : Resp := ⟨false, 0xFF⟩

/-- R606: the 32 bytes of an error record. -/
def errRecord (d : Dev) (ev : ErrEvent) (inj : Bool) (r : Resp) (ovf supp : Bool) : List Byte :=
  let p := d.now ev.d
  leBytes 2 (srcId ev.level ev.code ev.inst)
    ++ [BitVec.ofNat 8 (ev.cls + 4 * b2n inj + 8 * b2n r.acted + 16 * b2n ovf + 32 * b2n supp), BitVec.ofNat 8 ev.d]
    ++ leBytes 4 (pNs p) ++ leBytes 8 (pSec p) ++ leBytes 2 (d.get R.ERR_SEQ [ev.d] "SEQ")
    ++ [BitVec.ofNat 8 ev.typ, BitVec.ofNat 8 r.num] ++ sliceB ev.detail 0 12

/-- The eight words of a record written to a register array from an offset on. -/
def Dev.putBytes (d : Dev) (r : RegSpec) (ix : List Nat) (bs : List Byte) (n : Nat) : Dev :=
  (List.range n).foldl (fun d w => d.setW r (ix ++ [w]) (leAt bs (4 * w) 4)) d

/-- R609: the record reaches the host ring, or counts as lost while the ring is full or the host path takes no DMA. -/
def Dev.errRing (d : Dev) (k : Nat) (rec_ : List Byte) : Dev :=
  if !d.bit R.ERR_RING_CTL [k] "EN" then d else
  let n := 2 ^ d.get R.ERR_RING_SIZE [k] "LOG2"
  let tail := d.get R.ERR_RING_TAIL [k] "TAIL"
  if (tail + 1) % n = d.get R.ERR_RING_HEAD [k] "HEAD" || !d.dmaUp then
    let d := d.bump R.ERR_RING_LOST [k] "COUNT" 1
    { d with err := d.err.upd k (fun e => { e with ovf := true }) }
  else
    let base := d.get R.ERR_RING_BASE_LO [k] "ADDR_LO" + d.get R.ERR_RING_BASE_HI [k] "ADDR_HI" * 2 ^ 32
    let d := (d.dma (base + 32 * tail) rec_).put R.ERR_RING_TAIL [k] "TAIL" ((tail + 1) % n)
    { d with err := d.err.upd k (fun e => { e with ovf := false }) }

/-- R608 step 4: a galley alert joins those that wait, at most four (R647). -/
def Dev.alert (d : Dev) (rec_ : List Byte) : Dev :=
  if d.gal.alerts.length < 4 then { d with gal := { d.gal with alerts := d.gal.alerts ++ [rec_] } }
  else d.bump R.GAL_ALERT_LOST [] "COUNT" 1

/-- R610: the limit window of a CODE at this millisecond. -/
def Dev.limWin (d : Dev) (k code : Nat) : Lim :=
  let l := SMap.get (d.err.get k).lim code ⟨0, 0, false⟩
  let ms := d.tim.raw.get k / 1000000
  if l.ms = ms then l else { l with ms := ms, n := 0 }

/-- R610: whether the next record of a CODE is beyond its limit. -/
def Dev.limited (d : Dev) (k code : Nat) : Bool :=
  let n := d.get R.ERR_RESP [k, code] "LIMIT"
  n != 0 && (d.limWin k code).n ≥ 16 * n

/-- R609: whether the next record carries OVF: one was lost since the last that reached the ring, and this one reaches it. -/
def Dev.errOvf (d : Dev) (k : Nat) : Bool :=
  (d.err.get k).ovf && d.bit R.ERR_RING_CTL [k] "EN" && d.dmaUp &&
    (d.get R.ERR_RING_TAIL [k] "TAIL" + 1) % 2 ^ d.get R.ERR_RING_SIZE [k] "LOG2" != d.get R.ERR_RING_HEAD [k] "HEAD"

/-- R608: the record of an event that is not withheld: to ERR_LOG, to the ring, and signalled. -/
def Dev.errWrite (d : Dev) (ev : ErrEvent) (inj : Bool) (r : Resp) : Dev :=
  let k := ev.d
  let l := d.limWin k ev.code
  let rec_ := errRecord d ev inj r (d.errOvf k) l.supp
  let seq := d.get R.ERR_SEQ [k] "SEQ"
  let i := d.get R.ERR_LOG_IDX [k] "IDX"
  let d := { d with err := d.err.upd k (fun e => { e with lim := SMap.put e.lim ev.code { l with n := l.n + 1, supp := false } }) }
  let d := d.putBytes R.ERR_LOG [k, i] rec_ 8
  let d := (d.put R.ERR_LOG_IDX [k] "IDX" ((i + 1) % 16)).put R.ERR_SEQ [k] "SEQ" (seq + 1)
  let d := if inj then (d.put R.ERR_INJ_LAST [k] "VALID" 1).put R.ERR_INJ_LAST [k] "SEQ" seq else d
  let d := d.errRing k rec_
  let d := if d.bit R.ERR_RESP [k, ev.code] "MSI" then d.msix 0 (48 + k) else d
  if d.bit R.ERR_RESP [k, ev.code] "GAL" then d.alert rec_ else d

/-- R608: one event: counters, then its record unless withheld, then its trace record (R678). -/
def Dev.errEvent (d : Dev) (ev : ErrEvent) (inj : Bool := false) (r : Resp := noResp) (hide : Bool := false) : Dev :=
  let k := ev.d
  let d := (d.bump R.ERR_SRC_CNT [k, ev.code] "COUNT" 1).bump R.ERR_CNT [k, ev.cls - 1] "COUNT" 1
  let lim := d.limited k ev.code
  let l := d.limWin k ev.code
  let withheld := hide || lim
  let seq := if withheld then 0 else d.get R.ERR_SEQ [k] "SEQ"
  let flags := ev.cls + 4 * b2n inj + 8 * b2n r.acted + (if withheld then 0 else 16 * b2n (d.errOvf k) + 32 * b2n l.supp)
  let d := if withheld then { d with err := d.err.upd k (fun e => { e with lim := SMap.put e.lim ev.code { l with supp := true } }) } else d.errWrite ev inj r
  d.trace k 5 ev.typ (leBytes 2 (srcId ev.level ev.code ev.inst) ++ [BitVec.ofNat 8 flags, BitVec.ofNat 8 (b2n withheld)]
    ++ leBytes 2 seq ++ [BitVec.ofNat 8 r.num, 0#8] ++ sliceB ev.detail 0 12) true (some ev.code)

/-- The event of a source of die k, its level as R602 gives. -/
def mkEvent (k code inst cls typ : Nat) (detail : List Byte) : ErrEvent := ⟨k, codeLevel code, code, inst, cls, typ, detail⟩

/-- R616: whether the armed injection of a die is of this source and instance. -/
def Dev.injArmed (d : Dev) (k code inst : Nat) : Bool :=
  d.bit R.ERR_INJ [k] "GO" && d.get R.ERR_INJ [k] "CODE" == code && d.get R.ERR_INJ [k] "INST" == inst

/-- The address an armed injection names. -/
def Dev.injAddr (d : Dev) (k : Nat) : Nat := d.get R.ERR_INJ_ADDR [k] "ADDR"

/-- R616, R617: the fault has been planted: GO reads 0 and the injection is counted. -/
def Dev.injPlanted (d : Dev) (k : Nat) : Dev := (d.put R.ERR_INJ [k] "GO" 0).bump R.ERR_INJ_CNT [k] "COUNT" 1

/-- R707: a host access error of a TYPE: the die is the one addressed; INSTANCE 0 PCIe, 1 galley. -/
def Dev.hostAcc (d : Dev) (p : Path) (typ off data : Nat) (wr : Bool) : Dev :=
  d.errEvent (mkEvent (off / 0x4000000 % 2) 0x01 (match p with | .pcie => 0 | .galley => 1) 2 typ
    (leBytes 4 off ++ leBytes 4 (if wr then data else 0) ++ [BitVec.ofNat 8 (b2n wr)]))

/-- R709: the transition between two modes is in progress and has started. -/
def Dev.moving (d : Dev) (a b : Mode) : Bool := d.glb.mode == a && d.glb.trans == some b && !d.glb.deferred

/-- R379, R519: the engines are suspended: in REST, and from the acceptance of the request for it. -/
def Dev.suspends (d : Dev) : Bool := d.glb.mode == .rest || d.moving .drain .rest

/-- R60: the part forwards packets: RUN or DRAIN. -/
def Dev.running (d : Dev) : Bool := d.glb.mode == .run || d.glb.mode == .drain

/-- R603: whether a response bit of a CODE is armed. -/
def Dev.armed (d : Dev) (k code bit : Nat) : Bool := bitsOf (d.get R.ERR_RESP [k, code] "ARM") bit bit == 1

end Sys2Proof.Machine
end

