-- ==== Sys2Proof/Machine/Time.lean ====
section
/-! DEFINITION. The time base (chapter 16): time commands, captures, stamp queues, timers and TIME_IO pins. -/

namespace Sys2Proof.Machine

/-- The latches of a path (R19). -/
def Dev.latch (d : Dev) (p : Path) : Latch := match p with | .pcie => d.hif.pcie | .galley => d.hif.galley

/-- The latches of a path replaced. -/
def Dev.setLatch (d : Dev) (p : Path) (l : Latch) : Dev :=
  match p with
  | .pcie => { d with hif := { d.hif with pcie := l } }
  | .galley => { d with hif := { d.hif with galley := l } }

/-- The value that a read on a path returns. -/
def Dev.ret (d : Dev) (p : Path) (v : Nat) : Dev := d.setLatch p { d.latch p with last := v, ur := false }

/-- R576: the value a command carries: INC for RATE, a signed number of ns for STEP and SET. -/
def Dev.timStaged (d : Dev) (op : Nat) : Int :=
  if op = 1 then (d.getW R.TIM_SET_INC [] : Nat)
  else if op = 2 then sgn 64 (d.getW R.TIM_STEP_NS [])
  else (d.getW R.TIM_SET_SEC [] * 1000000000 + d.get R.TIM_SET_NS [] "NS" : Nat)

/-- R578: a command is accepted: it is pending from now on. -/
def Dev.timAccept (d : Dev) (c : TimCmd) : Dev :=
  { d.put R.TIM_CMD_STAT [] "PENDING" 1 with tim := { d.tim with cmd := some c } }

/-- R578: the pending command ends with a CODE. -/
def Dev.timEnd (d : Dev) (code : Nat) : Dev :=
  let d := (d.put R.TIM_CMD_STAT [] "PENDING" 0).put R.TIM_CMD_STAT [] "CODE" code
  { d with tim := { d.tim with cmd := none } }

/-- The BAR0 word that carries an OP of a command register. -/
def opWord (hi lo op : Nat) : Nat := op % 2 ^ (hi + 1 - lo) * 2 ^ lo

/-- R576, R578: a write of TIM_CMD with RATE, STEP or SET. -/
def Dev.timCommand (d : Dev) (p : Path) (op : Nat) : Dev :=
  if d.bit R.TIM_CMD_STAT [] "PENDING" then d.hostAcc p 0x04 (R.TIM_CMD.addr []) (opWord 31 28 op) true
  else d.timAccept ⟨op, d.getW R.TIM_EPOCH [], d.timStaged op, if op = 3 then d.get R.TIM_SET_NS [] "NS" else 0, false, false⟩

/-- R576: CANCEL discards a pending command whose E has not been reached and sets CODE = CANCELLED; otherwise it changes nothing. -/
def Dev.timCancel (d : Dev) : Dev := if d.tim.cmd.any (fun c => decide (d.tim.raw.d0 < c.e)) then d.timEnd 3 else d

/-- R577: the RANGE test of a command. -/
def timRange (t : TimS) (c : TimCmd) : Bool :=
  if c.op = 1 then decide (c.v * 1000 < (999 * nsUnit : Nat)) || decide (c.v * 1000 > (1001 * nsUnit : Nat))
  else if c.op = 2 then
    let p := t.pAt c.e + c.v * (nsUnit : Nat)
    decide (p < 0) || decide (p ≥ (2 ^ 64 * 1000000000 * nsUnit : Nat))
  else decide (c.ns > 999999999) || decide (c.v ≥ (2 ^ 64 * 1000000000 : Nat))

/-- R577, R579 step 2: the command reaches the TCLK domain: RANGE is tested first, LATE second. -/
def Dev.timArrive (d : Dev) : Dev :=
  match d.tim.cmd with
  | none => d
  | some c =>
    if c.arrived then d
    else if timRange d.tim c then d.timEnd 2
    else if c.e < d.tim.raw.d0 + 128 then d.timEnd 1
    else { d with tim := { d.tim with cmd := some { c with arrived := true } } }

/-- R576: the parameters after a command took effect at its raw count. -/
def TimS.apply (t : TimS) (c : TimCmd) : TimS :=
  if c.op = 1 then { t with inc := c.v.toNat, offset := t.offset + (c.e : Int) * ((t.inc : Int) - c.v) }
  else if c.op = 2 then { t with offset := t.offset + c.v * (nsUnit : Nat) }
  else { t with offset := c.v * (nsUnit : Nat) - ((c.e * t.inc : Nat) : Int) }

/-- R573, R579 step 3: both raw counts have reached E: the new parameters are in force on both dies, and TIM_INC shows INC. The set before stays for the raw
values taken under it; older ones while a stamp waits to be converted. -/
def Dev.timForce (d : Dev) (c : TimCmd) : Dev :=
  let t := { d.tim with raw := d.tim.raw.both (max c.e) }
  let t := { t.apply c with old := (c.e, t.offset, t.inc) :: (if t.due.all (·.isEmpty) then [] else t.old), cmd := some { c with acted := true } }
  ({ d with tim := t }.setW R.TIM_INC [0] t.inc).setW R.TIM_INC [1] t.inc

/-- R579 steps 3 and 4: the command acts, if it has not yet, and is done. -/
def Dev.timEpoch (d : Dev) : Dev :=
  match d.tim.cmd with
  | none => d
  | some c => if !c.arrived then d else (if c.acted then d else d.timForce c).timEnd 0

/-- R575, R616: the reference shows no edge for 1 us, by itself or because an injection has it ignored. -/
def Dev.refLost (d : Dev) : Dev :=
  let inj := d.injArmed 0 0x03 0
  let d := if inj then d.injPlanted 0 else d
  let d := [0, 1].foldl (fun d k => (d.put R.TIM_STAT [k] "REF_LOST" 1).put R.TIM_STAT [k] "HOLDOVER" 1) d
  d.errEvent (mkEvent 0 0x03 0 2 1 []) inj

/-- R575: the reference is back and the loop has relocked: HOLDOVER clears, and REF_LOST with it. -/
def Dev.refRelock (d : Dev) : Dev :=
  [0, 1].foldl (fun d k => (d.put R.TIM_STAT [k] "REF_LOST" 0).put R.TIM_STAT [k] "HOLDOVER" 0) d

/-- A pin rewritten. -/
def Dev.pin (d : Dev) (k : Nat) (f : Pin → Pin) : Dev :=
  { d with tim := { d.tim with pins := setAt d.tim.pins k (f (d.tim.pins.getD k ⟨false, 0, 0, 0⟩)) } }

/-- R592: an output pin asserts. -/
def Dev.pinAssert (d : Dev) (k : Nat) : Dev := d.pin k (fun q => { q with out := true })

/-- R592: PPS_OUT asserts at a whole second, on a pin that has the function. -/
def Dev.pps (d : Dev) (k : Nat) : Dev := if d.get R.TIM_IO_CFG [k] "FUNC" = 1 then d.pinAssert k else d

/-- R592: an output has stayed asserted for WIDTH_NS. -/
def Dev.pulseEnd (d : Dev) (k : Nat) : Dev := d.pin k (fun q => { q with out := false })

/-- R592: TRIG_IN captures P of a selected edge; an earlier capture not yet read sets OVR. -/
def Dev.trigCapture (d : Dev) (k : Nat) : Dev :=
  if d.get R.TIM_IO_CFG [k] "FUNC" != 2 then d else
  let d := if d.bit R.TIM_TRIG_STAT [k] "NEW" then d.put R.TIM_TRIG_STAT [k] "OVR" 1 else d
  let d := d.put R.TIM_TRIG_STAT [k] "NEW" 1
  let p := d.now 0
  (d.pin k (fun q => { q with cap := p })).put R.TIM_TRIG_NS [k] "NS" (pNs p)

/-- R593: a read of TIM_NOW_NS captures P and the raw count of the die for the path. -/
def Dev.nowRead (d : Dev) (p : Path) (k : Nat) : Dev :=
  let c : Cap := ⟨d.now k, d.tim.raw.get k⟩
  let t := match p with
    | .pcie => { d.tim with capP := d.tim.capP.set k c }
    | .galley => { d.tim with capG := d.tim.capG.set k c }
  ({ d with tim := t }).ret p (pNs c.p)

/-- R593: a read of TIM_TRIG_NS returns the capture and latches the rest of it for the path. -/
def Dev.trigRead (d : Dev) (p : Path) (k : Nat) : Dev :=
  let d := d.pin k (fun q => match p with | .pcie => { q with latP := q.cap } | .galley => { q with latG := q.cap })
  d.ret p (d.get R.TIM_TRIG_NS [k] "NS")

/-- R583, R584: a stamped frame ended; its entry is on its way to the region's queue. -/
def Dev.stampDue (d : Dev) (g : Nat) (e : Due) : Dev :=
  { d with tim := { d.tim with due := setAt d.tim.due g (d.tim.due.getD g [] ++ [e]) } }

/-- R584: the entry of a stamped frame of front port p discarded after enqueue. -/
def Dev.stampGone (d : Dev) (p : Nat) (stamp : Option Nat) : Dev :=
  match stamp with
  | some id => if p < 64 then d.stampDue (p / 16) ⟨2, p, id, d.tim.raw.get (p / 32), d.bit R.TIM_STAT [p / 32] "HOLDOVER"⟩ else d
  | none => d

/-- R573, R581, R584: the time of an entry: a sent or stomped frame's from its raw count at the pins and the port's correction, a discarded
frame's from its discard. -/
def Dev.stampTime (d : Dev) (e : Due) (raw : Nat) : Int :=
  if e.status = 2 then d.tim.pEvent e.raw
  else d.tim.pEvent (((raw : Int) + sgn 16 (d.get R.TIM_PORT_CORR [e.port / 32 % 2, e.port % 32] "TX")).toNat)

/-- R584–R586: the oldest entry on its way enters the region's queue, or is dropped and counted while the queue holds 32. -/
def Dev.stampEnter (d : Dev) (g raw : Nat) : Dev :=
  match d.tim.due.getD g [] with
  | [] => d
  | e :: rest =>
    let k := g / 2
    let d := { d with tim := { d.tim with due := setAt d.tim.due g rest } }
    let q := d.tim.tsq.getD g []
    if q.length ≥ 32 then
      let d := d.bump R.TIM_STAMP_LOST [k, g % 2] "COUNT" 1
      if d.bit R.TIM_LOST_ID [k, g % 2] "VALID" then d
      else (d.put R.TIM_LOST_ID [k, g % 2] "VALID" 1).put R.TIM_LOST_ID [k, g % 2] "ID" e.id
    else
      let s : Stamp := ⟨e.status, e.hold, e.port, e.id, d.stampTime e raw⟩
      let d := { d with tim := { d.tim with tsq := setAt d.tim.tsq g (q ++ [s]) } }
      let d := d.put R.TIM_TSQ_LVL [k, g % 2] "LEVEL" (q.length + 1)
      if q.isEmpty then d.msix 0 (54 + k) else d

/-- R594: word 0 of a stamp entry. -/
def Stamp.word (s : Stamp) : Nat := 2 ^ 31 + s.status * 2 ^ 29 + b2n s.hold * 2 ^ 28 + s.port * 2 ^ 16 + s.id

/-- R593: a read of word 0 of a stamp queue pops an entry and latches the rest of it for the path; VALID = 0 when there is none. -/
def Dev.stampPop (d : Dev) (p : Path) (g : Nat) : Dev :=
  match d.tim.tsq.getD g [] with
  | [] => d.ret p 0
  | s :: rest =>
    let t := { d.tim with tsq := setAt d.tim.tsq g rest }
    let t := match p with
      | .pcie => { t with tsqP := setAt t.tsqP g s.p }
      | .galley => { t with tsqG := setAt t.tsqG g s.p }
    (({ d with tim := t }).put R.TIM_TSQ_LVL [g / 2, g % 2] "LEVEL" rest.length).ret p s.word

/-- R588: whether a timer passes one or more firing times when presented time steps from p to q. -/
def Dev.timerPassed (d : Dev) (k n : Nat) (p q : Int) : Bool :=
  let per : Int := (d.getW R.TIM_ETMR_PER [k, n] * nsUnit : Nat)
  let ph : Int := (d.getW R.TIM_ETMR_PH [k, n] * nsUnit : Nat)
  d.bit R.TIM_ETMR_CTL [k, n] "EN" && decide (p < q) && decide (per > 0) && decide ((p - ph) / per < (q - ph) / per)

end Sys2Proof.Machine
end

