-- ==== Sys2Proof/Machine/Flow.lean ====
section
/-! DEFINITION. Flow records and the flow table (chapter 4): where it lies in HBM (R127, R497), keys, hashing, lookup, placement, insertion, deletion,
export items (R337), and the atomic update units (R208). -/

namespace Sys2Proof.Machine

/-! ## Addresses (R139, R212) -/

/-- R212: RADDR of a slot. -/
def raddrOf (stack bucket slot : Nat) : Nat := stack * 2 ^ 26 + bucket * 8 + slot
/-- The stack a RADDR names. -/
def raStack (r : Nat) : Nat := r / 2 ^ 26 % 8
/-- The bucket a RADDR names. -/
def raBucket (r : Nat) : Nat := r / 8 % 2 ^ 23
/-- The slot a RADDR names. -/
def raSlot (r : Nat) : Nat := r % 8
/-- The die a RADDR lies on. -/
def raDie (r : Nat) : Nat := raStack r / 3
/-- A RADDR names a slot of the part. -/
def raOk (r : Nat) : Bool := decide (raStack r < 6) && decide (raSlot r < 7) && decide (r < 2 ^ 29)

/-- R139: the candidate buckets of H as (stack, bucket): A, then B. -/
def candA (h : Nat) : Nat × Nat := (3 * bitsOf h 63 63 + bitsOf h 62 48 % 3, bitsOf h 46 24)
/-- R139: candidate B. -/
def candB (h : Nat) : Nat × Nat :=
  (3 * bitsOf h 63 63 + (bitsOf h 62 48 % 3 + 1 + bitsOf h 47 47) % 3, bitsOf h 23 1)
/-- R137: the KTAG of H in candidate A or B. -/
def ktagOf (h : Nat) (alt : Bool) : Nat := if alt then bitsOf h 47 24 else bitsOf h 23 0
/-- R137: the home die. -/
def homeDie (h : Nat) : Nat := bitsOf h 63 63
/-- The slot i of candidate A or B of H. -/
def candSlot (h : Nat) (alt : Bool) (i : Nat) : Nat := let c := if alt then candB h else candA h; raddrOf c.1 c.2 i

/-! ## Where buckets lie (R127, R140, R141, R496–R499) -/

/-- R497: where a stack address lies. -/
structure SaMap where
  pc : Nat
  chan : Nat
  bank : Nat
  row : Nat
  col : Nat
  deriving DecidableEq, Repr

/-- R497: a stack address mapped. -/
def saMap (sa : Nat) : SaMap :=
  ⟨Nat.xor (bitsOf sa 10 10) (bitsOf sa 20 20), Nat.xor (bitsOf sa 14 11) (bitsOf sa 24 21), Nat.xor (bitsOf sa 19 15) (bitsOf sa 29 25), bitsOf sa 33 20,
   bitsOf sa 9 0⟩

/-- R140, R499: the stack address of a bucket: row R = b div 2 lies at 1,024·R, the odd bucket in its upper half. -/
def bucketSa (b : Nat) : Nat := 1024 * (b / 2) + 512 * (b % 2)
/-- R141: the stack that holds the mirror copies of a stack's buckets. -/
def mirrorStack (s : Nat) : Nat := 3 * (s / 3) + (s % 3 + 1) % 3
/-- R141, R499: the stack address of a bucket's mirror copy. -/
def mirrorSa (b : Nat) : Nat := 2 ^ 32 + bucketSa b
/-- R127: the byte of its bucket at which slot i begins; the tag block is bytes 0 to 31. -/
def slotAt (i : Nat) : Nat := 32 + 64 * i

/-- R127, R499: what of the flow table a byte of a stack belongs to: the slot's RADDR (slot 0's for the tag block), the tag block or a slot, the
primary or the mirror copy. -/
structure FlowAt where
  ra : Nat
  tag : Bool
  mir : Bool
  deriving DecidableEq, Repr

/-- R127: the part of a bucket that a byte of it belongs to; the pad belongs to none. -/
def flowPart (s b o : Nat) (mir : Bool) : Option FlowAt :=
  if o < 32 then some ⟨raddrOf s b 0, true, mir⟩ else if o < 480 then some ⟨raddrOf s b ((o - 32) / 64), false, mir⟩ else none

/-- R498, R499: the flow table at a stack address of a stack: primary buckets below 4 GiB, mirror copies of the stack before it above. -/
def flowAt (s sa : Nat) : Option FlowAt :=
  if sa < 2 ^ 32 then flowPart s (sa / 512) (sa % 512) false
  else if sa < 2 ^ 33 then flowPart (3 * (s / 3) + (s % 3 + 2) % 3) ((sa - 2 ^ 32) / 512) (sa % 512) true
  else none

/-! ## Records (R121–R126) -/

/-- A record of zero bytes. -/
def Rec.zero : Rec := ⟨List.replicate 40 0#8, 0, 0, 0, 0, 0, 0, 0, 0⟩

/-- A slot never used. -/
def Slot.zero : Slot := ⟨.empty, false, 0, 0, Rec.zero, false, false, 0⟩

/-- R121: bytes 0 to 61 of a record. -/
def Rec.bytes62 (r : Rec) : List Byte :=
  sliceB r.key 0 40 ++ leBytes 3 r.action ++ leBytes 1 r.flags ++ leBytes 5 r.pkts ++ leBytes 6 r.octets ++ leBytes 3 r.last
    ++ leBytes 1 r.tcpst ++ leBytes 1 r.age ++ leBytes 2 r.aux

/-- R121, R124: the 64 bytes of a record. -/
def Rec.bytes (r : Rec) : List Byte := r.bytes62 ++ leBytes 2 (crc16 r.bytes62)

/-- R121: a record from its bytes. -/
def Rec.ofBytes (bs : List Byte) : Rec :=
  ⟨sliceB bs 0 40, leAt bs 40 3, leAt bs 43 1, leAt bs 44 5, leAt bs 49 6, leAt bs 55 3, leAt bs 58 1, leAt bs 59 1, leAt bs 60 2⟩

/-- R122: FLAGS bits. -/
def fValid : Nat := 0
/-- R122. -/
def fMirrored : Nat := 1
/-- R122. -/
def fDiverted : Nat := 2
/-- R122. -/
def fPending : Nat := 3
/-- R122. -/
def fCdir : Nat := 4
/-- R123: AGE bits. -/
def aNoage : Nat := 4
/-- R123. -/
def aClr : Nat := 5
/-- R123. -/
def aHitR : Nat := 6
/-- R123. -/
def aHitI : Nat := 7

/-- A bit of a byte. -/
def hasBit (v i : Nat) : Bool := v / 2 ^ i % 2 == 1
/-- A byte with a bit set. -/
def withBit (v i : Nat) (b : Bool) : Nat := setBits v i i (b2n b)

/-- R122. -/
def Rec.diverted (r : Rec) : Bool := hasBit r.flags fDiverted
/-- R122. -/
def Rec.cdir (r : Rec) : Bool := hasBit r.flags fCdir

/-- R126: the 1 ms tick of a die's raw counter. -/
def Dev.tick (d : Dev) (k : Nat) : Nat := d.tim.raw.get k / 1000000 % 2 ^ 24

/-- R138: whether a packet with a swap bit runs in the initiator direction of a record. -/
def Rec.initiator (r : Rec) (swap : Bool) : Bool := swap != r.cdir

/-! ## Slots -/

/-- The slot at a RADDR. -/
def Dev.slot (d : Dev) (ra : Nat) : Slot := SMap.get d.flw.slots ra Slot.zero

/-- The slot at a RADDR replaced. -/
def Dev.setSlot (d : Dev) (ra : Nat) (s : Slot) : Dev := { d with flw := { d.flw with slots := SMap.set d.flw.slots ra s Slot.zero } }

/-- The slot at a RADDR rewritten. -/
def Dev.updSlot (d : Dev) (ra : Nat) (f : Slot → Slot) : Dev := d.setSlot ra (f (d.slot ra))

/-- R130: the code of a slot state. -/
def TagState.code : TagState → Nat
  | .empty => 0 | .valid => 1 | .pending => 2 | .torn => 3

/-- R129: the tag word of a slot. -/
def Slot.tagWord (s : Slot) : Nat := s.ktag * 2 ^ 8 + s.st.code * 2 ^ 5 + b2n s.alt * 2 ^ 4 + s.form

/-- R128: a tag block from its tag words: the header holds TCHK, the CRC-16 of bytes 4 to 31. -/
def tagBlock (ws : List Nat) : List Byte := let b := ws.flatMap (leBytes 4); leBytes 4 (crc16 b * 2 ^ 16) ++ b

/-- R127: the 512 bytes of a bucket as the part writes them: the tag block, the slots, the pad of zeros. -/
def Dev.bucketBytes (d : Dev) (s b : Nat) : List Byte :=
  let sl := (List.range 7).map (fun i => d.slot (raddrOf s b i))
  tagBlock (sl.map Slot.tagWord) ++ sl.flatMap (fun x => x.body.bytes) ++ List.replicate 32 0#8

/-- R142: mirrored placement is in force. -/
def Dev.mirrored (d : Dev) : Bool := d.bit R.FLW_CTL [0] "PLACE"

/-- R522: reads of primary buckets of the stack read the mirror copy. -/
def Dev.mirrorRd (d : Dev) (stack : Nat) : Bool := d.mirrored && d.bit R.MEM_STACK_CTL [stack / 3, stack % 3] "MIRROR_RD"

/-- R125, R522: a read of a copy pair: whether it returns data, and whether the mirror had to repair it. -/
def readPair (mirrored mirrorRd badP badM : Bool) : Bool × Bool :=
  if mirrorRd then (!badM, false) else if !badP then (true, false) else if mirrored && !badM then (true, true) else (false, false)

/-- R125: reading the record of a slot. -/
def Dev.recRead (d : Dev) (ra : Nat) : Bool × Bool :=
  let s := d.slot ra
  readPair d.mirrored (d.mirrorRd (raStack ra)) s.badP s.badM

/-- R128: reading the tag block of a bucket. -/
def Dev.tagRead (d : Dev) (stack bucket : Nat) : Bool × Bool :=
  let b := SMap.get d.flw.tagBad (raddrOf stack bucket 0 / 8) (false, false)
  readPair d.mirrored (d.mirrorRd stack) b.1 b.2

/-- R617: whether a fault found at an address was injected. -/
def Dev.isInj (d : Dev) (k code a : Nat) : Bool := (d.err.get k).injd.contains (code, a)

/-- R617: a fault planted at an address. -/
def Dev.markInj (d : Dev) (k code a : Nat) : Dev :=
  { d with err := d.err.upd k (fun e => { e with injd := if e.injd.contains (code, a) then e.injd else e.injd ++ [(code, a)] }) }

/-- R617: what was planted at an address has gone: the place has been written. -/
def Dev.unmarkInj (d : Dev) (k code a : Nat) : Dev := { d with err := d.err.upd k (fun e => { e with injd := e.injd.filter (· != (code, a)) }) }

/-- The mark of a planted FLW_CHECK fault: of a record, or of its tag block. -/
def flwMark (ra typ : Nat) : Nat := if typ = 2 then 2 ^ 29 + ra / 8 else ra

/-- R616: a write of a slot; an armed FLW_CHECK injection at its RADDR makes the written CHECK bad, KIND 1 in every copy. -/
def Dev.slotWritten (d : Dev) (ra : Nat) : Dev :=
  let k := raDie ra
  if d.injArmed k 0x10 (raStack ra % 3) && d.injAddr k == ra then
    let two := d.get R.ERR_INJ [k] "KIND" == 1
    ((d.updSlot ra (fun s => { s with badP := true, badM := two })).injPlanted k).markInj k 0x10 (flwMark ra 1)
  else d.unmarkInj k 0x10 (flwMark ra 1)

/-- A write of a tag block in every copy leaves it good. -/
def Dev.healTag (d : Dev) (ra : Nat) : Dev :=
  { d with flw := { d.flw with tagBad := SMap.del d.flw.tagBad (ra / 8) } }.unmarkInj (raDie ra) 0x10 (flwMark ra 2)

/-- R128, R131: a write of a tag word writes its tag block anew in every copy, unless none of them can be read. -/
def Dev.tagWritten (d : Dev) (ra : Nat) : Dev := if (d.tagRead (raStack ra) (raBucket ra)).1 then d.healTag ra else d

/-- R613: whether an entry is remembered. -/
def Dev.remembered (d : Dev) (k ra typ : Nat) : Bool := (d.err.get k).rem.contains (ra, typ)

/-- R613: an entry is forgotten. -/
def Dev.forget (d : Dev) (k ra typ : Nat) : Dev :=
  let d := { d with err := d.err.upd k (fun e => { e with rem := e.rem.filter (fun x => x != (ra, typ)) }) }
  d.put R.FLW_DIV_STAT [k] "REMEMBERED" (d.err.get k).rem.length

/-- R125, R607, R613: a FLW_CHECK event: class 1 corrected, 2 contained; TYPE 1 record, 2 tag block. A failing read of a remembered entry
raises the event with its record withheld; one that matches none writes it, unless R610 withholds it, and is then remembered while space remains. -/
def Dev.flwCheck (d : Dev) (h ra typ cls : Nat) : Dev :=
  let k := raDie ra
  let r := if typ = 2 then ra / 8 * 8 else ra
  let hide := cls == 2 && d.remembered k r typ
  let wrote := !hide && !d.limited k 0x10
  let d := d.errEvent (mkEvent k 0x10 (raStack ra % 3) cls typ (leBytes 8 h ++ leBytes 4 r)) (d.isInj k 0x10 (flwMark ra typ)) noResp hide
  if cls = 2 && wrote && (d.err.get k).rem.length < 64 then
    let d := { d with err := d.err.upd k (fun e => { e with rem := e.rem ++ [(r, typ)] }) }
    d.put R.FLW_DIV_STAT [k] "REMEMBERED" (d.err.get k).rem.length
  else d

/-! ## Keys and hashing (R135, R136) -/

/-- The inputs of R135. -/
structure KeyIn where
  zone : Nat
  proto : Nat
  sa : Nat
  da : Nat
  sp : Nat
  dp : Nat
  deriving DecidableEq, Repr

/-- R135: the canonical key and the swap bit under key form f of word kf. -/
def canonKey (d : Dev) (k f : Nat) (i : KeyIn) : List Byte × Bool :=
  let on := fun n => d.bit R.FLW_KFORM [k, f] n
  let sa := if on "F_SADDR" then i.sa else 0
  let da := if on "F_SADDR" then i.da else 0
  let sp := if on "F_SPORT" then i.sp else 0
  let dp := if on "F_SPORT" then i.dp else 0
  let swap := decide (da < sa) || (da == sa && decide (dp < sp))
  let (sa, da, sp, dp) := if swap then (da, sa, dp, sp) else (sa, da, sp, dp)
  (leBytes 1 f ++ leBytes 2 (if on "F_ZONE" then i.zone else 0) ++ leBytes 1 (if on "F_PROTO" then i.proto else 0)
    ++ beBytes 2 sp ++ beBytes 2 dp ++ beBytes 16 sa ++ beBytes 16 da, swap)

/-- R136: H of a canonical key. -/
def Dev.hashKey (d : Dev) (k : Nat) (key : List Byte) : Nat := crc64 (d.getW R.FLW_SEED [k]) key

/-! ## Reads of a slot outside a lookup (R125, R128, R520) -/

/-- R128: the read of a slot's tag block: whether it passes in some copy, with the error that the read reports. -/
def Dev.tagUse (d : Dev) (ra : Nat) : Dev × Bool :=
  let t := d.tagRead (raStack ra) (raBucket ra)
  let h := d.hashKey (raDie ra) (d.slot ra).body.key
  if !t.1 then (d.flwCheck h ra 2 2, false) else (if t.2 then d.flwCheck h ra 2 1 else d, true)

/-- R125: the read of a slot's record: whether it passes in some copy, with the error that the read reports. -/
def Dev.bodyUse (d : Dev) (ra : Nat) : Dev × Bool :=
  let r := d.recRead ra
  let h := d.hashKey (raDie ra) (d.slot ra).body.key
  if !r.1 then (d.flwCheck h ra 1 2, false) else (if r.2 then d.flwCheck h ra 1 1 else d, true)

/-- R125, R128: the read of a slot, tag block first: whether both pass, with the errors that the reads report. -/
def Dev.recUse (d : Dev) (ra : Nat) : Dev × Bool := match d.tagUse ra with | (d, false) => (d, false) | (d, true) => d.bodyUse ra

/-! ## Lookup (R145, R146) -/

/-- What a lookup finds: a slot, no slot, or a record or tag block that fails in every copy. -/
inductive Found where
  | hit (ra : Nat)
  | miss
  | bad (ra typ : Nat)
  deriving DecidableEq, Repr

/-- R145: the slots of a candidate whose tag matches. -/
def tagMatches (d : Dev) (h f : Nat) (alt : Bool) : List Nat :=
  ((List.range 7).map (candSlot h alt)).filter (fun ra =>
    let s := d.slot ra
    s.st != .empty && s.form == f && s.ktag == ktagOf h alt)

/-- R145: the first matching slot that reads and holds the key. -/
def firstHit (d : Dev) (key : List Byte) : List Nat → Option Nat
  | [] => none
  | ra :: l => if (d.recRead ra).1 && (d.slot ra).body.key == key then some ra else firstHit d key l

/-- R145: the slot that a hint names, when it holds the key and both reads succeed. -/
def hintHit (d : Dev) (key : List Byte) (h : Nat) (hint : Option (Nat × Nat)) : Option Nat :=
  match hint with
  | none => none
  | some (alt, i) =>
    let c := if alt = 1 then candB h else candA h
    if (d.tagRead c.1 c.2).1 then firstHit d key ((tagMatches d h (byteAt key 0) (alt == 1)).filter (fun ra => raSlot ra == i)) else none

/-- R145, R146, R128: the lookup of a key with its hash and the slot its hint names. -/
def Dev.lookup (d : Dev) (key : List Byte) (h : Nat) (hint : Option (Nat × Nat)) : Found :=
  match hintHit d key h hint with
  | some ra => .hit ra
  | none =>
    let a := candA h
    let b := candB h
    if !(d.tagRead a.1 a.2).1 then .bad (raddrOf a.1 a.2 0) 2
    else if !(d.tagRead b.1 b.2).1 then .bad (raddrOf b.1 b.2 0) 2
    else
      let ms := tagMatches d h (byteAt key 0) false ++ tagMatches d h (byteAt key 0) true
      match firstHit d key ms with
      | some ra => .hit ra
      | none =>
        match ms.find? (fun ra => !(d.recRead ra).1) with
        | some ra => .bad ra 1
        | none => .miss

/-- R145: the matching slots that a lookup reads in turn, up to the one that holds the key. -/
def slotReads (d : Dev) (key : List Byte) : List Nat → List Nat
  | [] => []
  | ra :: l => ra :: (if (d.recRead ra).1 && (d.slot ra).body.key == key then [] else slotReads d key l)

/-- R145: what a lookup reads, as RADDR and 1 for a record, 2 for a tag block: of the bucket that its hint names, the tag block and the slot, unless
that is EMPTY; when it finds nothing there, both tag blocks and the matching slots. -/
def Dev.lookupReads (d : Dev) (key : List Byte) (h : Nat) (hint : Option (Nat × Nat)) : List (Nat × Nat) :=
  let hinted := match hint with
    | none => []
    | some (alt, i) =>
      let ra := candSlot h (alt == 1) i
      (candSlot h (alt == 1) 0, 2) :: (if (d.slot ra).st == .empty || !(d.tagRead (raStack ra) (raBucket ra)).1 then [] else [(ra, 1)])
  if (hintHit d key h hint).isSome then hinted else
  let a := candA h
  let b := candB h
  let ms := if (d.tagRead a.1 a.2).1 && (d.tagRead b.1 b.2).1
    then slotReads d key (tagMatches d h (byteAt key 0) false ++ tagMatches d h (byteAt key 0) true) else []
  (hinted ++ [(candSlot h false 0, 2), (candSlot h true 0, 2)] ++ ms.map (fun ra => (ra, 1))).eraseDups

/-- R125, R128: the error that one read of a record or tag block reports. -/
def Dev.readCheck (h : Nat) (d : Dev) (x : Nat × Nat) : Dev :=
  let r := if x.2 = 2 then d.tagRead (raStack x.1) (raBucket x.1) else d.recRead x.1
  if !r.1 then d.flwCheck h x.1 x.2 2 else if r.2 then d.flwCheck h x.1 x.2 1 else d

/-- R125, R128: the errors that the reads of a lookup report: the tag blocks and records that the mirror copy repaired, and those that no copy gives,
whether the lookup returns them or not. -/
def Dev.lookupFix (d : Dev) (key : List Byte) (h : Nat) (hint : Option (Nat × Nat)) : Dev := (d.lookupReads key h hint).foldl (Dev.readCheck h) d

/-! ## Placement and slots (R131, R148–R151) -/

/-- R150: the EMPTY slots of a candidate; none on a stack out of insertion service or behind a failed tag block. -/
def emptySlots (d : Dev) (h : Nat) (alt : Bool) : List Nat :=
  let c := if alt then candB h else candA h
  if hasBit (d.get R.FLW_STACK_OOS [c.1 / 3] "OOS") (c.1 % 3) || !(d.tagRead c.1 c.2).1 then []
  else ((List.range 7).map (candSlot h alt)).filter (fun ra => (d.slot ra).st == .empty)

/-- R150: the slot an insertion takes and whether it lies in bucket B. -/
def Dev.choose (d : Dev) (h : Nat) : Option (Nat × Bool) :=
  let a := emptySlots d h false
  let b := emptySlots d h true
  if a.isEmpty && b.isEmpty then none
  else if b.length ≤ a.length then a.head?.map (fun ra => (ra, false))
  else b.head?.map (fun ra => (ra, true))

/-- R131, R148, R149: a slot written and its tag with it, in every copy, and FLW_COUNT raised. -/
def Dev.occupy (d : Dev) (ra : Nat) (h : Nat) (alt : Bool) (st : TagState) (r : Rec) : Dev :=
  let s := d.slot ra
  let d := d.setSlot ra ⟨st, alt, ktagOf h alt, byteAt r.key 0, r, false, false, s.gen + 1⟩
  let d := (d.slotWritten ra).tagWritten ra
  d.bump R.FLW_COUNT [raDie ra] "COUNT" 1

/-! ## Export items (R337–R339) -/

/-- The sections of the active forme: the body of a section type. -/
def Dev.body (d : Dev) (typ : Nat) : Option (List Byte) := (d.glb.active.find? (·.typ == typ)).map (·.body)

/-- R308: the 32 bytes of an action entry of a die. -/
def Dev.actEnt (d : Dev) (k i : Nat) : List Byte := SMap.get d.act.ent (k * 2 ^ 18 + i % 2 ^ 18) (List.replicate 32 0#8)

/-- R501: the stack and stack address of an engine address of a die; none outside its engine area. -/
def Dev.eaMap (d : Dev) (k ea : Nat) : Option (Nat × Nat) :=
  if ea < 0x300000000 then
    let n := ea / 4096
    some (3 * k + n % 3, 0x300000000 + 4096 * (n / 3) + ea % 4096)
  else if !d.mirrored && ea < 0x600000000 then
    let n := (ea - 0x300000000) / 4096
    some (3 * k + n % 3, 0x100000000 + 4096 * (n / 3) + ea % 4096)
  else none

/-- What a byte of HBM reads as before anything has written it. DESIGN CHOICE: the spec gives no power-on contents. -/
def hbmBlank : Byte := 0#8

/-- One byte of an engine area. -/
def Dev.eaByte (d : Dev) (k ea : Nat) : Byte :=
  match d.eaMap k ea with
  | some (s, sa) => SMap.get d.hbm.mem (s * 2 ^ 34 + sa) hbmBlank
  | none => hbmBlank

/-- One byte of an engine area written. -/
def Dev.eaPut (d : Dev) (k ea : Nat) (b : Byte) : Dev :=
  match d.eaMap k ea with
  | some (s, sa) => { d with hbm := { d.hbm with mem := SMap.set d.hbm.mem (s * 2 ^ 34 + sa) b hbmBlank } }
  | none => d

/-- n bytes of an engine area. -/
def Dev.eaRead (d : Dev) (k ea n : Nat) : List Byte := (List.range n).map (fun i => d.eaByte k (ea + i))

/-- Bytes of an engine area written. -/
def Dev.eaWrite (d : Dev) (k : Nat) : Nat → List Byte → Dev
  | _, [] => d
  | ea, b :: bs => Dev.eaWrite (d.eaPut k ea b) k (ea + 1) bs

/-- R335: QLOG2 of the active TELEM section; none without one. -/
def Dev.expLog2 (d : Dev) : Option Nat := (d.body 0x0F).map (fun b => byteAt b 8)

/-- R338: the export queue of a die holds no further item. -/
def Dev.expFull (d : Dev) (k : Nat) : Bool :=
  match d.expLog2 with
  | some q => (d.get R.EXP_TAIL [k] "TAIL" + 1) % 2 ^ q == d.get R.EXP_HEAD [k] "HEAD" % 2 ^ q
  | none => false

/-- R407: the condition of an event line of a die becomes true: a rising edge on its way to the bound slot. -/
def Dev.lineEdge (d : Dev) (k n : Nat) : Dev := { d with tsk := { d.tsk with edges := d.tsk.edges.upd k (· ++ [n]) } }

/-- R338, R407: items in the export queue of a die of 2^q places. -/
def Dev.expUsed (d : Dev) (k q : Nat) : Nat := (d.get R.EXP_TAIL [k] "TAIL" + 2 ^ q - d.get R.EXP_HEAD [k] "HEAD" % 2 ^ q) % 2 ^ q

/-- R407: the edges of lines 8 and 9 that an item brings: the queue was empty, or reaches half full. -/
def Dev.expEdges (d : Dev) (k q before : Nat) : Dev :=
  let d := if before = 0 then d.lineEdge k 8 else d
  if before + 1 = 2 ^ (q - 1) then d.lineEdge k 9 else d

/-- R338: the record's action exports it. -/
def Dev.exports (d : Dev) (k : Nat) (r : Rec) : Bool :=
  d.expLog2.isSome && decide (r.action < 2 ^ 18) && hasBit (byteAt (d.actEnt k r.action) 1) 6

/-- R337, R339: an item of a record for a reason, with the 64 bytes of its slot, written at the tail of the die's queue; lost and counted while the
queue is full. -/
def Dev.expItemOf (d : Dev) (k reason : Nat) (r : Rec) (bs : List Byte) : Dev :=
  match d.expLog2 with
  | none => d
  | some q =>
    if !d.exports k r then d
    else if d.expFull k then d.bump R.EXP_LOST [k] "COUNT" 1
    else
      let t := d.get R.EXP_TAIL [k] "TAIL"
      let p := d.now k
      let item := leBytes 1 reason ++ leBytes 1 (bitsOf (byteAt (d.actEnt k r.action) 7) 4 2) ++ leBytes 2 0
        ++ leBytes 4 (pNs p) ++ leBytes 8 (pSec p) ++ bs
      ((d.eaWrite k (80 * t) item).put R.EXP_TAIL [k] "TAIL" ((t + 1) % 2 ^ q)).expEdges k q (d.expUsed k q)

/-- R337: an item of a record that is sound. -/
def Dev.expItem (d : Dev) (k reason : Nat) (r : Rec) : Dev := d.expItemOf k reason r r.bytes

/-- The 64 bytes of a slot as a read returns them: CHECK of one that fails in every copy is a free value. DESIGN CHOICE, log 143. -/
def Dev.slotRaw (d : Dev) (ra : Nat) : List Byte × Dev :=
  let r := (d.slot ra).body
  if (d.recRead ra).1 then (r.bytes, d) else let (c, d) := d.fresh (2 ^ 16); (r.bytes62 ++ leBytes 2 c, d)

/-! ## Deletion (R155) -/

/-- R337: the reasons of a flow end. -/
def rAged : Nat := 1
/-- R337. -/
def rTcpClose : Nat := 3
/-- R337. -/
def rHost : Nat := 4
/-- R337. -/
def rEngine : Nat := 5

/-- R155, R614: a record deleted: its tag EMPTY in every copy, FLW_COUNT lowered, its flow-end event issued with the slot as it stood. -/
def Dev.deleteRec (d : Dev) (ra reason : Nat) : Dev :=
  let s := d.slot ra
  let k := raDie ra
  let (bs, d) := d.slotRaw ra
  let d := (d.setSlot ra { s with st := .empty, gen := s.gen + 1 }).tagWritten ra
  let d := d.put R.FLW_COUNT [k] "COUNT" (d.get R.FLW_COUNT [k] "COUNT" - 1)
  let d := if reason = rAged then d.bump R.FLW_AGED_CNT [k] "COUNT" 1 else d.bump R.FLW_DEL_CNT [k] "COUNT" 1
  d.expItemOf k reason s.body bs

/-! ## Quoins as other agents see them -/

/-- R228: an engine's epoch. -/
def Dev.epoch (d : Dev) (e : Nat) : Nat := d.get R.FLW_QN_EPOCH [e / 48, e % 48] "EPOCH"

/-- R229, R231: a quoin is stale when its owner is an engine of another epoch. -/
def Dev.stale (d : Dev) (q : Quoin) : Bool := q.owner != 0x7F && q.epoch != d.epoch q.owner

/-- The quoin on a record, stale or not. -/
def Dev.quoin (d : Dev) (ra : Nat) : Option Quoin := SMap.look d.flw.quoins ra

/-- R225, R226: a record is held by a quoin that is not stale. -/
def Dev.heldBy (d : Dev) (ra : Nat) : Bool := match d.quoin ra with | some q => !d.stale q | none => false

/-! ## The atomic update unit (R208–R210) -/

/-- An operation joins the queue of its record (R210). -/
def Dev.auuIssue (d : Dev) (ra : Nat) (k : AuuKind) : Dev := { d with flw := { d.flw with auuq := d.flw.auuq ++ [⟨ra, k⟩] } }

/-- The oldest operation of a record and the queue without it. -/
def auuPop (ra : Nat) : List AuuOp → Option (AuuOp × List AuuOp)
  | [] => none
  | o :: l => if o.raddr = ra then some (o, l) else (auuPop ra l).map (fun x => (x.1, o :: x.2))

/-- The oldest operation of a record that may go, and the queue without it. -/
def auuPopIf (ra : Nat) (may : AuuKind → Bool) : List AuuOp → Option (AuuOp × List AuuOp)
  | [] => none
  | o :: l => if o.raddr = ra && may o.kind then some (o, l) else (auuPopIf ra may l).map (fun x => (x.1, o :: x.2))

/-- R161, R165: the oldest write-back of a record, ahead of the sweeper's compares that wait, and the queue without it. -/
def auuPopWb (ra : Nat) : List AuuOp → Option (AuuOp × List AuuOp)
  | [] => none
  | o :: l =>
    if o.raddr != ra then (auuPopWb ra l).map (fun x => (x.1, o :: x.2))
    else match o.kind with
      | .wb _ => some (o, l)
      | .cset | .cdel => (auuPopWb ra l).map (fun x => (x.1, o :: x.2))
      | _ => none

/-- R520: a slot whose tag block and record pass in some copy. An operation is not applied to any other. -/
def Dev.auuReadable (d : Dev) (ra : Nat) : Bool := (d.tagRead (raStack ra) (raBucket ra)).1 && (d.recRead ra).1

/-- R124, R520: an update writes the record to both copies and leaves them good. -/
def Dev.auuStore (d : Dev) (ra : Nat) (r : Rec) : Dev :=
  (d.updSlot ra (fun s => { s with body := r, badP := false, badM := false })).slotWritten ra

/-- R126, R160, R318: the record after a packet write-back, and whether the TCP transition found another starting state. -/
def wbRecord (r : Rec) (w : Wb) (tick : Nat) : Rec × Bool :=
  let age := withBit (withBit r.age (if w.initiator then aHitI else aHitR) true) aClr false
  let r' := { r with pkts := (r.pkts + 1) % 2 ^ 40, octets := (r.octets + w.len) % 2 ^ 48, last := tick, age := age }
  match w.tcp with
  | none => (r', false)
  | some (a, b) => if r.tcpst = a then ({ r' with tcpst := b }, false) else (r', true)

/-- R125, R128, R157, R208: a packet write-back; it rewrites both copies of the record, and of a tag block that only one copy gave. -/
def Dev.auuWb (d : Dev) (ra : Nat) (w : Wb) : Dev :=
  let s := d.slot ra
  let k := raDie ra
  let same := s.st == .valid && s.gen == w.gen && s.ktag == w.ktag && s.form == w.form
  match if same then d.recUse ra else d.tagUse ra with
  | (d, false) => d
  | (d, true) =>
    if !same then d.bump R.FLW_LATE_UPD [k] "COUNT" 1 else
    let (r, race) := wbRecord s.body w (d.tick k)
    let d := (d.auuStore ra r).tagWritten ra
    let d := if race then d.bump R.ACT_TCP_RACE [k] "COUNT" 1 else d
    if r.tcpst = 7 && s.body.tcpst != 7 && hasBit (byteAt (d.actEnt k r.action) 1) 7 then d.expItem k rTcpClose r else d

/-- R208: signed deltas added to PKTS and OCTETS. -/
def recAdd (r : Rec) (dp doct : Nat) : Rec := { r with pkts := (r.pkts + dp) % 2 ^ 40, octets := (r.octets + doct) % 2 ^ 48 }

/-- R216: the record with the control fields of bytes 40 to 61 that a mask selects; bits outside the control fields of R207 have no effect. -/
def recControl (r : Rec) (mask : Nat) (bs : List Byte) : Rec :=
  let pick := fun i old => if hasBit mask i then byteAt bs i else old
  let act := pick 0 (r.action % 256) + 256 * pick 1 (r.action / 256 % 256) + 65536 * pick 2 (r.action / 65536)
  let age := if hasBit mask 19 then withBit r.age aNoage (hasBit (byteAt bs 19) aNoage) else r.age
  { r with action := act, tcpst := pick 18 r.tcpst, age := age, aux := pick 20 (r.aux % 256) + 256 * pick 21 (r.aux / 256) }

/-- R164: the idle ceiling that a sweep visit applies to LAST. -/
def saturateIdle (r : Rec) (tick : Nat) : Rec :=
  if (tick + 2 ^ 24 - r.last % 2 ^ 24) % 2 ^ 24 ≥ 2 ^ 23 then { r with last := (tick + 2 ^ 24 - 2 ^ 23) % 2 ^ 24 } else r

/-- Whether a record carries a hit mark. -/
def Rec.hit (r : Rec) : Bool := hasBit r.age aHitI || hasBit r.age aHitR

/-- R159, R225: compare-and-set of CLR. -/
def Dev.auuCset (d : Dev) (ra : Nat) : Dev :=
  let s := d.slot ra
  match d.recUse ra with
  | (d, ok) =>
    if ok && s.st == .valid && !d.heldBy ra && !s.body.hit then d.auuStore ra { s.body with age := withBit s.body.age aClr true } else d

/-- R339: background work that would write an item stops while the export queue is full; the stalled time is a free value. -/
def Dev.expStall (d : Dev) (k : Nat) : Dev := let (n, d) := d.fresh (2 ^ 16); d.bump R.EXP_STALL [k] "COUNT" n

/-- R339: the sweeper's deletion of a record would write an item that the export queue cannot take. -/
def Dev.cdelStalls (d : Dev) (ra : Nat) : Bool :=
  let s := d.slot ra
  s.st == .valid && !d.heldBy ra && !s.body.hit && d.expFull (raDie ra) && d.exports (raDie ra) s.body

/-- R159, R225: compare-and-delete. -/
def Dev.auuCdel (d : Dev) (ra : Nat) : Dev :=
  let s := d.slot ra
  match d.recUse ra with
  | (d, ok) =>
    if ok && s.st == .valid && !d.heldBy ra && !s.body.hit && !s.body.diverted && !hasBit s.body.age aNoage then d.deleteRec ra rAged else d

/-- R208, R520: one FLAGS bit set or cleared in every copy of a slot that is not EMPTY. -/
def Dev.auuFlag (d : Dev) (ra bit : Nat) (v : Bool) : Dev :=
  let s := d.slot ra
  match if s.st = .empty then ((d.tagUse ra).1, false) else d.recUse ra with
  | (d, ok) => if ok then d.auuStore ra { s.body with flags := withBit s.body.flags bit v } else d

end Sys2Proof.Machine
end

