-- ==== Sys2Proof/Machine/Parse.lean ====
section
/-! DEFINITION. The parse graph (R240–R248) and the malformed-packet checks (R264) as the PARSE section of the active forme gives them. -/

namespace Sys2Proof.Machine

/-- What the parser has gathered after the headers visited so far. -/
structure ParseSt where
  off : Nat
  visits : Nat
  vlan : Nat
  mpls : Nat
  tun : Nat
  ext : Nat
  hv : List Byte
  /-- The VID of the first VLAN tag after the outermost Ethernet header. -/
  vid : Option Nat
  /-- KF bytes of SETKF states, in visit order. -/
  kf : List Nat
  /-- The last KEYSRC IP header and the last KEYSRC L4 header after it. -/
  ip : Option (Nat × Bool)
  l4 : Option Nat
  proto : Nat
  frag : Bool
  /-- The next-header value of the IPv6 chain so far, and where the IP payload ends. -/
  nh : Nat
  ipEnd : Nat
  /-- The last IP header was the KEYSRC one, and IPv6: its extension headers give the protocol and the fragment mark. -/
  keyIp : Bool
  /-- R264: the IPv6 chain so far has a fragment header of offset 0. -/
  ff : Bool
  malf : Nat
  malfOff : Nat
  deriving DecidableEq, Repr

/-- R241: the state record of an ID: 16 bytes. -/
def stateRec (b : List Byte) (id : Nat) : Option (List Byte) :=
  ((List.range (byteAt b 0)).map (fun i => sliceB b (16 + 16 * i) 16)).find? (fun r => byteAt r 0 == id)

/-- R242: the length of a header at an offset. -/
def headerLen (r fr : List Byte) (off : Nat) : Nat :=
  if byteAt r 7 = 0 then leAt r 4 2
  else
    let b := byteAt fr (off + byteAt r 6)
    ((Nat.land b (byteAt r 7)) >>> (byteAt r 8 % 16)) <<< (byteAt r 8 / 16) + leAt r 4 2

/-- R243: the transition of a state that its selector takes: none where none matches. -/
def transition (b r : List Byte) (sel : Nat) : Option Nat :=
  let base := 16 + 16 * byteAt b 0
  let first := bitsOf (leAt r 14 2) 9 0
  ((List.range (bitsOf (leAt r 14 2) 15 10)).map (fun i => sliceB b (base + 8 * (first + i)) 8)).find?
    (fun t => Nat.land sel (leAt t 2 2) == leAt t 0 2) |>.map (fun t => byteAt t 4)

/-- The number of transitions of a state. -/
def transCount (r : List Byte) : Nat := bitsOf (leAt r 14 2) 15 10

/-- R264: whether an IPv4 header with its options sums to the value of a good check sum. -/
def ip4Good (fr : List Byte) (off len : Nat) : Bool := fold16 (sum16 (sliceB fr off len)) == 65535

/-- R264: the extension header at hand is a fragment header of offset 0. -/
def firstFrag (fr : List Byte) (p : ParseSt) : Bool := p.nh == 44 && beAt fr (p.off + 2) 2 / 8 == 0

/-- R264: the causes that hold at one header, lowest first. `nxt` is its transition, where it has any; it was read with zeros for bytes past the frame's
end: DESIGN CHOICE, log 131. -/
def headerCauses (depth flen : Nat) (fr r : List Byte) (p : ParseSt) (len : Nat) (nxt : Option Nat) : List Nat :=
  let kind := byteAt r 1
  let o := p.off
  let at_ := fun i => byteAt fr (o + i)
  let tot := beAt fr (o + 2) 2
  let fo := beAt fr (o + 6) 2
  let l4short := fun rest => decide (rest < 4)
  [ (1, decide (o + len > depth)),
    (2, decide (p.visits + 1 > 32)),
    (3, decide (transCount r > 0) && nxt.isNone),
    (4, decide (o + len > flen)),
    (5, kind == 2 && decide (p.vlan + 1 > 4)),
    (6, kind == 3 && decide (p.mpls + 1 > 8)),
    (7, hasBit (byteAt r 2) 2 && decide (p.tun + 1 > 2)),
    (8, decide (len < byteAt r 9)),
    (9, (kind == 4 && at_ 0 / 16 != 4) || (kind == 5 && at_ 0 / 16 != 6)),
    (10, kind == 4 && !ip4Good fr o len),
    (11, kind == 4 && (decide (tot < len) || decide (o + tot > flen))),
    (12, kind == 5 && decide (o + 40 + beAt fr (o + 4) 2 > flen)),
    (13, kind == 6 && decide (p.ext + 1 > 8)),
    (14, (kind == 4 && (fo % 8192 == 1 || (fo % 8192 == 0 && fo / 8192 % 2 == 1 && [6, 17].contains (at_ 9) && l4short (tot - len))))
      || (kind == 6 && (p.ff || firstFrag fr p) && [6, 17].contains (at_ 0) && l4short (p.ipEnd - (o + len)))),
    (15, kind == 7 && (let f := at_ 13; (hasBit f 1 && (hasBit f 0 || hasBit f 2)) || f == 0)),
    (16, kind == 8 && (decide (beAt fr (o + 4) 2 < 8) || decide (o + beAt fr (o + 4) 2 > p.ipEnd))),
    (17, kind == 1 && hasBit (at_ 6) 0),
    (18, (kind == 4 && (at_ 12 / 16 == 14 || beAt fr (o + 12) 4 == 0xFFFFFFFF)) || (kind == 5 && at_ 8 == 0xFF)),
    (19, kind == 9 && !hasBit (at_ 0) 3),
    (20, kind == 10 && at_ 1 % 8 != 0) ].filterMap (fun c => if c.2 then some c.1 else none)

/-- R237, R241–R246: the parser's account after one good header of length len. The VID is that of the first tag at tunnel level 0, whether or not an
Ethernet header came before: DESIGN CHOICE, log 131. -/
def headerTake (fr r : List Byte) (p : ParseSt) (len : Nat) : ParseSt :=
  let kind := byteAt r 1
  let o := p.off
  let flags := byteAt r 2
  let key := hasBit flags 0
  let hv := patch p.hv (leAt r 10 2) (sliceB fr o (byteAt r 12))
  let ff := p.ff || firstFrag fr p
  let p := { p with off := o + len, visits := p.visits + 1, hv := hv, kf := if hasBit flags 1 then p.kf ++ [byteAt r 3] else p.kf }
  let p := if kind = 1 then { p with vlan := 0 }
    else if kind = 2 then { p with vlan := p.vlan + 1, vid := if p.vid.isNone && p.tun == 0 then some (beAt fr o 2 % 4096) else p.vid }
    else p
  let p := if kind = 3 then { p with mpls := p.mpls + 1 } else { p with mpls := 0 }
  let p := if kind = 4 then
      let fo := beAt fr (o + 6) 2
      let fragged := fo / 8192 % 2 == 1 || fo % 8192 != 0
      let p := { p with ipEnd := o + beAt fr (o + 2) 2, keyIp := false, nh := 0, ff := false }
      if key then { p with ip := some (o, false), l4 := none, proto := byteAt fr (o + 9), frag := fragged } else p
    else if kind = 5 then
      let p := { p with ipEnd := o + 40 + beAt fr (o + 4) 2, keyIp := key, nh := byteAt fr (o + 6), ext := 0, ff := false }
      if key then { p with ip := some (o, true), l4 := none, proto := byteAt fr (o + 6), frag := false } else p
    else if kind = 6 then
      let p' := { p with ext := p.ext + 1, nh := byteAt fr o, ff := ff }
      if p.keyIp then { p' with proto := byteAt fr o, frag := p.frag || p.nh == 44 } else p'
    else p
  let p := if (kind = 7 || kind = 8) && key && p.ip.isSome then { p with l4 := some o } else p
  if hasBit flags 2 then { p with tun := p.tun + 1, vlan := 0, mpls := 0, ext := 0 } else p

/-- R241–R248: the walk of the parse graph from a state; `fuel` bounds the visits, which R246 limits to 32. A START with no state in the active forme, the
register's reset value among them, ends the walk before its first header, with no cause: DESIGN CHOICE, log 148. -/
def parseWalk (b fr : List Byte) (depth flen : Nat) : Nat → Nat → ParseSt → ParseSt
  | 0, _, p => { p with malf := 2, malfOff := p.off }
  | fuel + 1, id, p =>
    match stateRec b id with
    | none => p
    | some r =>
      let len := headerLen r fr p.off
      let nxt := transition b r (beAt fr (p.off + byteAt r 13) 2)
      match headerCauses depth flen fr r p len nxt with
      | c :: _ => { p with malf := c, malfOff := p.off }
      | [] =>
        let p := headerTake fr r p len
        match nxt with
        | none => p
        | some n => if n = 0xFF then p else parseWalk b fr depth flen fuel n p

/-- The parser before its first header. -/
def ParseSt.start : ParseSt :=
  ⟨0, 0, 0, 0, 0, 0, List.replicate 512 0#8, none, [], none, none, 0, false, 0, 0, false, false, 0, 0⟩

/-- R240–R248: the parse of a frame, FCS excluded, from a state of the active PARSE section; without a section no header is consumed. -/
def Dev.parse (d : Dev) (fr : List Byte) (start : Nat) : ParseSt :=
  match d.body 0x01 with
  | none => ParseSt.start
  | some b =>
    let flen := fr.length
    parseWalk b fr (leAt b 4 2) flen 33 start { ParseSt.start with ipEnd := flen }

/-- R245: the ports of the key. -/
def ParseSt.ports (p : ParseSt) (fr : List Byte) : Nat × Nat :=
  match p.ip, p.l4 with
  | some (_, v6), some o =>
    if p.frag || (!v6 && !([6, 17].contains p.proto)) then (0, 0) else (beAt fr o 2, beAt fr (o + 2) 2)
  | _, _ => (0, 0)

/-- R135, R245: the key inputs of a parsed packet with its final zone. -/
def ParseSt.keyIn (p : ParseSt) (fr : List Byte) (zone : Nat) : KeyIn :=
  let (sp, dp) := p.ports fr
  match p.ip with
  | none => ⟨zone, 0, 0, 0, sp, dp⟩
  | some (o, false) => ⟨zone, p.proto, beAt fr (o + 12) 4, beAt fr (o + 16) 4, sp, dp⟩
  | some (o, true) => ⟨zone, p.proto, beAt fr (o + 8) 16, beAt fr (o + 24) 16, sp, dp⟩

end Sys2Proof.Machine
end

