-- ==== Sys2Proof/Machine/Match.lean ====
section
/-! DEFINITION. The match memories (chapter 8): TCAM, exact, direct and L2 tables, their searches and their host commands. -/

namespace Sys2Proof.Machine

/-! ## Descriptors -/

/-- R253: the table descriptors of the active TABLES section, 32 bytes each. -/
def Dev.descs (d : Dev) : List (List Byte) :=
  match d.body 0x02 with
  | none => []
  | some b => (List.range (byteAt b 0)).map (fun i => sliceB b (4 + 32 * i) 32)

/-- R253: SLOT of a descriptor. -/
def dSlot (t : List Byte) : Nat := byteAt t 0
/-- R253: TYPE. -/
def dType (t : List Byte) : Nat := byteAt t 1
/-- R249: PRE. -/
def dPre (t : List Byte) : Bool := hasBit (byteAt t 2) 0
/-- R257: HIDX. -/
def dHidx (t : List Byte) : Bool := hasBit (byteAt t 2) 1
/-- R253: SIZE. -/
def dSize (t : List Byte) : Nat := byteAt t 3
/-- R253: ID. -/
def dId (t : List Byte) : Nat := leAt t 8 2
/-- R253: RDST. -/
def dRdst (t : List Byte) : Nat := byteAt t 10
/-- R253: RLEN. -/
def dRlen (t : List Byte) : Nat := byteAt t 11
/-- R253: the four key segments: source and length. -/
def dSegs (t : List Byte) : List (Nat × Nat) :=
  (List.range 4).map (fun i => (leAt t (12 + 4 * i) 2 % 1024, byteAt t (14 + 4 * i)))

/-- The descriptors of a pass (0 or 1), in slot order. -/
def Dev.passDescs (d : Dev) (pass : Nat) : List (List Byte) :=
  (span (12 * pass) (12 * pass + 11)).filterMap (fun s => d.descs.find? (fun t => dSlot t == s))

/-- R254: the key bytes of a table: its segments of header vector and metadata, joined in order. -/
def segKey (hv md : List Byte) (t : List Byte) : List Byte :=
  (dSegs t).flatMap (fun s => sliceB (sliceB hv 0 512 ++ sliceB md 0 32) s.1 s.2)

/-- R239, R254, R250: result bytes written to metadata; byte 3 keeps its bits [7:4], and bytes 19 to 23, which nothing writes, stay 0. -/
def mdWrite (md : List Byte) (dst : Nat) (bs : List Byte) : List Byte :=
  let old := byteAt md 3
  let md' := patch md dst bs
  let md' := if dst < 24 && decide (19 < dst + bs.length) then patch md' 19 (leBytes 5 0) else md'
  if dst ≤ 3 && decide (3 < dst + bs.length) then patch md' 3 [BitVec.ofNat 8 (old / 16 * 16 + byteAt md' 3 % 16)] else md'

/-- R239: PROF of metadata. -/
def mdProf (md : List Byte) : Nat := bitsOf (byteAt md 7) 6 3

/-! ## TCAM (R268–R272) -/

/-- The key of a TCAM entry in the store: region, profile, index. -/
def tKey (g prof i : Nat) : Nat := (g * 16 + prof) * 2 ^ 15 + i

/-- R268: the join size of a profile. -/
def Dev.tWidth (d : Dev) (g prof : Nat) : Nat := 2 ^ d.get R.MAT_TPROF [g / 2, g % 2, prof] "WIDTH"

/-- The member blocks of a profile, lowest first. -/
def Dev.tBlocks (d : Dev) (g prof : Nat) : List Nat :=
  (List.range 16).filter (fun b => hasBit (d.get R.MAT_TPROF [g / 2, g % 2, prof] "BLOCKS") b)

/-- R271: the number of entries of a profile; 0 when it is not defined. -/
def Dev.tSize (d : Dev) (g prof : Nat) : Nat :=
  if d.bit R.MAT_TPROF [g / 2, g % 2, prof] "EN" then 2048 * ((d.tBlocks g prof).length / d.tWidth g prof) else 0

/-- The global mask of a profile. -/
def Dev.tGmask (d : Dev) (g prof : Nat) : Nat :=
  ((List.range 20).map (fun w => d.getW R.MAT_TPROF_GMASK [g / 2, g % 2, prof, w] * 2 ^ (32 * w))).sum

/-- R272: an entry matches a masked key. -/
def TEnt.matches (e : TEnt) (key : Nat) : Bool := e.valid && Nat.land (Nat.xor e.val key) e.mask == 0

/-- R273: the parts of side data. -/
def sideCntEn (s : Nat) : Bool := hasBit s 20
/-- R273. -/
def sidePri (s : Nat) : Nat := bitsOf s 19 16
/-- R273. -/
def sideIdx (s : Nat) : Nat := bitsOf s 15 0

/-- R272: the winner among entries in index order: lowest PRI, then lowest index. -/
def tBest : List (Nat × TEnt) → Option (Nat × TEnt)
  | [] => none
  | e :: l => match tBest l with
    | none => some e
    | some f => if sidePri f.2.side < sidePri e.2.side then some f else some e

/-- R270, R272: the search of a profile with a key: the winner's place in the store and the winner. -/
def Dev.tSearch (d : Dev) (g prof key : Nat) : Option (Nat × TEnt) :=
  let k := Nat.land key (d.tGmask g prof)
  tBest (d.mat.tcam.filter (fun x => decide (x.1 / 2 ^ 15 = g * 16 + prof) && x.2.matches k))

/-- R271: block j and the row of entry i of a profile. -/
def Dev.tRow (d : Dev) (g prof i j : Nat) : Nat × Nat := ((d.tBlocks g prof).getD (i / 2048 * d.tWidth g prof + j) 0, i % 2048)

/-- R283: the mark of row r of block b of a region. -/
def rowKey (g b r : Nat) : Nat := (g * 16 + b) * 2048 + r

/-- R283: the rows of an entry whose shadow fails. -/
def Dev.tShadowBad (d : Dev) (g prof i : Nat) : Bool :=
  (List.range (d.tWidth g prof)).any (fun j => let x := d.tRow g prof i j; d.mat.bad.contains (0x22, rowKey g x.1 x.2))

/-! ### SECDED (R275, R602, R616) -/

/-- A word of a match memory with a double-bit error. -/
def Dev.markBad (d : Dev) (code a : Nat) : Dev := { d with mat := { d.mat with bad := if d.mat.bad.contains (code, a) then d.mat.bad else d.mat.bad ++ [(code, a)] } }

/-- R275, R617: words written again hold no error, injected or not. -/
def Dev.mend (d : Dev) (code first n : Nat) : Dev :=
  let keep := fun (x : Nat × Nat) => !(x.1 == code && decide (first ≤ x.2) && decide (x.2 < first + n))
  let rest := fun (e : ErrS) => { e with injd := e.injd.filter keep }
  { d with mat := { d.mat with bad := d.mat.bad.filter keep }, err := (d.err.upd 0 rest).upd 1 rest }

/-- R275, R602: an access of n words of a source's instance from an address on, its marks at key and above. An injection armed at one of them is planted by
it: one bit is corrected and reported as class C. The words with a double-bit error are answered, counted from the first. -/
def Dev.eccRead (d : Dev) (k code inst first n key : Nat) : Dev × List Nat :=
  let a := d.injAddr k
  let d :=
    if d.injArmed k code inst && decide (first ≤ a) && decide (a < first + n) then
      if d.get R.ERR_INJ [k] "KIND" = 0 then (d.injPlanted k).errEvent (mkEvent k code inst 1 1 (leBytes 4 a ++ leBytes 1 inst)) true
      else ((d.injPlanted k).markBad code (key + (a - first))).markInj k code (key + (a - first))
    else d
  (d, (List.range n).filter (fun i => d.mat.bad.contains (code, key + i)))

/-- R602: the mark of a word of instance 0 to 17 of a region's match memories. -/
def matWord (g inst a : Nat) : Nat := (g * 32 + inst) * 2 ^ 20 + a

/-- R275: an access of n words of a region's match memory: the addresses of those with a double-bit error. -/
def Dev.matRead (d : Dev) (g inst first n : Nat) : Dev × List Nat :=
  let x := d.eccRead (g / 2) 0x20 inst first n (matWord g inst first)
  (x.1, x.2.map (first + ·))

/-- R275: words of a region's match memory written. -/
def Dev.matMend (d : Dev) (g inst first n : Nat) : Dev := d.mend 0x20 (matWord g inst first) n

/-- R275: a double-bit error found in a word during a search, reported as class K. -/
def Dev.matEcc (d : Dev) (g inst addr : Nat) : Dev :=
  d.errEvent (mkEvent (g / 2) 0x20 inst 2 1 (leBytes 4 addr ++ leBytes 1 inst)) (d.isInj (g / 2) 0x20 (matWord g inst addr))

/-- R275: the result word of a TCAM entry, in the lowest block of its group: DESIGN CHOICE, log entry 123. -/
def Dev.tResult (d : Dev) (g prof i : Nat) : Nat × Nat := d.tRow g prof i 0

/-! ## Exact and direct tables (R285–R288, R710) -/

/-- R287: CRC-32C as the tables use it: fed most significant bit first. -/
def crc32cT (seed : Nat) (k : List Byte) : Nat := crcMsb 32 0x1EDC6F41 seed k

/-- R285: the record of a table of the active EXACT section. -/
def Dev.xRec (d : Dev) (id : Nat) : Option (List Byte) :=
  match d.body 0x04 with
  | none => none
  | some b => ((List.range (byteAt b 0)).map (fun i => sliceB b (4 + 16 * i) 16)).find? (fun r => byteAt r 0 == id)

/-- R286: the buckets of each half of an exact table. -/
def xBuckets (r : List Byte) : Nat := (byteAt r 5 / 2 * 65536) / (4 * (16 * ((byteAt r 2 + 12 + 15) / 16)))

/-- The key of an exact entry in the store: region, table, half, bucket, position. -/
def xPos (g id half b i : Nat) : Nat := ((g * 32 + id) * 2 + half) * 2 ^ 19 + 4 * b + i

/-- R286: the words of the entry at a position, as word addresses of the region's 64 banks: the first and their number. -/
def xWords (r : List Byte) (p : Nat) : Nat × Nat :=
  let n := 2 * ((byteAt r 2 + 12 + 15) / 16)
  (8192 * (byteAt r 4 + p / 2 ^ 19 % 2 * (byteAt r 5 / 2)) + p % 2 ^ 19 * n, n)

/-- R287: the words of the bucket of positions that starts at one: the first and their number. -/
def xBucketWords (r : List Byte) (p : Nat) : Nat × Nat := let q := xWords r p; (q.1, 4 * q.2)

/-- R285: the word of an index of a direct table. -/
def Dev.dWord (d : Dev) (id i : Nat) : Nat := match d.xRec id with | some r => 8192 * byteAt r 4 + i | none => 0

/-- R305: the valid entries of exact table t. -/
def Dev.exCount (d : Dev) (g t : Nat) : Nat := (d.mat.exact.filter (fun x => x.1 / 2 ^ 20 == g * 32 + t)).length

/-- R287: the positions of a key's candidate buckets A and B. -/
def xCand (r : List Byte) (g id : Nat) (k : List Byte) : List Nat × List Nat :=
  let nb := xBuckets r
  let a := crc32cT (leAt r 8 4) k % nb
  let b := crc32cT (leAt r 12 4) k % nb
  ((List.range 4).map (xPos g id 0 a), (List.range 4).map (xPos g id 1 b))

/-- R287: the position of the entry that holds a key. -/
def Dev.xFind (d : Dev) (g id : Nat) (k : List Byte) : Option Nat :=
  match d.xRec id with
  | none => none
  | some r =>
    let c := xCand r g id k
    (c.1 ++ c.2).find? (fun p => match SMap.look d.mat.exact p with | some e => e.key == k | none => false)

/-- R288: the position an INSERT takes: the emptier bucket, A on a tie, its lowest free position. -/
def pickFree {α : Type} (m : SMap α) (a b : List Nat) : Option Nat :=
  let fa := a.filter (fun p => (SMap.look m p).isNone)
  let fb := b.filter (fun p => (SMap.look m p).isNone)
  if fb.length ≤ fa.length then fa.head? else fb.head?

/-- The key of a direct entry in the store. -/
def dirPos (g id i : Nat) : Nat := (g * 32 + (id - 64)) * 2 ^ 20 + i

/-- R710: the index of a DIRECT table with HIDX = 0. -/
def directIndex (size : Nat) (key : List Byte) : Nat := leNat (key.take ((size + 7) / 8)) % 2 ^ size

/-! ## The L2 table (R291–R303) -/

/-- R291: the key bytes of a MAC address and FID. -/
def l2Key (mac fid : Nat) : List Byte := beBytes 6 mac ++ leBytes 2 (fid % 4096)

/-- The position of an L2 entry in the store. -/
def l2Pos (k half b i : Nat) : Nat := (k * 2 + half) * 2 ^ 18 + 4 * b + i

/-- R287, R291: the positions of a key's candidate buckets. -/
def Dev.l2Cand (d : Dev) (k mac fid : Nat) : List Nat × List Nat :=
  let a := crc32cT (d.getW R.L2_SEED_A [k]) (l2Key mac fid) % 65536
  let b := crc32cT (d.getW R.L2_SEED_B [k]) (l2Key mac fid) % 65536
  ((List.range 4).map (l2Pos k 0 a), (List.range 4).map (l2Pos k 1 b))

/-- R291: the position of the entry of a key. -/
def Dev.l2Find (d : Dev) (k mac fid : Nat) : Option Nat :=
  let c := d.l2Cand k mac fid
  (c.1 ++ c.2).find? (fun p => match SMap.look d.mat.l2 p with | some e => e.mac == mac && e.fid == fid | none => false)

/-- R303: an access of an entry. The flag is a double-bit error. -/
def Dev.l2Read (d : Dev) (p : Nat) : Dev × Bool :=
  let x := d.eccRead (p / 2 ^ 19) 0x23 0 (p % 2 ^ 19) 1 p
  (x.1, !x.2.isEmpty)

/-- R293: the LTICK of a die now. -/
def Dev.ltick (d : Dev) (k : Nat) : Nat := d.tim.raw.get k / 1000000 % 65536

/-- An L2 entry replaced. -/
def Dev.l2Set (d : Dev) (p : Nat) (e : L2Ent) : Dev := { d with mat := { d.mat with l2 := SMap.put d.mat.l2 p e } }

/-- R303: a new L2 entry; the words of its place are written whole. -/
def Dev.l2Put (d : Dev) (p : Nat) (e : L2Ent) : Dev := (d.l2Set p e).mend 0x23 p 1

/-- An L2 entry removed, L2_COUNT lowered. -/
def Dev.l2Del (d : Dev) (k p : Nat) : Dev :=
  let d := { d with mat := { d.mat with l2 := SMap.del d.mat.l2 p } }.mend 0x23 p 1
  d.put R.L2_COUNT [k] "COUNT" (d.get R.L2_COUNT [k] "COUNT" - 1)

/-- R300: the event ring holds no further record. -/
def Dev.l2EvtFull (d : Dev) (k : Nat) : Bool :=
  d.bit R.L2_EVT_CTL [k] "EN" &&
    (d.get R.L2_EVT_TAIL [k] "TAIL" + 1) % 2 ^ d.get R.L2_EVT_SIZE [k] "LOG2" == d.get R.L2_EVT_HEAD [k] "HEAD"

/-- R299: an event record, written to the ring and signalled; discarded while the ring is not enabled. -/
def Dev.l2Event (d : Dev) (k typ mac fid dest old : Nat) (flap : Bool) : Dev :=
  if !d.bit R.L2_EVT_CTL [k] "EN" then d else
  let t := d.get R.L2_EVT_TAIL [k] "TAIL"
  let base := d.get R.L2_EVT_BASE_LO [k] "ADDR_LO" + d.get R.L2_EVT_BASE_HI [k] "ADDR_HI" * 2 ^ 32
  let rec_ := leBytes 1 typ ++ leBytes 1 (b2n flap) ++ leBytes 2 fid ++ beBytes 6 mac ++ leBytes 2 dest ++ leBytes 2 old ++ leBytes 2 (d.ltick k)
  let d := (d.dma (base + 16 * t) rec_).put R.L2_EVT_TAIL [k] "TAIL" ((t + 1) % 2 ^ d.get R.L2_EVT_SIZE [k] "LOG2")
  d.msix 0 (50 + k)

/-- R603: an L2 double-bit error reported as class K. -/
def Dev.l2Ecc (d : Dev) (k p : Nat) : Dev := d.errEvent (mkEvent k 0x23 0 2 1 (leBytes 4 (p % 2 ^ 19))) (d.isInj k 0x23 p)

/-- R287, R291, R303: a search reads both buckets of a key: every entry with a double-bit error is reported. The flag says that there is one. -/
def Dev.l2Search (d : Dev) (k mac fid : Nat) : Dev × Bool :=
  let c := d.l2Cand k mac fid
  (c.1 ++ c.2).foldl (fun x p => match x.1.l2Read p with | (d, true) => (d.l2Ecc k p, true) | (d, false) => (d, x.2)) (d, false)

/-- R294: a push onto the learn FIFO, or its count as dropped. -/
def Dev.l2Push (d : Dev) (g mac fid port : Nat) : Dev :=
  let k := g / 2
  let q := d.mat.learn.get k
  if !d.bit R.L2_CFG [k] "LEARN_EN" || decide (q.length ≥ 4096) || d.glb.mode != .run then d.bump R.L2_LEARN_DROP [k] "COUNT" 1
  else
    let d := { d with mat := { d.mat with learn := d.mat.learn.set k (q ++ [(mac, fid, port)]) } }
    (d.bump R.L2_RPUSH [k, g % 2] "COUNT" 1).put R.L2_FIFO_LVL [k] "LEVEL" (q.length + 1)

/-- R294: what a source lookup finds: whether the entry of the key is there with the ingress port as its DEST. -/
def Dev.l2InPlace (d : Dev) (k mac fid port : Nat) : Bool :=
  match (d.l2Find k mac fid).bind (SMap.look d.mat.l2) with | some e => e.dest == port | none => false

/-- R294: the source side of a packet that commits or whose pass ends, as its lookup found it: a source that was not in place is pushed, the entry of one
that was is marked hit. -/
def Dev.l2Source (d : Dev) (g port : Nat) (x : L2Src) : Dev :=
  if !x.inPlace then d.l2Push g x.mac x.fid port
  else match d.l2Find (g / 2) x.mac x.fid with
    | none => d
    | some p => match SMap.look d.mat.l2 p with | some e => d.l2Set p { e with hit := true } | none => d

/-- R300: a change waits for the event ring; the cycles that it waits are free. -/
def Dev.l2Stall (d : Dev) (k : Nat) : Dev := let (n, d) := d.fresh (2 ^ 16); d.bump R.L2_EVT_STALL [k] "COUNT" n

/-- R295, R299: what applying a push does; the flag says that it raises an event. -/
def Dev.l2Apply (d : Dev) (k mac fid p : Nat) : Dev × Bool :=
  let t := d.ltick k
  match d.l2Find k mac fid with
  | none =>
    let c := d.l2Cand k mac fid
    match pickFree d.mat.l2 c.1 c.2 with
    | none => (d.bump R.L2_FULL_CNT [k] "COUNT" 1, false)
    | some pos =>
      let d := (d.l2Put pos ⟨mac, fid, p, false, false, false, true, false, 0, t⟩).bump R.L2_COUNT [k] "COUNT" 1
      ((d.bump R.L2_LEARN_CNT [k] "COUNT" 1).l2Event k 1 mac fid p 0 false, true)
  | some pos =>
    match d.l2Read pos with
    | (d, true) => (d.l2Ecc k pos, false)
    | (d, false) =>
      match SMap.look d.mat.l2 pos with
      | none => (d, false)
      | some e =>
        if e.dest = p then (d.l2Set pos { e with hit := true, clr := false }, false)
        else if e.static then ((d.bump R.L2_STATIC_VIOL [k] "COUNT" 1).l2Event k 5 mac fid p e.dest false, true)
        else
          let flap := decide ((t + 65536 - e.ltick) % 65536 < d.get R.L2_CFG [k] "MOVE_WIN_MS")
          let d := d.l2Event k 2 mac fid p e.dest flap
          let e' := { e with dest := p, ltick := t, host := false, hit := true, clr := false, flap := if flap then min (e.flap + 1) 15 else e.flap }
          let d := (d.l2Set pos e').bump R.L2_MOVE_CNT [k] "COUNT" 1
          (if flap then d.bump R.L2_FLAP_CNT [k] "COUNT" 1 else d, true)

/-- R74, R80, R295, R300: the inserter applies the oldest push in RUN; a change that raises an event waits while the ring is full. -/
def Dev.l2Learn (d : Dev) (k : Nat) : Dev :=
  match d.mat.learn.get k with
  | [] => d
  | (mac, fid, p) :: rest =>
    if d.glb.mode != .run then d else
    let x := d.l2Apply k mac fid p
    if x.2 && d.l2EvtFull k then d.l2Stall k
    else { x.1 with mat := { x.1.mat with learn := x.1.mat.learn.set k rest } }.put R.L2_FIFO_LVL [k] "LEVEL" rest.length

/-- R80, R296: the sweeper visits an entry; in REST it does not. -/
def Dev.l2Sweep (d : Dev) (k i : Nat) : Dev :=
  let p := k * 2 ^ 19 + i % 2 ^ 19
  if !d.bit R.L2_CFG [k] "SWEEP_EN" || d.glb.mode == .rest then d else
  match SMap.look d.mat.l2 p with
  | none => d
  | some e =>
    let (d, bad) := d.l2Read p
    if bad then d.l2Ecc k p
    else if e.static || e.noage then d
    else if e.hit then d.l2Set p { e with hit := false, clr := false }
    else if !e.clr then d.l2Set p { e with clr := true }
    else if d.l2EvtFull k then d.l2Stall k
    else ((d.l2Del k p).bump R.L2_AGED_CNT [k] "COUNT" 1).l2Event k 3 e.mac e.fid e.dest 0 false

/-- R293: the MAC and FID named in L2_HENT. -/
def Dev.l2Hkey (d : Dev) (k : Nat) : Nat × Nat :=
  let w1 := d.getW R.L2_HENT [k, 1]
  (d.getW R.L2_HENT [k, 0] + bitsOf w1 15 0 * 2 ^ 32, bitsOf w1 27 16)

/-- R302: a command ends with a CODE. -/
def Dev.l2Done (d : Dev) (k code : Nat) : Dev := d.put R.L2_HSTAT [k] "CODE" code

/-- R293: word 2 of an entry. -/
def L2Ent.word2 (e : L2Ent) : Nat :=
  e.dest * 2 ^ 16 + 2 ^ 15 + b2n e.static * 2 ^ 14 + b2n e.host * 2 ^ 13 + b2n e.noage * 2 ^ 12 + b2n e.hit * 2 ^ 11 + b2n e.clr * 2 ^ 10 + e.flap * 64

/-- R302: LOOKUP. -/
def Dev.l2Lookup (d : Dev) (k : Nat) : Dev :=
  let (mac, fid) := d.l2Hkey k
  match d.l2Find k mac fid with
  | none => d.l2Done k 1
  | some p =>
    let (d, bad) := d.l2Read p
    if bad then d.l2Done k 4 else
    match SMap.look d.mat.l2 p with
    | none => d.l2Done k 1
    | some e => (d.setW R.L2_HENT [k, 2] e.word2).l2Done k 0

/-- R293, R302: the entry that L2_HENT describes; INSERT makes it valid whatever VALID of L2_HENT[2] is: DESIGN CHOICE, log 144. -/
def Dev.l2Hent (d : Dev) (k : Nat) : L2Ent :=
  let (mac, fid) := d.l2Hkey k
  let w := d.getW R.L2_HENT [k, 2]
  ⟨mac, fid, bitsOf w 31 16, hasBit w 14, hasBit w 13, hasBit w 12, hasBit w 11, hasBit w 10, bitsOf w 9 6, d.ltick k⟩

/-- R302: INSERT; an existing entry of the key is replaced whole. -/
def Dev.l2Insert (d : Dev) (k : Nat) : Dev :=
  let e := d.l2Hent k
  match d.l2Find k e.mac e.fid with
  | some p => (d.l2Put p e).l2Done k 2
  | none =>
    let c := d.l2Cand k e.mac e.fid
    match pickFree d.mat.l2 c.1 c.2 with
    | none => d.l2Done k 3
    | some p => ((d.l2Put p e).bump R.L2_COUNT [k] "COUNT" 1).l2Done k 0

/-- R302: DELETE. -/
def Dev.l2Delete (d : Dev) (k : Nat) : Dev :=
  let (mac, fid) := d.l2Hkey k
  match d.l2Find k mac fid with
  | none => d.l2Done k 1
  | some p => let (d, bad) := d.l2Read p; if bad then d.l2Done k 4 else (d.l2Del k p).l2Done k 0

/-- R302, R300: the flush walk over entries in store order; it stops at an event that the ring cannot take, and says where. -/
def l2FlushWalk (k : Nat) (f : L2Flush) : List (Nat × L2Ent) → Dev → Dev × Option Nat
  | [], d => (d, none)
  | (p, e) :: l, d =>
    if p / 2 ^ 19 = k && decide (f.next ≤ p) && !e.static && e.dest == f.dest && (f.fid.isNone || f.fid == some e.fid) then
      if d.l2EvtFull k then (d.l2Stall k, some p)
      else l2FlushWalk k f l ((d.l2Del k p).l2Event k 4 e.mac e.fid e.dest 0 false)
    else l2FlushWalk k f l d

/-- R302: a FLUSH goes as far as the event ring lets it; it is BUSY until the walk has ended. -/
def Dev.l2FlushRun (d : Dev) (k : Nat) (f : L2Flush) : Dev :=
  match l2FlushWalk k f d.mat.l2 d with
  | (d, none) => ({ d with mat := { d.mat with flush := d.mat.flush.set k none } }.put R.L2_HSTAT [k] "BUSY" 0).l2Done k 0
  | (d, some p) => { d with mat := { d.mat with flush := d.mat.flush.set k (some { f with next := p }) } }.put R.L2_HSTAT [k] "BUSY" 1

/-- R302: FLUSH. -/
def Dev.l2Flush (d : Dev) (k : Nat) (fidm : Bool) : Dev :=
  d.l2FlushRun k ⟨bitsOf (d.getW R.L2_HENT [k, 2]) 31 16, if fidm then some (d.l2Hkey k).2 else none, 0⟩

/-- R300, R302: the event ring may have space: a FLUSH that waits goes on. -/
def Dev.l2Resume (d : Dev) (k : Nat) : Dev := match d.mat.flush.get k with | some f => d.l2FlushRun k f | none => d

/-! ## Searching a pass (R253–R257, R273–R275) -/

/-- What a packet carries through its tables: metadata, counter indices hit, a source to learn, the error source of an ECC error that diverts it. -/
structure Run where
  md : List Byte
  deltas : List Nat
  src : List L2Src
  divert : Option Nat
  deriving DecidableEq, Repr

/-- R254: a hit's result merged. -/
def Run.merge (r : Run) (t : List Byte) (res : Nat) : Run := { r with md := mdWrite r.md (dRdst t) ((leBytes 8 res).take (dRlen t)) }

/-- R275, R612: a double-bit error of a source diverts the packet; the first one names its divert. -/
def Run.fail (r : Run) (code inst : Nat) : Run := { r with divert := some (r.divert.getD (srcId (codeLevel code) code inst)) }

/-- R275: a search reads n words of an instance: each double-bit error is reported and diverts the packet; without one it goes on. -/
def ifSound (g inst first n : Nat) (x : Dev × Run) (f : Dev × Run → Dev × Run) : Dev × Run :=
  match x.1.matRead g inst first n with
  | (d, []) => f (d, x.2)
  | (d, bad) => (bad.foldl (fun d a => d.matEcc g inst a) d, x.2.fail 0x20 inst)

/-- R274, R275: the counter delta of a hit; the two words of its pair stand in the counter bank. -/
def countHit (g side : Nat) (x : Dev × Run) : Dev × Run :=
  if !sideCntEn side then x else
  ifSound g 17 (2 * sideIdx side) 2 x (fun x => (x.1, { x.2 with deltas := x.2.deltas ++ [sideIdx side] }))

/-- R254, R257, R710: one table of the pass of region g on a packet with header vector hv and hash h. -/
def runTable (g : Nat) (hv : List Byte) (h : Nat) (t : List Byte) (x : Dev × Run) : Dev × Run :=
  let (d, r) := x
  let k := g / 2
  let w := g % 2
  if !hasBit (leAt t 4 2) (mdProf r.md) || dType t == 2 then (d, r)
  else
    let key := segKey hv r.md t
    if dType t = 0 then
      match d.tSearch g (dId t) (leNat key) with
      | some (i, e) =>
        let q := d.tResult g (dId t) (i % 2 ^ 15)
        ifSound g q.1 q.2 1 (d.bump R.MAT_PROF_HIT [k, w, dId t] "COUNT" 1, r) (fun x => countHit g e.side (x.1, x.2.merge t e.res))
      | none => (d.bump R.MAT_PROF_MISS [k, w, dId t] "COUNT" 1, r)
    else if dType t = 3 then
      let i := if dHidx t then leAt r.md 14 2 + (bitsOf h 31 16 * (byteAt r.md 13 + 1)) / 65536 else directIndex (dSize t) key
      if i < 2 ^ dSize t then
        ifSound g 16 (d.dWord (dId t) i) 1 (d, r) (fun x => (x.1, x.2.merge t (SMap.get x.1.mat.direct (dirPos g (dId t) i) 0)))
      else (d.bump R.PRS_SPREAD_OOR [k, w] "COUNT" 1, r)
    else if dId t ≥ 0x8000 then
      let mac := beAt key 0 6
      let fid := leAt key 6 2 % 4096
      match d.l2Search k mac fid with
      | (d, true) => (d, r.fail 0x23 0)
      | (d, false) =>
        let hit := d.l2Find k mac fid
        if dId t = 0x8000 then
          match hit.bind (SMap.look d.mat.l2) with
          | none => (d.bump R.L2_RDST_MISS [k, w] "COUNT" 1, r)
          | some e => (d, r.merge t (e.dest + b2n e.static * 65536))
        else
          (if hit.isNone then d.bump R.L2_RSRC_MISS [k, w] "COUNT" 1 else d,
            { r with src := r.src ++ [⟨mac, fid, d.l2InPlace k mac fid (byteAt r.md 12)⟩] })
    else
      match d.xRec (dId t) with
      | none => (d, r)
      | some rec_ =>
      let kb := key.take (dSize t) ++ List.replicate (dSize t - key.length) 0#8
      let c := xCand rec_ g (dId t) kb
      let a := xBucketWords rec_ (c.1.headD 0)
      let b := xBucketWords rec_ (c.2.headD 0)
      ifSound g 16 a.1 a.2 (d, r) (fun x => ifSound g 16 b.1 b.2 x (fun x =>
        match (x.1.xFind g (dId t) kb).bind (SMap.look x.1.mat.exact) with
        | none => x
        | some e => countHit g e.side (x.1, x.2.merge t e.res)))

/-- A list of tables in slot order. -/
def runTables (g : Nat) (hv : List Byte) (h : Nat) (ts : List (List Byte)) (x : Dev × Run) : Dev × Run :=
  ts.foldl (fun x t => runTable g hv h t x) x

/-- R255: the slot of the FLOW table of a pass. -/
def flowSlot (ts : List (List Byte)) : Option Nat := (ts.find? (fun t => dType t == 2)).map dSlot

/-- R254: the FLOW stage of a pass is not skipped under a PROF. -/
def flowRuns (ts : List (List Byte)) (prof : Nat) : Bool := ts.any (fun t => dType t == 2 && hasBit (leAt t 4 2) prof)

/-- R274: the held deltas of a packet applied to the region's pairs: one packet and the frame length each. -/
def Dev.applyDeltas (d : Dev) (g len : Nat) (is : List Nat) : Dev :=
  is.foldl (fun d i =>
    let c := SMap.get d.mat.cnt (g * 65536 + i) (0, 0)
    { d with mat := { d.mat with cnt := SMap.put d.mat.cnt (g * 65536 + i) ((c.1 + 1) % 2 ^ 64, (c.2 + len) % 2 ^ 64) } }) d

/-- R305: a write of MAT_CNT_SEL snapshots pair INDEX, and clears it with CLR = 1; what a pair with a double-bit error shows is free. -/
def Dev.cntSnapshot (d : Dev) (g v : Nat) : Dev :=
  let i := bitsOf v 15 0
  let (d, bad) := d.matRead g 17 (2 * i) 2
  let (a, d') := d.fresh (2 ^ 64)
  let (b, d') := d'.fresh (2 ^ 64)
  let (c, d) := if !bad.isEmpty then ((a, b), d') else (SMap.get d.mat.cnt (g * 65536 + i) (0, 0), d)
  let ix := [g / 2, g % 2]
  let d := ((d.put R.MAT_CNT_SEL ix "INDEX" i).setW R.MAT_CNT_PKTS ix c.1).setW R.MAT_CNT_OCT ix c.2
  if hasBit v 31 then { d with mat := { d.mat with cnt := SMap.del d.mat.cnt (g * 65536 + i) } }.matMend g 17 (2 * i) 2 else d

/-! ## TCAM commands (R276–R283) -/

/-- The staged words of a TCAM register array as one value. -/
def Dev.staged (d : Dev) (r : RegSpec) (ix : List Nat) (n : Nat) : Nat :=
  ((List.range n).map (fun w => d.getW r (ix ++ [w]) * 2 ^ (32 * w))).sum

/-- A value put into a staging array. -/
def Dev.stage (d : Dev) (r : RegSpec) (ix : List Nat) (n v : Nat) : Dev :=
  (List.range n).foldl (fun d w => d.setW r (ix ++ [w]) (bitsOf v (32 * w + 31) (32 * w))) d

/-- R279: a command is refused with RANGE, or runs. -/
def Dev.tcamCmd (d : Dev) (g prof i : Nat) (f : Dev → Dev) : Dev :=
  if i < d.tSize g prof then f d else d.put R.MAT_TCAM_STAT [g / 2, g % 2] "CODE" 1

/-- An entry that has never been written. -/
def TEnt.blank : TEnt := ⟨0, 0, 0, 0, false⟩

/-- R271: a value or mask cut to the 160·WIDTH bits that an entry's rows hold. -/
def Dev.tCut (d : Dev) (g prof v : Nat) : Nat := v % 2 ^ (160 * d.tWidth g prof)

/-- R278: the entry occupies a block in recovery. -/
def Dev.tRecov (d : Dev) (g prof i : Nat) : Bool :=
  (List.range (d.tWidth g prof)).any (fun j => d.bit R.MAT_TCAM_BLKCTL [g / 2, g % 2, (d.tRow g prof i j).1] "RECOV")

/-- R276, R280: an entry put into the rows of the array, the result SRAM and the shadow. -/
def Dev.tcamPut (d : Dev) (g prof i : Nat) (array shadow : TEnt) : Dev :=
  let m := { d.mat with tcam := SMap.put d.mat.tcam (tKey g prof i) array, shadow := SMap.put d.mat.shadow (tKey g prof i) shadow }
  let q := d.tResult g prof i
  (List.range (d.tWidth g prof)).foldl (fun d j => let x := d.tRow g prof i j; (d.mend 0x22 (rowKey g x.1 x.2) 1).mend 0x21 (rowKey g x.1 x.2) 1)
    ({ d with mat := m }.matMend g q.1 q.2 1)

/-- R278: the last step of a verified write: the entry becomes valid when its rows read back as the shadow has them, and otherwise stays invalid. -/
def Dev.tcamVerify (d : Dev) (g prof i : Nat) : Dev :=
  let array := SMap.get d.mat.tcam (tKey g prof i) TEnt.blank
  let shadow := SMap.get d.mat.shadow (tKey g prof i) TEnt.blank
  if array == shadow then (d.tcamPut g prof i { array with valid := true } { shadow with valid := true }).put R.MAT_TCAM_STAT [g / 2, g % 2] "CODE" 0
  else d.put R.MAT_TCAM_STAT [g / 2, g % 2] "CODE" 2

/-- R276–R278, R280: WRITE. In LOAD and PROOF and for a block in recovery it is verified; in RUN the entry is then invalid until the write ends. R278 does
not name DRAIN and REST, where it is verified too: DESIGN CHOICE, log 144. -/
def Dev.tcamWrite (d : Dev) (g prof i : Nat) : Dev :=
  d.tcamCmd g prof i (fun d =>
    let ix := [g / 2, g % 2]
    let s : TEnt := ⟨d.tCut g prof (d.staged R.MAT_TCAM_VAL ix 20), d.tCut g prof (d.staged R.MAT_TCAM_MASK ix 20), d.staged R.MAT_TCAM_RES ix 2,
      d.getW R.MAT_TCAM_SIDE ix, true⟩
    let a := { s with val := d.tCut g prof (Nat.xor s.val d.mat.flip) }
    if d.glb.mode == .run && !d.tRecov g prof i then (d.tcamPut g prof i a s).put R.MAT_TCAM_STAT ix "CODE" 0
    else
      let d := d.tcamPut g prof i { a with valid := false } { s with valid := false }
      if d.glb.mode == .run then { d with mat := { d.mat with twr := SMap.put d.mat.twr g (prof, i) } }.put R.MAT_TCAM_STAT ix "BUSY" 1
      else d.tcamVerify g prof i)

/-- R278, R279: the verified write in progress in a region ends. -/
def Dev.tcamEnd (d : Dev) (g : Nat) : Dev :=
  match SMap.look d.mat.twr g with
  | none => d
  | some w =>
    let d := { d with mat := { d.mat with twr := SMap.del d.mat.twr g } }.put R.MAT_TCAM_STAT [g / 2, g % 2] "BUSY" 0
    d.tcamVerify g w.1 w.2

/-- R280: INVALIDATE clears the valid bit of the entry and of its shadow. -/
def Dev.tcamInvalidate (d : Dev) (g prof i : Nat) : Dev :=
  d.tcamCmd g prof i (fun d =>
    let off := fun (m : SMap TEnt) => SMap.set m (tKey g prof i) { SMap.get m (tKey g prof i) TEnt.blank with valid := false } TEnt.blank
    { d with mat := { d.mat with tcam := off d.mat.tcam, shadow := off d.mat.shadow } }.put R.MAT_TCAM_STAT [g / 2, g % 2] "CODE" 0)

/-- R280: an entry copied to the staging registers and its VALID to MAT_TCAM_STAT. -/
def Dev.tcamShow (d : Dev) (g : Nat) (e : TEnt) : Dev :=
  let ix := [g / 2, g % 2]
  let d := (d.stage R.MAT_TCAM_VAL ix 20 e.val).stage R.MAT_TCAM_MASK ix 20 e.mask
  let d := (d.stage R.MAT_TCAM_RES ix 2 e.res).setW R.MAT_TCAM_SIDE ix e.side
  (d.put R.MAT_TCAM_STAT ix "VALID" (b2n e.valid)).put R.MAT_TCAM_STAT ix "CODE" 0

/-- R280, R283: READ copies the shadow; a shadow that fails ends with SHADOW. -/
def Dev.tcamRead (d : Dev) (g prof i : Nat) : Dev :=
  d.tcamCmd g prof i (fun d =>
    if d.tShadowBad g prof i then d.put R.MAT_TCAM_STAT [g / 2, g % 2] "CODE" 3
    else d.tcamShow g (SMap.get d.mat.shadow (tKey g prof i) TEnt.blank))

/-- R275, R280: READ_ARRAY copies the rows, result and side data; the result whose word has a double-bit error is a free value. -/
def Dev.tcamReadArray (d : Dev) (g prof i : Nat) : Dev :=
  d.tcamCmd g prof i (fun d =>
    let q := d.tResult g prof i
    let e := SMap.get d.mat.tcam (tKey g prof i) TEnt.blank
    match d.matRead g q.1 q.2 1 with
    | (d, []) => d.tcamShow g e
    | (d, _) => let (v, d) := d.fresh (2 ^ 64); d.tcamShow g { e with res := v })

/-- R271: the profile, entry and place within the entry of row r of block b of a region; none for a block of no profile. -/
def Dev.rowOf (d : Dev) (g b r : Nat) : Option (Nat × Nat × Nat) :=
  ((List.range 16).find? (fun p => decide (d.tSize g p > 0) && (d.tBlocks g p).contains b)).map (fun p =>
    let w := d.tWidth g p
    let q := ((d.tBlocks g p).filter (fun c => decide (c < b / w * w))).length / w
    (p, 2048 * q + r, b % w))

/-- R281: the bits of an entry that one block holds. -/
def TEnt.part (e : TEnt) (j : Nat) : Nat × Nat × Bool := (bitsOf e.val (160 * j + 159) (160 * j), bitsOf e.mask (160 * j + 159) (160 * j), e.valid)

/-- R282: an entry whose row in block j of its group is that of another. -/
def TEnt.withPart (e : TEnt) (j : Nat) (s : TEnt) : TEnt :=
  { e with val := setBits e.val (160 * j + 159) (160 * j) (s.part j).1, mask := setBits e.mask (160 * j + 159) (160 * j) (s.part j).2.1, valid := s.valid }

/-- R281: the mismatch of a row is counted, shown and reported; an armed REWRITE writes that row from its shadow (R282). -/
def Dev.tcamMism (d : Dev) (g b r key j : Nat) : Dev :=
  let k := g / 2
  let w := g % 2
  let again := d.mat.mism.contains (g, b, r)
  let d := d.bump R.MAT_TCAM_MISM [k, w, b] "COUNT" 1
  let d := ((d.put R.MAT_TCAM_MLAST [k, w] "REPEAT" (b2n again)).put R.MAT_TCAM_MLAST [k, w] "BLOCK" b).put R.MAT_TCAM_MLAST [k, w] "ROW" r
  let fix := d.armed k 0x21 0
  let d := d.errEvent (mkEvent k 0x21 b 3 1 (leBytes 4 r ++ leBytes 1 b)) (d.isInj k 0x21 (rowKey g b r)) (if fix then ⟨true, 0⟩ else noResp)
  let d := { d with mat := { d.mat with mism := if again then d.mat.mism else d.mat.mism ++ [(g, b, r)] } }
  let e := SMap.get d.mat.tcam key TEnt.blank
  if fix then { d with mat := { d.mat with tcam := SMap.set d.mat.tcam key (e.withPart j (SMap.get d.mat.shadow key TEnt.blank)) TEnt.blank } }.mend 0x21 (rowKey g b r) 1 else d

/-- R281–R283: the scrubber visits a row; it skips one that a command is writing. -/
def Dev.tcamScrub (d : Dev) (g b r : Nat) : Dev :=
  let k := g / 2
  if !d.bit R.MAT_TCAM_BLKCTL [k, g % 2, b] "SCRUB_EN" then d else
  match d.rowOf g b r with
  | none => d
  | some (p, i, j) =>
    if SMap.look d.mat.twr g == some (p, i) then d else
    let key := tKey g p i
    if d.mat.bad.contains (0x22, rowKey g b r) then
      d.errEvent (mkEvent k 0x22 b 3 1 (leBytes 4 r ++ leBytes 1 b)) (d.isInj k 0x22 (rowKey g b r))
    else if (SMap.get d.mat.tcam key TEnt.blank).part j = (SMap.get d.mat.shadow key TEnt.blank).part j then
      { d with mat := { d.mat with mism := d.mat.mism.filter (fun x => x != (g, b, r)) } }
    else d.tcamMism g b r key j

/-! ## Exact and direct commands (R288–R290)

LOOKUP and DREAD end with ECC on a double-bit error of what they return. R290 does not say which commands do: INSERT, DELETE and REPLACE, which write the
entry, do not: DESIGN CHOICE, log 144. -/

/-- R290: a command ends with a CODE. -/
def Dev.exDone (d : Dev) (g code : Nat) : Dev := d.put R.MAT_EX_STAT [g / 2, g % 2] "CODE" code

/-- R290: the staged key of a table. -/
def Dev.exKey (d : Dev) (g : Nat) (r : List Byte) : List Byte := leBytes (byteAt r 2) (d.staged R.MAT_EX_KEY [g / 2, g % 2] 20)

/-- R290: a command on an exact table: RANGE for a table that is not defined, KIND for a direct one. -/
def Dev.exCmd (d : Dev) (g id : Nat) (kind : Nat) (f : List Byte → Dev → Dev) : Dev :=
  match d.xRec id with
  | none => d.exDone g 4
  | some r => if byteAt r 1 = kind then f r d else d.exDone g 6

/-- R275: the words of an exact entry read; the flag is a double-bit error. -/
def Dev.exRead (d : Dev) (g : Nat) (r : List Byte) (p : Nat) : Dev × Bool :=
  let q := xWords r p
  let x := d.matRead g 16 q.1 q.2
  (x.1, !x.2.isEmpty)

/-- R275, R288: an exact entry written, or taken out. -/
def Dev.exStore (d : Dev) (g : Nat) (r : List Byte) (p : Nat) (e : Option XEnt) : Dev :=
  let q := xWords r p
  { d with mat := { d.mat with exact := match e with | some e => SMap.put d.mat.exact p e | none => SMap.del d.mat.exact p } }.matMend g 16 q.1 q.2

/-- R290: LOOKUP. -/
def Dev.exLookup (d : Dev) (g id : Nat) : Dev :=
  d.exCmd g id 0 (fun r d =>
    match d.xFind g id (d.exKey g r) with
    | none => d.exDone g 1
    | some p =>
      let (d, bad) := d.exRead g r p
      if bad then d.exDone g 5 else
      match SMap.look d.mat.exact p with
      | none => d.exDone g 1
      | some e => ((d.stage R.MAT_EX_RES [g / 2, g % 2] 2 e.res).setW R.MAT_EX_SIDE [g / 2, g % 2] e.side).exDone g 0)

/-- The staged result and side data. -/
def Dev.exEntry (d : Dev) (g : Nat) (k : List Byte) : XEnt :=
  ⟨k, d.staged R.MAT_EX_RES [g / 2, g % 2] 2, d.getW R.MAT_EX_SIDE [g / 2, g % 2]⟩

/-- R288: INSERT. -/
def Dev.exInsert (d : Dev) (g id : Nat) : Dev :=
  d.exCmd g id 0 (fun r d =>
    let k := d.exKey g r
    if (d.xFind g id k).isSome then d.exDone g 2 else
    let c := xCand r g id k
    match pickFree d.mat.exact c.1 c.2 with
    | none => d.exDone g 3
    | some p => (d.exStore g r p (some (d.exEntry g k))).exDone g 0)

/-- R290: DELETE. -/
def Dev.exDelete (d : Dev) (g id : Nat) : Dev :=
  d.exCmd g id 0 (fun r d =>
    match d.xFind g id (d.exKey g r) with
    | none => d.exDone g 1
    | some p => (d.exStore g r p none).exDone g 0)

/-- R290: REPLACE. -/
def Dev.exReplace (d : Dev) (g id : Nat) : Dev :=
  d.exCmd g id 0 (fun r d =>
    match d.xFind g id (d.exKey g r) with
    | none => d.exDone g 1
    | some p => (d.exStore g r p (some (d.exEntry g (d.exKey g r)))).exDone g 0)

/-- R249: a write of a pre-hash table's entry whose KEY names a form outside the table's mask. -/
def Dev.preRefused (d : Dev) (id res : Nat) : Bool :=
  d.descs.any (fun t => dPre t && dId t == id && decide (dRdst t ≤ 2) && decide (2 < dRdst t + dRlen t)
    && !hasBit (leAt t 6 2) (byteAt (leBytes 8 res) (2 - dRdst t) % 16))

/-- R290: DWRITE. -/
def Dev.dirWrite (d : Dev) (g id i : Nat) : Dev :=
  d.exCmd g id 1 (fun r d =>
    if i < 2 ^ byteAt r 2 then
      ({ d with mat := { d.mat with direct := SMap.set d.mat.direct (dirPos g id i) (d.staged R.MAT_EX_RES [g / 2, g % 2] 2) 0 } }.matMend g 16
        (d.dWord id i) 1).exDone g 0
    else d.exDone g 4)

/-- R290: DREAD. -/
def Dev.dirRead (d : Dev) (g id i : Nat) : Dev :=
  d.exCmd g id 1 (fun r d =>
    if i < 2 ^ byteAt r 2 then
      let (d, bad) := d.matRead g 16 (d.dWord id i) 1
      if !bad.isEmpty then d.exDone g 5 else (d.stage R.MAT_EX_RES [g / 2, g % 2] 2 (SMap.get d.mat.direct (dirPos g id i) 0)).exDone g 0
    else d.exDone g 4)

end Sys2Proof.Machine
end

