-- ==== Sys2Proof/Machine/Act.lean ====
section
/-! DEFINITION. Flow actions (chapter 9): the TCP state machine, translation, balancing, the evaluation order of R312, mirroring, and the host
commands of the action, cell-plan and balancer stores. -/

namespace Sys2Proof.Machine

/-! ## Action entries (R308, R309) -/

/-- R308: KIND. -/
def aKind (e : List Byte) : Nat := byteAt e 0
/-- R308: bit i of FLAGS. -/
def aFlag (e : List Byte) (i : Nat) : Bool := hasBit (byteAt e 1) i
/-- R308: DMODE. -/
def aDmode (e : List Byte) : Nat := bitsOf (byteAt e 2) 7 6
/-- R308: TOPROF. -/
def aToprof (e : List Byte) : Nat := bitsOf (byteAt e 2) 5 3
/-- R308: DEST. -/
def aDest (e : List Byte) : Nat := leAt e 4 2
/-- R308: PHACT. -/
def aPhact (e : List Byte) : Nat := byteAt e 7 % 4

/-- R324: the limits of a NAT44 PARAM. -/
def natOk (e : List Byte) : Bool :=
  let inlen := byteAt e 16
  let blk := byteAt e 17
  let pbase := leAt e 18 2
  decide (16 ≤ inlen) && decide (inlen ≤ 32) && decide (6 ≤ blk) && decide (blk ≤ 12) && decide (1024 ≤ pbase) && pbase % 2 ^ blk == 0
    && beAt e 12 4 % 2 ^ (32 - inlen) == 0 && decide (byteAt e 20 < 16) && leAt e 21 3 == 0 && decide (pbase + 2 ^ (32 - inlen + blk) ≤ 65536)

/-- R326: the limits of an NPTV6 PARAM. -/
def nptOk (e : List Byte) : Bool :=
  let plen := byteAt e 20
  decide (1 ≤ plen) && decide (plen ≤ 48) && beAt e 8 6 % 2 ^ (48 - plen) == 0 && beAt e 14 6 % 2 ^ (48 - plen) == 0 && leAt e 21 3 == 0

/-- R309: an entry that a WRITE refuses. -/
def actBad (e : List Byte) : Bool :=
  decide (aKind e > 3) || aDmode e == 3 || leAt e 24 8 != 0 || (aKind e == 2 && aFlag e 2)
    || (decide (aKind e < 2) && leAt e 8 16 != 0) || (aKind e == 2 && !natOk e) || (aKind e == 3 && !nptOk e)
    || (aDmode e == 2 && decide (aDest e ≥ 4096))

/-- R340: a command ends with a CODE. -/
def Dev.actDone (d : Dev) (k code : Nat) : Dev := d.put R.ACT_STAT [k] "CODE" code

/-- R307, R309: ACT_CMD WRITE. -/
def Dev.actWrite (d : Dev) (k i : Nat) : Dev :=
  let e := leBytes 32 (d.staged R.ACT_ENT [k] 8)
  if i ≥ 2 ^ 18 then d.actDone k 1
  else if actBad e then d.actDone k 2
  else { d with act := { d.act with ent := SMap.set d.act.ent (k * 2 ^ 18 + i) e (List.replicate 32 0#8) } }.actDone k 0

/-- R340: ACT_CMD READ. -/
def Dev.actRead (d : Dev) (k i : Nat) : Dev :=
  if i ≥ 2 ^ 18 then d.actDone k 1 else (d.stage R.ACT_ENT [k] 8 (leNat (d.actEnt k i))).actDone k 0

/-! ## The TCP state machine (R314–R318) -/

/-- R315: the class of a segment. -/
inductive Seg where
  | s | sa | a | f | r
  deriving DecidableEq, Repr

/-- R315. -/
def segClass (flags : Nat) : Seg :=
  if hasBit flags 2 then .r else if hasBit flags 1 then (if hasBit flags 4 then .sa else .s) else if hasBit flags 0 then .f else .a

/-- R316: the next state; none refuses. -/
def tcpNext (st : Nat) (c : Seg) (init pickup : Bool) : Option Nat :=
  match c with
  | .s => if !init then none else if st = 0 || st = 7 then some 1 else if st = 1 || st = 2 then some st else none
  | .sa => if init then none else if st = 1 then some 2 else if st = 2 || st = 3 then some st else none
  | .a => if st = 0 then (if pickup then some 3 else none) else if st = 2 then some (if init then 3 else 2)
      else if 3 ≤ st ∧ st ≤ 6 then some st else none
  | .f => if st = 3 then some (if init then 4 else 5) else if st = 4 then some (if init then 4 else 6)
      else if st = 5 then some (if init then 6 else 5) else if st = 6 then some 6 else none
  | .r => if 1 ≤ st ∧ st ≤ 6 then some 7 else none

/-- R317: the idle test. -/
def Dev.tcpExpired (d : Dev) (k : Nat) (e : List Byte) (r : Rec) : Bool :=
  let st := r.tcpst % 16
  let lim := if 1 ≤ st ∧ st ≤ 7 then d.get R.ACT_TO [k, aToprof e, st] "TO_MS" else 0
  lim != 0 && decide ((d.tick k + 2 ^ 24 - r.last % 2 ^ 24) % 2 ^ 24 ≥ lim)

/-! ## Cell plan (R320–R322) -/

/-- R320: the site address of d's zone, when d lies in the site range. -/
def Dev.cpZone (d : Dev) (k a : Nat) : Option Nat :=
  let s := d.get R.CP_CFG [k] "SLEN"
  let h := d.get R.CP_CFG [k] "HBITS"
  let base := d.getW R.CP_SITE [k]
  if a / 2 ^ (32 - s) = base / 2 ^ (32 - s) then some (a / 2 ^ h % 2 ^ (32 - s - h)) else none

/-- R320: INSIDE of a zone whose entry is in use. -/
def Dev.cpInside (d : Dev) (k z : Nat) : Option Nat :=
  if d.bit R.CP_ENT_W1 [k, z] "VALID" then some (d.getW R.CP_ENT_W0 [k, z]) else none

/-- R321: the key zone and destination under a CELLPLAN key form; the flag says CP_MISS counts. -/
def Dev.cpKey (d : Dev) (k zone da : Nat) : Nat × Nat × Bool :=
  if !d.bit R.CP_CFG [k] "EN" then (zone, da, false) else
  match d.cpZone k da with
  | none => (zone, da, false)
  | some z =>
    match d.cpInside k z with
    | none => (zone, da, true)
    | some ins => (z, Nat.lor ins (da % 2 ^ d.get R.CP_CFG [k] "HBITS"), false)

/-- R322: the source and destination after the two tests; none when neither applies. -/
def Dev.cpXlat (d : Dev) (k mz sa da : Nat) : Option (Nat × Nat) :=
  let h := d.get R.CP_CFG [k] "HBITS"
  let out := match d.cpInside k mz with
    | some ins => if sa / 2 ^ h * 2 ^ h = ins then some (Nat.lor (Nat.lor (d.getW R.CP_SITE [k]) (mz * 2 ^ h)) (sa % 2 ^ h)) else none
    | none => none
  let inb := match d.cpZone k da with
    | some z => (d.cpInside k z).map (fun ins => Nat.lor ins (da % 2 ^ h))
    | none => none
  if out.isNone && inb.isNone then none else some (out.getD sa, inb.getD da)

/-! ## Rewriting a frame (R320–R327) -/

/-- What a rewrite changes: addresses and ports of the key headers. -/
structure Xl where
  sa : Nat
  da : Nat
  sp : Nat
  dp : Nat
  deriving DecidableEq, Repr

/-- The IPv4 addresses and ports of a packet as they stand in the frame. -/
def xlOf (fr : List Byte) (ip : Nat) (l4 : Option Nat) : Xl :=
  ⟨beAt fr (ip + 12) 4, beAt fr (ip + 16) 4, (l4.map (fun o => beAt fr o 2)).getD 0, (l4.map (fun o => beAt fr (o + 2) 2)).getD 0⟩

/-- The two 16-bit words of an address, summed. -/
def words32 (a : Nat) : Nat := a / 65536 % 65536 + a % 65536

/-- R327: a check sum field at an offset updated for words changed; a UDP sum of zero stays zero. -/
def fixSum (fr : List Byte) (o old new : Nat) (keepZero : Bool) : List Byte :=
  let c := beAt fr o 2
  if keepZero && c == 0 then fr else patch fr o (beBytes 2 (csumUpdate c old new))

/-- R245, R327: the L4 header of an IPv4 packet; a later fragment (fragment offset not 0) carries none. -/
def l4Of4 (fr : List Byte) (ip : Nat) (l4 : Option Nat) : Option Nat := if beAt fr (ip + 6) 2 % 8192 = 0 then l4 else none

/-- R327: an IPv4 frame with addresses and ports replaced and its check sums updated incrementally. -/
def rewrite4 (fr : List Byte) (ip : Nat) (l4 : Option Nat) (n : Xl) : List Byte :=
  let o := xlOf fr ip l4
  let oldA := words32 o.sa + words32 o.da
  let newA := words32 n.sa + words32 n.da
  let fr1 := patch (patch fr (ip + 12) (beBytes 4 n.sa)) (ip + 16) (beBytes 4 n.da)
  let fr2 := fixSum fr1 (ip + 10) oldA newA false
  match l4 with
  | none => fr2
  | some p =>
    let fr3 := patch (patch fr2 p (beBytes 2 n.sp)) (p + 2) (beBytes 2 n.dp)
    let proto := byteAt fr (ip + 9)
    let old := oldA + o.sp + o.dp
    let new := newA + n.sp + n.dp
    if proto = 6 then fixSum fr3 (p + 16) old new false else if proto = 17 then fixSum fr3 (p + 6) old new true else fr3

/-- R325: NAT44 on a record's form and AUX: the frame's new tuple; none passes it unchanged. -/
def natXlat (e : List Byte) (form aux : Nat) (x : Xl) : Option Xl :=
  let outa := beAt e 8 4
  let inpfx := beAt e 12 4
  let hb := 32 - byteAt e 16
  let blk := byteAt e 17
  let pbase := leAt e 18 2
  if form != byteAt e 20 then
    if x.sa / 2 ^ hb = inpfx / 2 ^ hb then some { x with sa := outa, sp := aux } else none
  else if x.da = outa then
    let j := (x.dp - pbase) / 2 ^ blk
    if x.dp < pbase || decide (j ≥ 2 ^ hb) then none else some { x with da := inpfx + j, dp := aux }
  else none

/-- R326: one address translated between prefixes: none without a match, some none when its word is 0xFFFF. -/
def nptAddr (a src dst plen : Nat) : Option (Option Nat) :=
  let pre := a / 2 ^ 80
  if pre / 2 ^ (48 - plen) != src / 2 ^ (48 - plen) then none
  else
    let w := a / 2 ^ 64 % 65536
    if w = 0xFFFF then some none
    else
      let s := fun v => v / 2 ^ 32 % 65536 + v / 2 ^ 16 % 65536 + v % 65536
      let w' := fold16 (fold16 (w + fold16 (fold16 (s src))) + (65535 - fold16 (fold16 (s dst))))
      let w' := if w' = 0xFFFF then 0 else w'
      some (some ((dst + pre % 2 ^ (48 - plen)) * 2 ^ 80 + w' * 2 ^ 64 + a % 2 ^ 64))

/-- R326: source and destination translated; none when neither matches, some none for a refusal. -/
def nptXlat (e : List Byte) (sa da : Nat) : Option (Option (Nat × Nat)) :=
  let int_ := beAt e 8 6
  let ext := beAt e 14 6
  let plen := byteAt e 20
  match nptAddr sa int_ ext plen, nptAddr da ext int_ plen with
  | none, none => none
  | some none, _ => some none
  | _, some none => some none
  | some (some s), none => some (some (s, da))
  | none, some (some t) => some (some (sa, t))
  | some (some s), some (some t) => some (some (s, t))

/-- R320–R327: the frame after an entry's translation, and whether it counts in ACT_XLAT_NOMATCH. -/
def Dev.translate (d : Dev) (k : Nat) (e : List Byte) (p : Pkt) (form aux : Nat) : List Byte × Bool :=
  match p.ipOff with
  | none => (p.bytes, aKind e != 0)
  | some ip =>
    let fr := p.bytes
    if aKind e = 1 && !p.v6 then
      match d.cpXlat k (leAt p.md 0 2) (beAt fr (ip + 12) 4) (beAt fr (ip + 16) 4) with
      | none => (fr, true)
      | some (s, t) => (rewrite4 fr ip (l4Of4 fr ip p.l4Off) { xlOf fr ip (l4Of4 fr ip p.l4Off) with sa := s, da := t }, false)
    else if aKind e = 2 && !p.v6 then
      match natXlat e form aux (xlOf fr ip p.l4Off) with
      | none => (fr, true)
      | some x => (rewrite4 fr ip p.l4Off x, false)
    else if aKind e = 3 && p.v6 then
      match nptXlat e (beAt fr (ip + 8) 16) (beAt fr (ip + 24) 16) with
      | some (some (s, t)) => (patch (patch fr (ip + 8) (beBytes 16 s)) (ip + 24) (beBytes 16 t), false)
      | _ => (fr, true)
    else (fr, aKind e != 0)

/-- A frame with its FCS computed again. -/
def refcs (fr : List Byte) : List Byte := let b := fr.take (fr.length - 4); b ++ fcsBytes b

/-! ## Balancing (R328–R330) -/

/-- R328: the two words of a group. -/
def Dev.grp (d : Dev) (k i : Nat) : Nat × Nat := let g := SMap.get d.act.grp (k * 4096 + i) []; (g.getD 0 0, g.getD 1 0)
/-- R328: the four words of a backend entry. -/
def Dev.bkw (d : Dev) (k i : Nat) : List Nat := SMap.get d.act.bk (k * 65536 + i % 65536) [0, 0, 0, 0]
/-- R328: STATE of a backend entry: 0 DOWN, 1 ACTIVE, 2 DRAINING. -/
def Dev.bkState (d : Dev) (k i : Nat) : Nat := bitsOf ((d.bkw k i).getD 0 0) 31 30

/-- R329: the member that a fast insertion selects. -/
def Dev.balSelect (d : Dev) (k dest h : Nat) : Option Nat :=
  let (w0, w1) := d.grp k (dest % 4096)
  if !hasBit w0 31 then none else
  let n := 2 ^ (bitsOf w0 27 24 + 8)
  let i := bitsOf h 31 16 % n
  (List.range 8).findSome? (fun p =>
    let m := SMap.get d.act.pool (k * 2 ^ 20 + (256 * bitsOf w0 23 12 + (i + p) % n) % 2 ^ 20) 0 % 4096
    if m ≤ bitsOf w0 11 0 && d.bkState k (bitsOf w1 31 16 + m) == 1 then some m else none)

/-- R330: the backend entry that a pinned flow is steered to. -/
def Dev.balBackend (d : Dev) (k dest aux : Nat) : Nat := (bitsOf (d.grp k (dest % 4096)).2 31 16 + aux % 4096) % 65536

/-- R188, R331: what the action-dependent stages of a packet read when they begin on die k. -/
def Dev.snapOf (d : Dev) (k act aux : Nat) : Snap :=
  let e := d.actEnt k act
  let b := d.balBackend k (aDest e) aux
  ⟨act, aux, e, d.grp k (aDest e % 4096), b, d.bkw k b⟩

/-- R188: what a packet acts on under a record on die k: what its stages read on its own die when they ran under the same ACTION and AUX, else the
entries as they stand. -/
def Dev.snapFor (d : Dev) (k : Nat) (p : Pkt) (r : Rec) : Snap :=
  match p.snap with
  | some s => if k == p.d && s.act == r.action && s.aux == r.aux then s else d.snapOf k r.action r.aux
  | none => d.snapOf k r.action r.aux

/-! ## The evaluation of a stateful packet (R312) -/

/-- What R312 decides: refuse, dispatch with an opcode, or commit with the TCP transition. -/
inductive Eval where
  | refuse
  | dispatch (opcode : Nat)
  | forward (tcp : Option (Nat × Nat))
  deriving DecidableEq, Repr

/-- R239: pattern hits of a packet. -/
def Pkt.hits (p : Pkt) : Nat := byteAt p.md 18

/-- R325, R326: a translation refusal and its counter. -/
def Dev.xlatRefuses (e : List Byte) (p : Pkt) (d : Dev) (k : Nat) : Option Dev :=
  match p.ipOff with
  | none => none
  | some ip =>
    if aKind e = 2 && !p.v6 && p.frag then some (d.bump R.ACT_NAT_FRAG [k] "COUNT" 1)
    else if aKind e = 3 && p.v6 then
      match nptXlat e (beAt p.bytes (ip + 8) 16) (beAt p.bytes (ip + 24) 16) with
      | some none => some (d.bump R.ACT_NPT_FFFF [k] "COUNT" 1)
      | _ => none
    else none

/-- R312 step 3: the TCP check: the part with its counters, and none for a refusal or the transition, if any. -/
def Dev.tcpEval (d : Dev) (k : Nat) (e : List Byte) (r : Rec) (p : Pkt) : Dev × Option (Option (Nat × Nat)) :=
  if !aFlag e 2 || byteAt r.key 3 != 6 then (d, some none) else
  let exp := d.tcpExpired k e r
  let d := if exp then d.bump R.ACT_TCP_EXP [k] "COUNT" 1 else d
  let st := if exp then 7 else r.tcpst % 16
  let l4 := match p.ipOff with | some ip => if p.v6 then p.l4Off else l4Of4 p.bytes ip p.l4Off | none => p.l4Off
  let fl := match l4 with | some o => byteAt p.bytes (o + 13) | none => 0
  match tcpNext st (segClass fl) (r.initiator p.swap) (aFlag e 3) with
  | none => (d.bump R.ACT_TCP_REFUSE [k] "COUNT" 1, none)
  | some n => (d, some (some (r.tcpst, n)))

/-- R312: the evaluation of a packet's action on its home die, in order; `skip` leaves step 7 out, as R362 asks. -/
def Dev.evaluate (d : Dev) (k : Nat) (r : Rec) (p : Pkt) (skip : Bool) : Dev × Eval :=
  let s := d.snapFor k p r
  let e := s.ent
  if r.action ≥ 2 ^ 18 || !aFlag e 0 then (d.bump R.ACT_BAD [k] "COUNT" 1, .refuse)
  else if aFlag e 1 then (d, .refuse)
  else
    match d.tcpEval k e r p with
    | (d, none) => (d, .refuse)
    | (d, some tcp) =>
      let hit := decide (p.hits > 0)
      if hit && aPhact e == 1 then (d, .refuse) else
      match Dev.xlatRefuses e p d k with
      | some d => (d, .refuse)
      | none =>
        let bal := aDmode e == 2 && r.initiator p.swap
        let down := bal && (bitsOf (s.bkw.getD 0 0) 31 30 == 0 || !hasBit s.grp.1 31)
        let dop := bitsOf s.grp.2 15 8
        if down && dop == 0 then (d.bump R.BAL_DOWN_DROP [k] "COUNT" 1, .refuse)
        else if skip then (d, .forward tcp)
        else if aFlag e 4 || (hit && aPhact e == 2) then (d, .dispatch (byteAt e 3))
        else if down then (d, .dispatch dop)
        else (d, .forward tcp)

/-! ## Where a packet goes (R313, R332–R334) -/

/-- R333: the record of a mirror session of the active TELEM section. -/
def Dev.session (d : Dev) (n : Nat) : Option (List Byte) :=
  match d.body 0x0F with
  | none => none
  | some b => ((List.range (byteAt b 1)).map (fun i => sliceB b (16 + 72 * byteAt b 0 + 16 * i) 16)).find? (fun r => byteAt r 0 == n && hasBit (byteAt r 1) 0)

/-- R313, R330: DEST of a committed packet, and whether it is steered to its backend. -/
def Snap.destOf (s : Snap) (init : Bool) (p : Pkt) : Nat × Bool :=
  if aDmode s.ent = 1 then (aDest s.ent, false)
  else if aDmode s.ent = 2 && init then (bitsOf (s.bkw.getD 0 0) 15 0, true)
  else (leAt p.md 8 2, false)

/-- R313: the traffic class of a committed packet. -/
def classOf (e : List Byte) (md : List Byte) : Nat := if aFlag e 5 then byteAt e 2 % 8 else byteAt md 7 % 8

/-- R330: the backend's LAST and the destination MAC of a steered packet. -/
def Dev.steer (d : Dev) (k : Nat) (s : Snap) (fr : List Byte) : Dev × List Byte :=
  let d := { d with act := { d.act with bk := SMap.put d.act.bk (k * 65536 + s.bk) (setAt (d.bkw k s.bk) 3 (d.tick k)) } }
  let w := s.bkw
  (d, if hasBit (w.getD 0 0) 29 then patch fr 0 (beBytes 6 (w.getD 1 0 + w.getD 2 0 % 65536 * 2 ^ 32)) else fr)

/-- R332, R334: the session whose copy a committed packet makes, by direction or by a pattern hit. -/
def mirrorOf (e : List Byte) (init : Bool) (hits : Nat) : Option Nat :=
  if (decide (hits > 0) && aPhact e == 3) || (init && hasBit (byteAt e 6) 4) || (!init && hasBit (byteAt e 6) 5) then some (byteAt e 6 % 16) else none

/-- R334: sampling: the session takes one eligible packet in 2^SAMPLE of each region. -/
def Dev.mirrorSample (d : Dev) (g n samp : Nat) : Dev × Bool :=
  let c := SMap.get d.act.samp (n * 4 + g) 0
  ({ d with act := { d.act with samp := SMap.put d.act.samp (n * 4 + g) (c + 1) } }, c % 2 ^ samp == 0)

/-! ## Cell-plan and balancer commands (R323, R331) -/

/-- R323: a CP_ENT word 0 write is held; a word 1 write takes effect with the word 0 held for the entry. -/
def Dev.cpWrite (d : Dev) (k z w v : Nat) : Dev :=
  let key := k * 65536 + z
  if w = 0 then { d with act := { d.act with cpHeld := SMap.put d.act.cpHeld key v } }
  else
    let d := match SMap.look d.act.cpHeld key with
      | some ins => d.setW R.CP_ENT_W0 [k, z] ins
      | none => d
    { d with act := { d.act with cpHeld := SMap.del d.act.cpHeld key } }.put R.CP_ENT_W1 [k, z] "VALID" (bitsOf v 31 31)

/-- R340: a balancer command ends with a CODE. -/
def Dev.balDone (d : Dev) (k code : Nat) : Dev := d.put R.BAL_STAT [k] "CODE" code

/-- A staged word. -/
def Dev.balData (d : Dev) (k w : Nat) : Nat := d.getW R.BAL_DATA [k, w]

/-- R331: the index a command acts on. -/
def Dev.balIdx (d : Dev) (k : Nat) : Nat := d.get R.BAL_IDX [k] "INDEX"

/-- R328, R331: GWRITE. -/
def Dev.balGwrite (d : Dev) (k : Nat) : Dev :=
  let i := d.balIdx k
  let w0 := d.balData k 0
  let w1 := d.balData k 1
  let lg := bitsOf w0 27 24
  if i ≥ 4096 then d.balDone k 1
  else if bitsOf w0 30 28 != 0 || bitsOf w1 7 0 != 0 || decide (lg > 8) || bitsOf w0 23 12 % 2 ^ lg != 0 then d.balDone k 2
  else { d with act := { d.act with grp := SMap.put d.act.grp (k * 4096 + i) [w0, w1] } }.balDone k 0

/-- R331: GREAD. -/
def Dev.balGread (d : Dev) (k : Nat) : Dev :=
  let i := d.balIdx k
  if i ≥ 4096 then d.balDone k 1
  else ((d.setW R.BAL_DATA [k, 0] (d.grp k i).1).setW R.BAL_DATA [k, 1] (d.grp k i).2).balDone k 0

/-- R328, R331: MWRITE; LAST is read-only. -/
def Dev.balMwrite (d : Dev) (k : Nat) : Dev :=
  let i := d.balIdx k
  let w0 := d.balData k 0
  let w2 := d.balData k 2
  if i ≥ 65536 then d.balDone k 1
  else if bitsOf w0 31 30 == 3 || bitsOf w0 28 16 != 0 || decide (w2 ≥ 65536) then d.balDone k 2
  else { d with act := { d.act with bk := SMap.put d.act.bk (k * 65536 + i) [w0, d.balData k 1, w2, (d.bkw k i).getD 3 0] } }.balDone k 0

/-- R331: MREAD. -/
def Dev.balMread (d : Dev) (k : Nat) : Dev :=
  let i := d.balIdx k
  if i ≥ 65536 then d.balDone k 1
  else ((List.range 4).foldl (fun d w => d.setW R.BAL_DATA [k, w] ((d.bkw k i).getD w 0)) d).balDone k 0

/-- R331, R340: LWRITE of eight pool entries from an INDEX that is a multiple of 8. -/
def Dev.balLwrite (d : Dev) (k : Nat) : Dev :=
  let i := d.balIdx k
  let vs := (List.range 4).flatMap (fun w => [d.balData k w % 65536, d.balData k w / 65536])
  if i % 8 != 0 then d.balDone k 1
  else if vs.any (fun v => decide (v ≥ 4096)) then d.balDone k 2
  else
    let pool := (vs.zip (List.range 8)).foldl (fun m x => SMap.set m (k * 2 ^ 20 + i + x.2) x.1 0) d.act.pool
    { d with act := { d.act with pool := pool } }.balDone k 0

/-- R331: LREAD. -/
def Dev.balLread (d : Dev) (k : Nat) : Dev :=
  let i := d.balIdx k
  if i % 8 != 0 then d.balDone k 1
  else
    let at_ := fun j => SMap.get d.act.pool (k * 2 ^ 20 + i + j) 0
    ((List.range 4).foldl (fun d w => d.setW R.BAL_DATA [k, w] (at_ (2 * w) + 65536 * at_ (2 * w + 1))) d).balDone k 0

end Sys2Proof.Machine
end

