-- ==== Sys2Proof/Machine/Buf.lean ====
section
/-! DEFINITION. Buffers, queues and the region fabric (chapter 12): cells, references, admission, VOQs, the central scheduler, the
compatibility fabric, spill and the wadi; with the port facts they rest on and the PFC frames that follow cell use (R551). -/

namespace Sys2Proof.Machine

/-! ## Ports as the queues see them -/

/-- The indices of a front port's registers: die, region window, lane. -/
def macIx (p : Nat) : List Nat := [p / 32, p / 16 % 2, p % 16]

/-- R526: lanes of a MODE. -/
def modeLanes (m : Nat) : Nat :=
  if m = 0 then 0 else if m = 9 then 8 else if m = 4 || m = 7 || m = 10 then 4 else if m = 5 || m = 8 then 2 else 1

/-- R526: the rate of a MODE in Gb/s. -/
def modeRate (m : Nat) : Nat :=
  if m = 1 then 10 else if m = 2 then 25 else if m = 3 then 50 else if 4 ≤ m ∧ m ≤ 6 then 100 else if m = 7 || m = 8 then 200
  else if m = 9 || m = 10 then 400 else 0

/-- The rate of a front port. -/
def Dev.portRate (d : Dev) (p : Nat) : Nat := modeRate (d.get R.MAC_PORT_CFG (macIx p) "MODE")

/-- R536: a front port is UP. -/
def Dev.linkUp (d : Dev) (p : Nat) : Bool := d.get R.MAC_LINK (macIx p) "STATE" == 3

/-- R527: the port that a lane belongs to. -/
def Dev.portOfLane (d : Dev) (ln : Nat) : Option Nat :=
  (span (ln / 16 * 16) ln).find? (fun p => decide (ln < p + modeLanes (d.get R.MAC_PORT_CFG (macIx p) "MODE")))

/-- R536: a front port's lanes carry frames: LOCKED, UP, or FAULT with every lane still locked. -/
def Dev.linkRx (d : Dev) (p : Nat) : Bool :=
  let s := d.get R.MAC_LINK (macIx p) "STATE"
  s == 2 || s == 3 || (s == 4 && d.get R.MAC_LINK (macIx p) "LANES" == 2 ^ modeLanes (d.get R.MAC_PORT_CFG (macIx p) "MODE") - 1)

/-- R557: the enabled group of a front port. -/
def Dev.protOf (d : Dev) (p : Nat) : Option Nat :=
  (List.range 8).find? (fun n =>
    let ix := [p / 32, p / 16 % 2, n]
    d.bit R.MAC_PROT ix "EN" && (d.get R.MAC_PROT ix "WORK" == p % 16 || d.get R.MAC_PROT ix "PROT" == p % 16))

/-- R558: the active port of group n of region g. -/
def Dev.protActive (d : Dev) (g n : Nat) : Nat :=
  let ix := [g / 2, g % 2, n]
  16 * g + (if d.bit R.MAC_PROT ix "ACTIVE" then d.get R.MAC_PROT ix "PROT" else d.get R.MAC_PROT ix "WORK")

/-- R558: the port that takes the traffic of a front port. -/
def Dev.activePort (d : Dev) (p : Nat) : Nat := match d.protOf p with | some n => d.protActive (p / 16) n | none => p

/-- R555, R556, R558: a target port is down past its hold. -/
def Dev.flushed (d : Dev) (p : Nat) : Bool := decide (p < 64) && d.bit R.MAC_LINK (macIx (d.activePort p)) "FLUSHED"

/-- R568: a counter of a front port. -/
def Dev.macCnt (d : Dev) (p k n : Nat) : Dev := if p < 64 then d.bump R.MAC_CNT (macIx p ++ [k]) "COUNT" n else d

/-! ## Injections (R616, R617) -/

/-- R616: the KIND of an armed injection of a source instance at an address. -/
def Dev.injAt (d : Dev) (k code inst addr : Nat) : Option Nat :=
  if d.injArmed k code inst && d.injAddr k == addr then some (d.get R.ERR_INJ [k] "KIND") else none

/-! ## Ports' egress state -/

/-- A port that has never sent. -/
def Egr.zero : Egr := ⟨none, [], 0, List.replicate 8 true, 0, 0, List.replicate 8 0, List.replicate 8 0, 0, List.replicate 8 0, [], 0, 0, none⟩

/-- The egress state of a port. -/
def Dev.egrOf (d : Dev) (p : Nat) : Egr := SMap.get d.egr.ports p Egr.zero

/-- The egress state of a port rewritten. -/
def Dev.updEgr (d : Dev) (p : Nat) (f : Egr → Egr) : Dev :=
  { d with egr := { d.egr with ports := SMap.put d.egr.ports p (f (d.egrOf p)) } }

/-! ## What a lane transmits (R528, R533, R563, R566) -/

/-- R563: the distances of the earlier bits whose sum is a bit of the sequence that POLY selects. PRESUMED: the polynomials of ITU-T O.150, log entry 155. -/
def prbsTaps (poly : Nat) : List Nat := [[6, 7], [5, 9], [1, 2, 12, 13], [14, 15], [18, 23], [28, 31]].getD poly []

/-- R563: the next bit of a sequence after the bits of `h`, newest first. -/
def prbsBit (poly : Nat) (h : List Bool) : Bool := (prbsTaps poly).foldl (fun b t => Bool.xor b (h.getD (t - 1) false)) false

/-- R563: the next n bits of a sequence, inverted under INV. -/
def prbsBits (poly : Nat) (inv : Bool) : Nat → List Bool → List Bool
  | 0, _ => []
  | n + 1, h => let b := prbsBit poly h; Bool.xor b inv :: prbsBits poly inv n (b :: h)

/-- R563: two bits as one PAM4 symbol, Gray coded. PRESUMED: the levels of IEEE 802.3, log entry 155. -/
def gray : Bool → Bool → Nat
  | false, false => 0
  | false, true => 1
  | true, true => 2
  | true, false => 3

/-- R563: bits as PAM4 symbols. -/
def pam4 : List Bool → List Nat
  | a :: b :: l => gray a b :: pam4 l
  | _ => []

/-- R528, R533, R563, R566: what a lane's transmitter sends: nothing; a PRBS; the data that its receiver recovers; its port's stream, with or without remote
fault. -/
inductive LaneOut where
  | squelched
  | prbs (poly : Nat) (inv pam4 : Bool)
  | recovered
  | port (p : Nat) (fault : Bool)
  deriving DecidableEq, Repr

/-- R526: the modes whose lanes are PAM4. -/
def modePam4 (m : Nat) : Bool := m == 3 || decide (5 ≤ m)

/-- R528: the lanes are powered from LOAD until REST. -/
def Dev.lanesOn (d : Dev) : Bool := [Mode.load, .run, .drain, .proof].contains d.glb.mode

/-- R566: the loopback of a lane; the reserved value selects none: DESIGN CHOICE, log entry 156. -/
def Dev.loopOf (d : Dev) (ln : Nat) : Nat := let n := d.get R.SDS_CTL (macIx ln) "LOOP"; if n = 3 then 0 else n

/-- R528, R533: the port that a lane transmits for. -/
def Dev.sender (d : Dev) (ln : Nat) : Option Nat :=
  (d.portOfLane ln).filter (fun p => d.bit R.MAC_PORT_CTL (macIx p) "ADMIN" && d.running)

/-- R528, R563: the data that a lane has to transmit, before a loopback: a generator replaces the port's. A lane of no port is not PAM4: DESIGN CHOICE, log
entry 156. -/
def Dev.laneData (d : Dev) (ln : Nat) : LaneOut :=
  if !d.lanesOn then .squelched
  else if d.bit R.SDS_PRBS_CTL (macIx ln) "GEN_EN" then
    .prbs (d.get R.SDS_PRBS_CTL (macIx ln) "POLY") (d.bit R.SDS_PRBS_CTL (macIx ln) "INV")
      (match d.portOfLane ln with | some p => modePam4 (d.get R.MAC_PORT_CFG (macIx p) "MODE") | none => false)
  else match d.sender ln with
    | some p => .port p (!d.linkUp p)
    | none => .squelched

/-- R528, R566: what a lane's transmitter sends: a near-end loopback keeps it squelched, a far-end one sends what the receiver recovers. -/
def Dev.laneOut (d : Dev) (ln : Nat) : LaneOut :=
  if d.loopOf ln = 1 then .squelched
  else if d.loopOf ln = 2 then (if d.lanesOn && d.bit R.SDS_RX_STAT (macIx ln) "CDR_LOCK" then .recovered else .squelched)
  else d.laneData ln

/-- The lanes of a front port. -/
def Dev.lanesOf (d : Dev) (p : Nat) : List Nat := (List.range (modeLanes (d.get R.MAC_PORT_CFG (macIx p) "MODE"))).map (p + ·)

/-- R528, R563, R566: where the stream of a port goes: to the wire, back to its own receiver (near-end loopback on all its lanes), or, when a generator or a
loopback stands in the way of a lane, nowhere. -/
def Dev.txOut (d : Dev) (p : Nat) (b : List Byte) : Dev :=
  let ls := d.lanesOf p
  if ls.all (fun l => d.laneOut l == d.laneData l && !d.bit R.SDS_PRBS_CTL (macIx l) "GEN_EN") then { d with egr := { d.egr with sent := d.egr.sent ++ [(p, b)] } }
  else if ls.all (fun l => d.loopOf l == 1 && !d.bit R.SDS_PRBS_CTL (macIx l) "GEN_EN") then { d with egr := { d.egr with looped := d.egr.looped ++ [(p, b)] } }
  else d

/-- R566: whether a frame reaches the MAC of a port through its lanes' receive path: under near-end loopback only what the port itself sent does, and a frame
that far-end loopback recovers goes out again in place of the port's own: DEDUCED, log entry 156. -/
def Dev.rxPath (d : Dev) (p : Nat) (fr : List Byte) : Dev × Bool :=
  let ls := d.lanesOf p
  if ls.all (fun l => d.loopOf l == 0) then (d, true)
  else if ls.all (fun l => d.loopOf l == 1) then
    if (d.egr.looped.find? (fun x => x.1 == p)) == some (p, fr) then ({ d with egr := { d.egr with looped := d.egr.looped.erase (p, fr) } }, true) else (d, false)
  else if ls.all (fun l => d.laneOut l == .recovered) then ({ d with egr := { d.egr with sent := d.egr.sent ++ [(p, fr)] } }, false)
  else (d, false)

/-! ## MAC control frames (R546, R551, R552) -/

/-- A MAC control frame of 64 bytes. Its source address is a free value: the spec names none. -/
def macCtl (src : Nat) (body : List Byte) : List Byte :=
  let b := [0x01#8, 0x80#8, 0xC2#8, 0x00#8, 0x00#8, 0x01#8] ++ beBytes 6 src ++ [0x88#8, 0x08#8] ++ body
  let b := sliceB b 0 60
  b ++ fcsBytes b

/-- R561: the port is the PROT of a group whose revert waits for its frame boundary. -/
def Dev.reverting (d : Dev) (p : Nat) : Bool :=
  d.egr.revert.any (fun x => x / 8 == p / 16 && d.get R.MAC_PROT [x / 16, x / 8 % 2, x % 8] "PROT" == p % 16)

/-- A MAC control frame in transmission: no class, and its counter of R568 in place of a length. -/
def Tx.ctl (cnt : Nat) (b : List Byte) : Tx := ⟨none, none, b, cnt, false, false⟩

/-- R552: a MAC control frame joins those that a port sends at its next frame boundary, which at an idle port is now; a port that is not UP sends none. -/
def Dev.sendCtl (d : Dev) (p cnt : Nat) (body : List Byte) : Dev :=
  if !d.linkUp p then d else
  let (src, d) := d.fresh (2 ^ 48)
  let g := d.egrOf p
  let b := macCtl src body
  if g.tx.isNone && g.ctl.isEmpty && !d.reverting p then d.updEgr p (fun e => { e with tx := some (Tx.ctl cnt b) })
  else d.updEgr p (fun e => { e with ctl := e.ctl ++ [(cnt, b)] })

/-- R551: a PFC frame for a set of classes, all with one time. -/
def pfcBody (mask q : Nat) : List Byte :=
  [0x01#8, 0x01#8] ++ beBytes 2 mask ++ (List.range 8).flatMap (fun c => beBytes 2 (if hasBit mask c then q else 0))

/-- R551: a PFC frame that covers class c too. -/
def pfcMerge (b : List Byte) (c q : Nat) : List Byte :=
  macCtl (beAt b 6 6) ([0x01#8, 0x01#8] ++ beBytes 2 (Nat.lor (beAt b 16 2) (2 ^ c)) ++
    (List.range 8).flatMap (fun i => beBytes 2 (if i = c then q else beAt b (18 + 2 * i) 2)))

/-- R551: PFC for class c of a port, in the PFC frame made at this moment if there is one. What one moment is: one raw count, DESIGN CHOICE, log entry 154. -/
def Dev.sendPfc (d : Dev) (p c q : Nat) : Dev :=
  if !d.linkUp p then d else
  let g := d.egrOf p
  let now := d.tim.raw.get (p / 32)
  let mine := g.pfcAt == some now
  match g.ctl.getLast?, g.tx with
  | some (10, b), _ =>
    if mine then d.updEgr p (fun e => { e with ctl := e.ctl.dropLast ++ [(10, pfcMerge b c q)] })
    else (d.sendCtl p 10 (pfcBody (2 ^ c) q)).updEgr p (fun e => { e with pfcAt := some now })
  | _, some t =>
    if mine && t.cls.isNone && t.len == 10 then d.updEgr p (fun e => { e with tx := some (Tx.ctl 10 (pfcMerge t.bytes c q)) })
    else (d.sendCtl p 10 (pfcBody (2 ^ c) q)).updEgr p (fun e => { e with pfcAt := some now })
  | _, none => (d.sendCtl p 10 (pfcBody (2 ^ c) q)).updEgr p (fun e => { e with pfcAt := some now })

/-- R551: cells of port p in ingress class c cross XOFF or fall to XON. A class that generates no PFC is in neither state. -/
def Dev.pfcCheck (d : Dev) (pc : Nat) : Dev :=
  let p := pc / 8
  let c := pc % 8
  let n := SMap.get d.buf.held pc 0
  let off := d.buf.xoff.contains pc
  let clear := fun (d : Dev) => { d with buf := { d.buf with xoff := d.buf.xoff.filter (· != pc) } }
  if p ≥ 64 then d
  else if !d.bit R.MAC_PORT_CFG (macIx p) "PFC_EN" || !hasBit (d.get R.MAC_PFC_TX (macIx p) "EN") c then clear d
  else if !off && decide (n ≥ d.get R.MAC_PFC_TX (macIx p) "XOFF") then
    { d with buf := { d.buf with xoff := d.buf.xoff ++ [pc] } }.sendPfc p c (d.get R.MAC_PFC_QUANTA (macIx p) "QUANTA")
  else if off && decide (n ≤ d.get R.MAC_PFC_TX (macIx p) "XON") then (clear d).sendPfc p c 0
  else d

/-- R551: every class of a port, after a write of what the classes are compared with. -/
def Dev.pfcLook (d : Dev) (p : Nat) : Dev := (List.range 8).foldl (fun d c => d.pfcCheck (8 * p + c)) d

/-- R551: cells of a frame's port and class taken or given back. -/
def Dev.holdCells (d : Dev) (inp : Option Nat) (f : Nat → Nat) : Dev :=
  match inp with
  | none => d
  | some pc => { d with buf := { d.buf with held := SMap.set d.buf.held pc (f (SMap.get d.buf.held pc 0)) 0 } }.pfcCheck pc

/-! ## Cells (R420–R424) -/

/-- R434, R436: why an allocation is refused. -/
inductive Refuse where
  | nocell | quota
  deriving DecidableEq, Repr

/-- Cells of a frame. -/
def cellsOf (len : Nat) : Nat := (len + 255) / 256

/-- R421: the metadata of a cell while it is allocated. -/
def Dev.cellAt (d : Dev) (key : Nat) : Option Cell := (SMap.look d.buf.cells key).filter (·.alloc)

/-- The metadata of a cell replaced. -/
def Dev.setCell (d : Dev) (key : Nat) (m : Cell) : Dev := { d with buf := { d.buf with cells := SMap.put d.buf.cells key m } }

/-- R422: whether a cell is free. -/
def Dev.cellFree (d : Dev) (k c : Nat) : Bool := (d.cellAt (k * 2 ^ 18 + c)).isNone

/-- R422: the lowest free cell of the first word, from w on and wrapping, that has one. -/
def Dev.wordScan (d : Dev) (k : Nat) : Nat → Nat → Option Nat
  | 0, _ => none
  | n + 1, w =>
    match (List.range 64).find? (fun b => d.cellFree k (64 * w + b)) with
    | some b => some (64 * w + b)
    | none => Dev.wordScan d k n ((w + 1) % 4096)

/-- R461: the size of a partition; the reserved pool has 4,096 cells. -/
def Dev.partSize (d : Dev) (k n : Nat) : Nat := if n = 16 then 4096 else d.get R.BUF_PART_SIZE [k, n] "SIZE"

/-- R452: the pieces of the page being read. -/
def Voq.rdPs (q : Voq) : List Piece := match q.rd with | some p => p.ps | none => []

/-- R451, R452: the pieces of a VOQ that are off the chip: written pages, the page being read, pieces returned of an entry whose end has not. -/
def Voq.far (q : Voq) : List Piece := q.pages.flatMap (·.ps) ++ q.rdPs ++ q.got

/-- A page with a test of its pieces kept. -/
def Page.keep (p : Page) (f : Piece → Bool) : Page := { p with ps := p.ps.filter f }

/-- R444, R452: cells reserved on a die: (agent, partition, cells) of transfers and page reads in progress. -/
def Dev.reserved (d : Dev) (k : Nat) : List (Nat × Nat × Nat) :=
  d.buf.xfer.filterMap (fun x =>
    let g := if x.1 < 16 then x.1 / 4 else (x.1 - 16) / 520
    if g / 2 = k || x.2.rsv = 0 then none
    else some (9, (match (SMap.look d.buf.voq (g * 520 + x.2.v)).bind (·.ents.head?) with | some e => e.part | none => 0), x.2.rsv))
  ++ d.buf.voq.flatMap (fun x => if x.1 / 1040 = k then (x.2.rdPs ++ x.2.got).map (fun p => (10, p.ent.part, p.n)) else [])

/-- The cells of a list of reservations that a test passes. -/
def sumResv (l : List (Nat × Nat × Nat)) (f : Nat → Nat → Bool) : Nat := ((l.filter (fun x => f x.1 x.2.1)).map (fun x => x.2.2)).sum

/-- R434: whether more cells, (partition, cells) of a list, are refused to an agent; reserved cells count as taken. -/
def Dev.refusesAll (d : Dev) (k agent : Nat) (l : List (Nat × Nat)) : Option Refuse :=
  let r := d.reserved k
  let n := (l.map Prod.snd).sum
  if decide (d.get R.BUF_AGUSE [k, agent] "USE" + sumResv r (fun a _ => a == agent) + n > d.get R.BUF_AGQ [k, agent] "LIMIT")
      || l.any (fun x => decide (d.get R.BUF_PART_USE [k, x.1] "USE" + sumResv r (fun _ p => p == x.1)
          + ((l.filter (fun y => y.1 == x.1)).map Prod.snd).sum > d.partSize k x.1)) then some .quota
  else if d.get R.BUF_FREE [k] "CELLS" < sumResv r (fun _ _ => true) + n then some .nocell
  else none

/-- R434: whether n more cells are refused to an agent and partition. -/
def Dev.refuses (d : Dev) (k agent part n : Nat) : Option Refuse := d.refusesAll k agent [(part, n)]

/-- A use counter raised or lowered. -/
def Dev.useAdd (d : Dev) (r : RegSpec) (ix : List Nat) (n : Nat) : Dev := d.put r ix "USE" (d.get r ix "USE" + n)
/-- A use counter lowered. -/
def Dev.useSub (d : Dev) (r : RegSpec) (ix : List Nat) (n : Nat) : Dev := d.put r ix "USE" (d.get r ix "USE" - n)

/-- R422, R433: one cell allocated: the part with its free count and uses changed, and the cell. -/
def Dev.allocCell (d : Dev) (k agent part : Nat) (inp : Option Nat) : Dev × Option Nat :=
  match d.wordScan k 4096 (d.buf.start.get k) with
  | none => (d, none)
  | some c =>
    let cell : Cell := ⟨true, agent, part, 0, false, true, 255, 0, inp⟩
    let d := d.setCell (k * 2 ^ 18 + c) cell
    let d := { d with buf := { d.buf with start := d.buf.start.set k (c / 64) } }
    let d := d.put R.BUF_FREE [k] "CELLS" (d.get R.BUF_FREE [k] "CELLS" - 1)
    (((d.useAdd R.BUF_AGUSE [k, agent] 1).useAdd R.BUF_PART_USE [k, part] 1).holdCells inp (· + 1), some c)

/-- R426: one cell given back: its bit, ALLOC and the use counts; what is still to come of a frame whose head it is finds no cell. -/
def Dev.freeCell (d : Dev) (key : Nat) : Dev :=
  match d.cellAt key with
  | none => d
  | some m =>
    let k := key / 2 ^ 18
    let d := d.setCell key { m with alloc := false }
    let d := { d with buf := { d.buf with arr := d.buf.arr.filter (fun a => a.head != key) } }
    let d := d.put R.BUF_FREE [k] "CELLS" (d.get R.BUF_FREE [k] "CELLS" + 1)
    ((d.useSub R.BUF_AGUSE [k, m.owner] 1).useSub R.BUF_PART_USE [k, m.part] 1).holdCells m.inp (· - 1)

/-- R420–R422: n cells, one after another, until one is refused; the cells so far are given back on a refusal. -/
def Dev.allocCells (k agent part : Nat) (inp : Option Nat) (check : Bool) : Nat → List Nat → Dev → Dev × Except Refuse (List Nat)
  | 0, acc, d => (d, .ok acc.reverse)
  | n + 1, acc, d =>
    let give := fun (d : Dev) => acc.foldl (fun d c => d.freeCell (k * 2 ^ 18 + c)) d
    match if check then d.refuses k agent part 1 else none with
    | some r => (give d, .error r)
    | none =>
      match d.allocCell k agent part inp with
      | (d, none) => (give d, .error .nocell)
      | (d, some c) => Dev.allocCells k agent part inp check n (c :: acc) d

/-- R421: the chain of cells linked, with REF 1 in the head; `fill` is FILL of the last. -/
def Dev.linkCells (k fill : Nat) : List Nat → Bool → Dev → Dev
  | [], _, d => d
  | c :: l, first, d =>
    let f := fun (m : Cell) => { m with head := first, ref := if first then 1 else 0, last := l.isEmpty,
                                        fill := if l.isEmpty then fill else 255, next := l.headD 0 }
    let d := match d.cellAt (k * 2 ^ 18 + c) with | some m => d.setCell (k * 2 ^ 18 + c) (f m) | none => d
    Dev.linkCells k fill l false d

/-- R421: FILL of the last cell of a frame. -/
def fillOf (len : Nat) : Nat := (len + 255) % 256

/-- R436: a refusal counted for its agent. -/
def Dev.refused (d : Dev) (k agent : Nat) (r : Refuse) : Dev :=
  match r with
  | .nocell => d.bump R.BUF_NOCELL_CNT [k, agent] "COUNT" 1
  | .quota => d.bump R.BUF_QUOTA_CNT [k, agent] "COUNT" 1

/-! ## Virtual output queues (R438, R450) -/

/-- A VOQ that holds nothing. -/
def Voq.zero : Voq := ⟨[], [], none, [], [], false⟩

/-- VOQ v of region g. -/
def Dev.voqOf (d : Dev) (g v : Nat) : Voq := SMap.get d.buf.voq (g * 520 + v) Voq.zero

/-- VOQ v of region g replaced. -/
def Dev.setVoq (d : Dev) (g v : Nat) (q : Voq) : Dev := { d with buf := { d.buf with voq := SMap.set d.buf.voq (g * 520 + v) q Voq.zero } }

/-- Cells of entries. -/
def entsCells (l : List QEnt) : Nat := (l.map (·.n)).sum

/-- R201, R450: the cells of a VOQ's committed entries. -/
def Voq.settled (q : Voq) : Nat :=
  entsCells (q.ents.filter (·.committed)) + (q.far.map (·.n)).sum
    + ((q.tail.filter (fun x => x.1.committed)).map (fun x => x.1.n - x.2)).sum

/-- R201, R450: entering spill: a VOQ whose committed entries reach ON, or the free cells of whose head packet's partition are below LOW. -/
def Dev.spillCheck (d : Dev) (g v : Nat) : Dev :=
  let q := d.voqOf g v
  let k := g / 2
  let cls := byteAt ((d.body 0x06).getD []) 2
  if q.spill || q.settled = 0 || !hasBit cls (v % 8) then d else
  let low := match q.ents.head? with
    | some e => decide (d.partSize k e.part - d.get R.BUF_PART_USE [k, e.part] "USE" < d.get R.BUF_PART_LOW [k] "LOW")
    | none => false
  if decide (q.settled ≥ d.get R.BUF_SPILL_CFG [k] "ON") || low then
    (d.setVoq g v { q with spill := true }).put R.BUF_SPILL_ACT [k] "VOQS" (d.get R.BUF_SPILL_ACT [k] "VOQS" + 1)
  else d

/-- R450: the VOQs of a die that now enter spill: a use or a partition has changed. -/
def Dev.spillScan (d : Dev) (k : Nat) : Dev :=
  d.buf.voq.foldl (fun d x => if x.1 / 1040 = k then d.spillCheck (x.1 / 520) (x.1 % 520) else d) d

/-! ## Frames' cells -/

/-- R422, R434, R436: n cells of a frame allocated and linked: the cells, or the refusal, counted for the agent. -/
def Dev.allocChain (d : Dev) (k agent part n fill : Nat) (inp : Option Nat) (check : Bool) : Dev × Except Refuse (List Nat) :=
  match Dev.allocCells k agent part inp check n [] d with
  | (d, .ok cs) => ((Dev.linkCells k fill cs true d).spillScan k, .ok cs)
  | (d, .error r) => (d.refused k agent r, .error r)

/-- R422, R434, R436: a frame's cells allocated and linked: the head cell, or the refusal, counted for the agent. -/
def Dev.allocFrame (d : Dev) (k agent part len : Nat) (inp : Option Nat) (check : Bool := true) : Dev × Except Refuse Nat :=
  match d.allocChain k agent part (cellsOf len) (fillOf len) inp check with
  | (d, .ok cs) => (d, .ok (k * 2 ^ 18 + cs.headD 0))
  | (d, .error r) => (d, .error r)

/-- R420, R434, R436: the next cell of an arriving frame, linked behind the last; or the refusal, counted. -/
def Dev.arriveCell (d : Dev) (a : Arr) : Dev × Except Refuse Arr :=
  let k := a.head / 2 ^ 18
  match d.refuses k a.agent a.part 1 with
  | some r => (d.refused k a.agent r, .error r)
  | none =>
    match d.allocCell k a.agent a.part a.inp with
    | (d, none) => (d.refused k a.agent .nocell, .error .nocell)
    | (d, some c) =>
      let d := match d.cellAt a.last with | some m => d.setCell a.last { m with last := false, next := c } | none => d
      let d := match d.cellAt (k * 2 ^ 18 + c) with
        | some m => d.setCell (k * 2 ^ 18 + c) { m with fill := if a.left = 1 then fillOf a.len else 255 }
        | none => d
      (d.spillScan k, .ok { a with last := k * 2 ^ 18 + c, left := a.left - 1 })

/-- Cells that a packet's frame still has to come. -/
def Dev.leftOf (d : Dev) (head : Nat) : Nat := match d.buf.arr.find? (fun a => a.head == head) with | some a => a.left | none => 0

/-! ## References and frees (R425–R429) -/

/-- R607: DETAIL of a buffer event. -/
def bufDetail (c agent tag port : Nat) : List Byte :=
  leBytes 3 (c % 2 ^ 18) ++ [BitVec.ofNat 8 agent, BitVec.ofNat 8 tag, BitVec.ofNat 8 port]

/-- R429: a double free of a cell, ignored and logged. -/
def Dev.doubleFree (d : Dev) (key tag : Nat) (inj : Bool) : Dev :=
  let k := key / 2 ^ 18
  let d := ((d.put R.BUF_DFREE [k] "VALID" 1).put R.BUF_DFREE [k] "AGENT" tag).put R.BUF_DFREE [k] "CELL" (key % 2 ^ 18)
  (d.bump R.BUF_DFREE_CNT [k] "COUNT" 1).errEvent (mkEvent k 0x40 0 2 1 (bufDetail key tag tag 0xFF)) inj

/-- R429: a non-owner free of a cell, ignored and logged. -/
def Dev.nonOwner (d : Dev) (key agent tag : Nat) (inj : Bool) : Dev :=
  let k := key / 2 ^ 18
  let d := ((d.put R.BUF_NONOWN [k] "VALID" 1).put R.BUF_NONOWN [k] "AGENT" agent).put R.BUF_NONOWN [k] "TAG" tag
  ((d.put R.BUF_NONOWN [k] "CELL" (key % 2 ^ 18)).bump R.BUF_NONOWN_CNT [k] "COUNT" 1).errEvent
    (mkEvent k 0x40 0 2 2 (bufDetail key agent tag 0xFF)) inj

/-- R430, R602: a read of the metadata of a cell: an injected fault of the word is found here. -/
def Dev.metaRead (d : Dev) (key tag port : Nat) : Dev :=
  let k := key / 2 ^ 18
  match d.injAt k 0x42 0 (key % 2 ^ 18) with
  | some _ => (d.injPlanted k).errEvent (mkEvent k 0x42 0 3 1 (bufDetail key tag tag port)) true
  | none => d

/-- R426, R429, R618: the chain walk that frees a packet's cells; it stops at an ignored free. An injected BUF_FREE is found at the cell it names, about to
be freed: KIND 0 frees it twice, KIND 1 presents another tag, which is free; a free that would be ignored without it shows as that one event. -/
def Dev.freeChain (tag : Nat) : Nat → Nat → Dev → Dev
  | 0, _, d => d
  | n + 1, key, d =>
    let k := key / 2 ^ 18
    let inj := d.injAt k 0x40 0 (key % 2 ^ 18)
    let d := if inj.isSome then d.injPlanted k else d
    match d.cellAt key with
    | none => d.doubleFree key tag inj.isSome
    | some m =>
      if m.owner != tag then d.nonOwner key tag tag inj.isSome
      else if (inj.getD 0) != 0 then (let (t, d) := d.fresh 15; d.nonOwner key tag ((tag + 1 + t) % 16) true)
      else
        let d := (d.metaRead key tag 0xFF).freeCell key
        let d := if m.last then d else Dev.freeChain tag n (k * 2 ^ 18 + m.next) d
        if inj.isSome then d.doubleFree key tag true else d

/-- R426: a reference of a packet released with its owner tag: REF decremented; at 0 its cells are freed. -/
def Dev.releaseRef (d : Dev) (key tag : Nat) : Dev :=
  let d := d.metaRead key tag 0xFF
  match d.cellAt key with
  | none => Dev.freeChain tag 1 key d
  | some m =>
    let d := d.setCell key { m with ref := m.ref - 1 }
    if m.ref > 1 then d else Dev.freeChain tag (2 ^ 18) key d

/-- R425: a reference more; refused at 255. -/
def Dev.addRef (d : Dev) (key : Nat) : Option Dev :=
  match d.cellAt key with
  | some m => if m.ref < 255 then some (d.setCell key { m with ref := m.ref + 1 }) else none
  | none => none

/-- R426, R433: a queue entry ends: its reference, and the cells that a copy charged. -/
def Dev.entEnd (d : Dev) (e : QEnt) : Dev :=
  let d := match e.charge with | some c => d.useSub R.BUF_PART_USE [c / 16, c % 16] e.n | none => d
  d.releaseRef e.head e.owner

/-- R584: an entry discarded after enqueue for a port: its reference, and its stamp entry. The egress entry of a frame whose cells still come stands for
its VOQ entry, with which both end. -/
def Dev.discardEnt (d : Dev) (p : Nat) (e : QEnt) : Dev := if e.flight then d else (d.entEnd e).stampGone p e.stamp

/-! ## The entries of the queues -/

/-- R434, R462: a VOQ's use, counting spilled cells. -/
def Voq.use (q : Voq) : Nat :=
  entsCells q.ents + (q.far.map (·.n)).sum + (q.tail.map (fun x => x.1.n - x.2)).sum

/-- R450: a VOQ holds no entry on chip, in a page or in an open page. -/
def Voq.isEmpty (q : Voq) : Bool := q.ents.isEmpty && q.pages.isEmpty && q.rd.isNone && q.got.isEmpty && q.tail.isEmpty

/-- R434: the limit of a VOQ's profile. -/
def Dev.voqLimit (d : Dev) (g v : Nat) : Nat :=
  d.get R.BUF_QPROF [g / 2, d.get R.TMG_VOQ_PROF [g / 2, g % 2, v] "PROF"] "LIMIT"

/-- R450: leaving spill. -/
def Dev.spillLeave (d : Dev) (g v : Nat) : Dev :=
  let q := d.voqOf g v
  if q.spill && q.isEmpty then
    (d.setVoq g v Voq.zero).put R.BUF_SPILL_ACT [g / 2] "VOQS" (d.get R.BUF_SPILL_ACT [g / 2] "VOQS" - 1)
  else d

/-- R450: the entries of a VOQ have changed: it leaves spill when nothing of it is left, and enters it under its new head. -/
def Dev.voqMoved (d : Dev) (g v : Nat) : Dev := (d.spillLeave g v).spillCheck g v

/-- R447: the cells of VOQ v of region g that wait in intermediate regions taken away. -/
def Dev.dropMid (d : Dev) (g v : Nat) : Dev :=
  { d with buf := { d.buf with mid := (SMap.mapv d.buf.mid (fun _ l => l.filter (fun c => !(c.g == g && c.v == v)))).filter (fun x => !x.2.isEmpty) } }

/-- R442, R447: the transfer of VOQ v of region g ends with its frame, and its cells leave the fabric. -/
def Dev.xferGone (d : Dev) (g v : Nat) : Dev :=
  { d with buf := { d.buf with
      xfer := d.buf.xfer.filter (fun x => !(x.2.v == v && (if x.1 < 16 then x.1 / 4 == g else (x.1 - 16) / 520 == g))) } }.dropMid g v

/-- R425, R434, R451: an entry joins a VOQ, or is refused: the queue is at its limit, a copy's partition is full, or REF is 255. -/
def Dev.enq (d : Dev) (g v : Nat) (e : QEnt) : Option Dev :=
  let q := d.voqOf g v
  let full := match e.charge with | some c => decide (d.get R.BUF_PART_USE [c / 16, c % 16] "USE" ≥ d.partSize (c / 16) (c % 16)) | none => false
  if q.use ≥ d.voqLimit g v || full then none
  else
    match d.addRef e.head with
    | none => none
    | some d =>
      let d := match e.charge with | some c => d.useAdd R.BUF_PART_USE [c / 16, c % 16] e.n | none => d
      let d := d.setVoq g v (if q.spill then { q with tail := q.tail ++ [(e, 0)] } else { q with ents := q.ents ++ [e] })
      some (d.spillScan (g / 2))

/-- R191: the uncommitted entry of a packet voided. -/
def Dev.voidEnt (d : Dev) (g v pkt : Nat) : Dev :=
  let q := d.voqOf g v
  let mine := fun (e : QEnt) => e.pkt == pkt && !e.committed
  let gone := (q.ents ++ q.tail.map Prod.fst).filter mine
  let d := d.setVoq g v { q with ents := q.ents.filter (fun e => !mine e), tail := q.tail.filter (fun x => !mine x.1) }
  (gone.foldl Dev.entEnd d).voqMoved g v

/-- R190: the entry of a packet marked committed, as its commit leaves it. -/
def Dev.commitEnt (d : Dev) (g v pkt : Nat) (f : QEnt → QEnt) : Dev :=
  let q := d.voqOf g v
  let fix := fun (e : QEnt) => if e.pkt == pkt && !e.committed then { f e with committed := true } else e
  (d.setVoq g v { q with ents := q.ents.map fix, tail := q.tail.map (fun x => (fix x.1, x.2)) }).spillCheck g v

/-- The head entry of a VOQ removed. -/
def Dev.voqPop (d : Dev) (g v : Nat) : Dev :=
  let q := d.voqOf g v
  (d.setVoq g v { q with ents := q.ents.drop 1 }).voqMoved g v

/-- R63: the committed entries of a VOQ that a test picks discarded, wherever they stand: the part, and the entries. -/
def Dev.voqTake (d : Dev) (g v : Nat) (f : QEnt → Bool) : Dev × List QEnt :=
  let q := d.voqOf g v
  let hit := fun (e : QEnt) => e.committed && f e
  let far := (q.far.filter (fun p => p.last && hit p.ent)).map (·.ent)
  let near := (q.ents ++ q.tail.map Prod.fst).filter hit
  let keep := fun (p : Piece) => !hit p.ent
  let moved := match q.ents.head? with | some e => hit e | none => false
  let d := d.setVoq g v { q with ents := q.ents.filter (fun e => !hit e), pages := q.pages.map (·.keep keep), rd := q.rd.map (·.keep keep), got := q.got.filter keep,
                                 tail := q.tail.filter (fun x => !hit x.1) }
  let d := if moved then d.xferGone g v else d
  ((near.foldl Dev.entEnd d).voqMoved g v, far ++ near)

/-- R555, R77: every committed entry of a VOQ discarded: the part, and the entries. Entries in the wadi hold no reference (R451). -/
def Dev.voqFlush (d : Dev) (g v : Nat) : Dev × List QEnt :=
  let q := d.voqOf g v
  let far := (q.far.filter (·.last)).map (·.ent)
  let live := q.ents ++ q.tail.map Prod.fst
  let gone := live.filter (·.committed)
  let left := q.ents.filter (fun e => !e.committed) ++ (q.tail.map Prod.fst).filter (fun e => !e.committed)
  let np := q.pages.length + (if q.rd.isSome then 1 else 0)
  let d := d.put R.BUF_WADI_STAT [g / 2] "PAGES" (d.get R.BUF_WADI_STAT [g / 2] "PAGES" - np)
  let d := d.setVoq g v { q with ents := left, pages := [], rd := none, got := [], tail := [] }
  ((gone.foldl Dev.entEnd (d.xferGone g v)).spillLeave g v, far ++ gone)

/-! ## Egress queues -/

/-- The number of an egress queue: 8·port + class. -/
def eqKey (p c : Nat) : Nat := 8 * p + c

/-- An egress queue. -/
def Dev.eqOf (d : Dev) (q : Nat) : List QEnt := SMap.get d.buf.eq q []

/-- R494: the die and number of an egress queue in the SCH block. -/
def schQ (q : Nat) : List Nat := if q ≥ 512 then [0, 256 + q % 8] else [q / 256, q % 256]

/-- R491: the highest depth of an egress queue since its peak was last read: the depth it has counts. -/
def Dev.qPeak (d : Dev) (q : List Nat) : Nat := max (d.get R.SCH_QPEAK q "CELLS") (d.get R.SCH_QDEPTH q "CELLS")

/-- R491: an egress queue replaced, its depth and peak shown. -/
def Dev.setEq (d : Dev) (q : Nat) (l : List QEnt) : Dev :=
  let d := { d with buf := { d.buf with eq := SMap.set d.buf.eq q l [] } }
  let n := entsCells l
  let m := d.qPeak (schQ q)
  (d.put R.SCH_QDEPTH (schQ q) "CELLS" n).put R.SCH_QPEAK (schQ q) "CELLS" (max n m)

/-- R438: the profile limit of an egress queue. -/
def Dev.eqLimit (d : Dev) (q : Nat) : Nat :=
  let ix := if q ≥ 512 then [0, 0, 128 + q % 8] else [q / 256, q / 128 % 2, q % 128]
  d.get R.BUF_QPROF [ix.headD 0, d.get R.TMG_EQ_PROF ix "PROF"] "LIMIT"

/-- R635: entries of VOQ v of region g that leave by the die 1 endpoint. -/
def Dev.direct (d : Dev) (g v : Nat) (e : QEnt) : Bool :=
  decide (g ≥ 2) && decide (v ≥ 512) && d.bit R.HIF1_CTL [] "EXC_EN" && [1, 2, 3].contains e.info.kind

/-- R438, R558: the egress queue of VOQ v. -/
def Dev.voqTarget (d : Dev) (v : Nat) : Nat := if v ≥ 512 then 512 + v % 8 else eqKey (d.activePort (v / 8)) (v % 8)

/-- The egress region of an egress queue. -/
def eqRegion (q : Nat) : Nat := if q ≥ 512 then 0 else q / 128

/-- R439: cells of an egress queue, those in flight to it counted. -/
def Dev.eqUse (d : Dev) (q : Nat) : Nat :=
  entsCells (d.eqOf q) + ((d.buf.xfer.filter (fun x => d.voqTarget x.2.v == q && !x.2.put)).map (fun x => x.2.total)).sum

/-! ## The central scheduler (R439–R446) -/

/-- The key of a transfer: native by region pair, compatibility by VOQ. -/
def xKey (compat : Bool) (g j v : Nat) : Nat := if compat then 16 + 520 * g + v else 4 * g + j

/-- R462: the fabric is the compatibility fabric. -/
def Dev.compat (d : Dev) : Bool := d.bit R.TMG_CFG [0] "FABRIC"

/-- R439, R458: an entry may request the fabric: it is committed, and stored whole or cut through. -/
def Dev.mayMove (d : Dev) (e : QEnt) : Bool := e.committed && (e.cut || d.leftOf e.head == 0)

/-- R444: the cells that a transfer of an entry to the other die reserves: the packet's, or while it is arriving the ingress port's largest frame. -/
def Dev.rsvCells (d : Dev) (e : QEnt) : Nat :=
  match d.buf.arr.find? (fun a => a.head == e.head) with
  | some a => max e.n (cellsOf (d.get R.MAC_PORT_CFG (macIx a.port) "MAXFRM_RX"))
  | none => e.n

/-- R439, R444: VOQ v of region g requests the fabric: its head entry may move, the target queue is below its limit, and the cells of a
transfer to the other die can be reserved. -/
def Dev.voqElig (d : Dev) (g v : Nat) : Bool :=
  match (d.voqOf g v).ents.head? with
  | none => false
  | some e =>
    let q := d.voqTarget v
    let j := eqRegion q
    let started := match SMap.look d.buf.xfer (xKey d.compat g j v) with | some x => x.v == v | none => false
    d.mayMove e && !d.direct g v e &&
      (started || (decide (d.eqUse q < d.eqLimit q) && (j / 2 == g / 2 || (d.refuses (j / 2) 9 e.part (d.rsvCells e)).isNone)))

/-- The VOQs of region g that request egress region j. -/
def Dev.voqReqs (d : Dev) (g j : Nat) : List Nat :=
  (d.buf.voq.filterMap (fun x => if x.1 / 520 = g then some (x.1 % 520) else none)).filter (fun v => eqRegion (d.voqTarget v) == j && d.voqElig g v)

/-- R442: region g requests region j: it goes on with a transfer whose next cell has arrived, or has a VOQ to serve. -/
def Dev.fabReq (d : Dev) (g j : Nat) : Bool :=
  match SMap.look d.buf.xfer (xKey false g j 0) with
  | some x => decide (x.sent < x.total - (match (d.voqOf g x.v).ents.head? with | some e => d.leftOf e.head | none => 0))
  | none => !(d.voqReqs g j).isEmpty

/-- The first of the four regions, from s on and wrapping, that satisfies a test. -/
def firstFrom (p : Nat → Bool) (s : Nat) : Option Nat := ((List.range 4).map (fun i => (s + i) % 4)).find? p

/-- R441: the pairs matched so far and the pointers. -/
structure Match where
  /-- Ingress region, egress region, iteration (0 for a paced cell). -/
  pairs : List (Nat × Nat × Nat)
  gp : List Nat
  ap : List Nat
  deriving DecidableEq, Repr

/-- R441: one iteration of request, grant and accept. -/
def matchIter (req : Nat → Nat → Bool) (it : Nat) (m : Match) : Match :=
  let busyI := fun i => m.pairs.any (fun x => x.1 == i)
  let busyJ := fun j => m.pairs.any (fun x => x.2.1 == j)
  let grant := (List.range 4).map (fun j => if busyJ j then none else firstFrom (fun i => !busyI i && req i j) (m.gp.getD j 0))
  (List.range 4).foldl (fun m i =>
    if busyI i then m else
    match firstFrom (fun j => grant.getD j none == some i) (m.ap.getD i 0) with
    | none => m
    | some a =>
      let m := { m with pairs := m.pairs ++ [(i, a, it)] }
      if it = 1 then { m with gp := setAt m.gp a ((i + 1) % 4), ap := setAt m.ap i ((a + 1) % 4) } else m) m

/-- R446: the paced cells of this slot: those of cut-through frames whose transmission has begun, earliest deadline first. The deadline is in ps: the slot
of the transmission's start and the time that the port takes for the bytes before the cell. -/
def Dev.paced (d : Dev) : List (Nat × Nat × Nat) :=
  d.buf.xfer.filterMap (fun x =>
    let g := x.1 / 4
    match (d.voqOf g x.2.v).ents.head?, x.2.out with
    | some e, some s =>
      if x.1 < 16 && decide (x.2.sent < x.2.total - d.leftOf e.head) then
        some (800 * s + 2048000 * x.2.sent / max 1 (d.portRate (d.voqTarget x.2.v / 8)), g, x.1 % 4)
      else none
    | _, _ => none)

/-- Paced cells placed in deadline order, each on a free pair. -/
def placePaced : Nat → List (Nat × Nat × Nat) → List (Nat × Nat × Nat) → List (Nat × Nat × Nat)
  | 0, _, m => m
  | n + 1, l, m =>
    match l.foldl (fun (b : Option (Nat × Nat × Nat)) x => match b with | none => some x | some y => if x.1 < y.1 then some x else some y) none with
    | none => m
    | some x =>
      placePaced n (l.filter (· != x)) (if m.any (fun y => y.1 == x.2.1 || y.2.1 == x.2.2) then m else m ++ [(x.2.1, x.2.2, 0)])

/-- R441: the match of one slot. -/
def Dev.slotMatch (d : Dev) : Match :=
  let m : Match := ⟨placePaced 16 d.paced [], d.buf.gp, d.buf.ap⟩
  matchIter d.fabReq 3 (matchIter d.fabReq 2 (matchIter d.fabReq 1 m))

/-- R441: the VOQ a matched pair serves: empty egress queues first, then in rotation. -/
def Dev.voqPick (d : Dev) (g j : Nat) : Option Nat :=
  let l := d.voqReqs g j
  let e := l.filter (fun v => (d.eqOf (d.voqTarget v)).isEmpty)
  let c := if e.isEmpty then l else e
  let s := SMap.get d.buf.rr (4 * g + j) 0
  match c.find? (fun v => decide (s ≤ v)) with
  | some v => some v
  | none => c.head?

/-- A transfer put in place. -/
def Dev.setXfer (d : Dev) (key : Nat) (x : Xfer) : Dev := { d with buf := { d.buf with xfer := SMap.put d.buf.xfer key x } }

/-- R444: a transfer that begins with VOQ v of region g: cells reserved on the other die. -/
def Dev.newXfer (d : Dev) (g j v : Nat) : Xfer :=
  let (n, r) := match (d.voqOf g v).ents.head? with | some e => (e.n, d.rsvCells e) | none => (0, 0)
  ⟨v, 0, n, d.buf.slot, if g / 2 = j / 2 then 0 else r, SMap.get d.buf.seq (g * 520 + v) 0, [], false, none⟩

/-- R441, R462: a matched pair sends one cell. -/
def Dev.sendCell (d : Dev) (g j it : Nat) : Dev :=
  let key := xKey false g j 0
  let (d, x) := match SMap.look d.buf.xfer key with
    | some x => (d, some x)
    | none =>
      match d.voqPick g j with
      | none => (d, none)
      | some v => ({ d with buf := { d.buf with rr := SMap.put d.buf.rr (4 * g + j) (v + 1) } }, some (d.newXfer g j v))
  match x with
  | none => d
  | some x =>
    let d := d.setXfer key { x with sent := x.sent + 1 }
    let d := d.trace (g / 2) 4 4 (leBytes 1 g ++ leBytes 1 j ++ leBytes 2 x.v ++ leBytes 1 it)
    d.setW R.TMG_FAB_TX [g / 2, g % 2, j] (d.getW R.TMG_FAB_TX [g / 2, g % 2, j] + 1)

/-- R441: one native slot. -/
def Dev.slotNative (d : Dev) : Dev :=
  let m := d.slotMatch
  let d := { d with buf := { d.buf with gp := m.gp, ap := m.ap } }
  m.pairs.foldl (fun d x => d.sendCell x.1 x.2.1 x.2.2) d

/-! ## The compatibility fabric (R447, R448) -/

/-- R447: the next VOQ of region g with a cell to send, in rotating order. -/
def Dev.compatPick (d : Dev) (g : Nat) : Option Nat :=
  let can := fun v => d.voqElig g v && (match SMap.look d.buf.xfer (xKey true g 0 v) with | some x => decide (x.sent < x.total) | none => true)
  let c := (d.buf.voq.filterMap (fun x => if x.1 / 520 = g then some (x.1 % 520) else none)).filter can
  let s := SMap.get d.buf.rr (64 + g) 0
  match c.find? (fun v => decide (s ≤ v)) with
  | some v => some v
  | none => c.head?

/-- R447, R448: region g sends a cell to an intermediate region; an injected TMG_RESEQ loses it. -/
def Dev.compatSend (d : Dev) (g m : Nat) : Dev :=
  match d.compatPick g with
  | none => d
  | some v =>
    let j := eqRegion (d.voqTarget v)
    let key := xKey true g j v
    let x := (SMap.look d.buf.xfer key).getD (d.newXfer g j v)
    let d := d.setXfer key { x with sent := x.sent + 1 }
    let d := { d with buf := { d.buf with rr := SMap.put d.buf.rr (64 + g) (v + 1), seq := SMap.put d.buf.seq (g * 520 + v) ((x.seq + x.sent + 1) % 65536) } }
    let d := d.setW R.TMG_FAB_TX [g / 2, g % 2, j] (d.getW R.TMG_FAB_TX [g / 2, g % 2, j] + 1)
    if d.injArmed (j / 2) 0x43 (j % 2) then d.injPlanted (j / 2)
    else { d with buf := { d.buf with mid := SMap.put d.buf.mid (4 * m + j) (SMap.get d.buf.mid (4 * m + j) [] ++ [⟨g, v, x.sent⟩]) } }

/-- R448: the cells of a transfer that have arrived in sequence. -/
def Xfer.inSeq (x : Xfer) : Nat := ((List.range x.total).find? (fun i => !x.arrived.contains i)).getD x.total

/-- R448: the cells in the resequencing buffer of egress region j. -/
def Dev.reseqUse (d : Dev) (j : Nat) : Nat :=
  ((d.buf.xfer.filter (fun x => decide (x.1 ≥ 16) && eqRegion (d.voqTarget x.2.v) == j)).map (fun x => x.2.arrived.length - x.2.inSeq)).sum

/-- R447, R448: the intermediate region m hands a cell on to egress region j, into its resequencing buffer of 2,048 cells; a cell that would have to wait in a
full buffer waits where it is, and the next that need not goes ahead: DESIGN CHOICE, log entry 151. -/
def Dev.compatRecv (d : Dev) (m j : Nat) : Dev :=
  let l := SMap.get d.buf.mid (4 * m + j) []
  let full := decide (d.reseqUse j ≥ 2048)
  let may := fun (c : MCell) => !full || (match SMap.look d.buf.xfer (xKey true c.g j c.v) with | some x => c.i == x.inSeq | none => true)
  match l.find? may with
  | none => d
  | some c =>
    let d := { d with buf := { d.buf with mid := SMap.set d.buf.mid (4 * m + j) (l.erase c) [] } }
    match SMap.look d.buf.xfer (xKey true c.g j c.v) with
    | some x => d.setXfer (xKey true c.g j c.v) { x with arrived := x.arrived ++ [c.i] }
    | none => d

/-- R447: one compatibility slot: 2u connects ingress i to intermediate (i + u) mod 4, 2u + 1 intermediate m to egress (m + u) mod 4. -/
def Dev.slotCompat (d : Dev) : Dev :=
  let u := d.buf.slot / 2
  if d.buf.slot % 2 = 0 then (List.range 4).foldl (fun d i => d.compatSend i ((i + u) % 4)) d
  else (List.range 4).foldl (fun d m => d.compatRecv m ((m + u) % 4)) d

/-- R60, R441, R447: one fabric slot; packets move in RUN and DRAIN only. -/
def Dev.fabricSlot (d : Dev) : Dev :=
  if !d.running then d else
  let d := if d.compat then d.slotCompat else d.slotNative
  { d with buf := { d.buf with slot := d.buf.slot + 1 } }

/-- The transfer from g to egress region j whose cells have all reached it. -/
def Dev.xferDone (d : Dev) (g j : Nat) : Option (Nat × Xfer) :=
  d.buf.xfer.find? (fun x =>
    if x.1 < 16 then x.1 == 4 * g + j && x.2.sent == x.2.total
    else (x.1 - 16) / 520 == g && eqRegion (d.voqTarget x.2.v) == j && x.2.arrived.length == x.2.total)

/-! ## Data errors and stomps (R430, R459) -/

/-- R459: a frame with its FCS stomped. -/
def stompFcs (fr : List Byte) : List Byte :=
  let b := fr.take (fr.length - 4)
  b ++ leBytes 4 (Nat.xor (fcs32 b) 0xFFFFFFFF)

/-- R421: the cells of a chain. -/
def Dev.chain (d : Dev) : Nat → Nat → List Nat
  | 0, _ => []
  | n + 1, key =>
    match d.cellAt key with
    | none => []
    | some m => key :: (if m.last then [] else Dev.chain d n (key / 2 ^ 18 * 2 ^ 18 + m.next))

/-- R430, R616: a read of an entry's cells: the part with the event, and whether the data failed and whether the frame is discarded. -/
def Dev.dataRead (d : Dev) (e : QEnt) (err : Bool) (port : Nat) : Dev × Bool × Bool :=
  let k := e.head / 2 ^ 18
  let d := (d.chain e.n e.head).foldl (fun d c => d.metaRead c e.owner port) d
  let hit := (d.chain e.n e.head).find? (fun c => (d.injAt k 0x41 0 (c % 2 ^ 18)).isSome)
  let kind := (hit.bind (fun c => d.injAt k 0x41 0 (c % 2 ^ 18))).getD 0
  let d := if hit.isSome then d.injPlanted k else d
  let det := bufDetail (hit.getD e.head) e.owner e.owner port
  if hit.isSome && kind == 0 && !err then (d.errEvent (mkEvent k 0x41 0 1 1 det) true, false, false)
  else if err || hit.isSome then
    let drop := d.armed k 0x41 0
    let d := d.bump R.BUF_DATA_ERR_CNT [k] "COUNT" 1
    (d.errEvent (mkEvent k 0x41 0 2 1 det) hit.isSome (if drop then ⟨true, 0⟩ else noResp), true, drop)
  else (d, false, false)

/-! ## Spill and the wadi (R450–R453) -/

/-- R431: pages of 2 KiB that a die's wadi holds. -/
def Dev.wadiPages (d : Dev) (k : Nat) : Nat := 3 * 131072 * d.get R.BUF_WADI_SIZE [k] "UNITS"

/-- R500: the pages of a stack of a die that hold entries or are being read. -/
def Dev.pagesUsed (d : Dev) (k j : Nat) : List Nat :=
  d.buf.voq.flatMap (fun x => if x.1 / 1040 = k then ((x.2.pages ++ x.2.rd.toList).filter (·.stack == j)).map (·.n) else [])

/-- R500: the stack of the next page: the die's stacks in rotating order, those without a free page passed over. -/
def Dev.pageStack (d : Dev) (k : Nat) : Option Nat :=
  ((List.range 3).map (fun i => (d.buf.rotor.get k + i) % 3)).find? (fun j => decide ((d.pagesUsed k j).length < 131072 * d.get R.BUF_WADI_SIZE [k] "UNITS"))

/-- The first page at or after one, round a stack of n pages, that is not in use. -/
def freePage (used : List Nat) (n start : Nat) : Nat :=
  (((List.range (used.length + 1)).map (fun i => (start + i) % n)).find? (fun x => !used.contains x)).getD 0

/-- R500: a page taken on a stack; which of its free pages is free: DESIGN CHOICE, log 130. -/
def Dev.takePage (d : Dev) (k j : Nat) : Nat × Dev :=
  let n := 131072 * d.get R.BUF_WADI_SIZE [k] "UNITS"
  let (x, d) := d.fresh n
  (freePage (d.pagesUsed k j) n x, { d with buf := { d.buf with rotor := d.buf.rotor.set k ((j + 1) % 3) } })

/-- R451: the cells of the writer's open page: up to `room` cells of the entries at the front of the tail that `ready` passes. -/
def openPage (ready : QEnt → Bool) : Nat → List (QEnt × Nat) → List Piece × List (QEnt × Nat)
  | _, [] => ([], [])
  | room, (e, w) :: l =>
    if room = 0 || !ready e then ([], (e, w) :: l)
    else if e.n - w ≤ room then
      let (ps, r) := openPage ready (room - (e.n - w)) l
      (⟨e, e.n - w, true, false⟩ :: ps, r)
    else ([⟨e, room, false, false⟩], (e, w + room) :: l)

/-- R201, R439: an entry that is committed and whose frame is all stored. -/
def Dev.stored (d : Dev) (e : QEnt) : Bool := e.committed && d.leftOf e.head == 0

/-- R430: what pages and the writer's tail hold of an entry, taken out: its frame is discarded whole. -/
def Voq.without (q : Voq) (e : QEnt) : Voq :=
  let other := fun (p : Piece) => !(p.ent.pkt == e.pkt && p.ent.head == e.head)
  { q with pages := q.pages.map (·.keep other), rd := q.rd.map (·.keep other), got := q.got.filter other,
           tail := q.tail.filter (fun x => !(x.1.pkt == e.pkt && x.1.head == e.head && decide (0 < x.2))) }

/-- R451, R453, R430: the writer's page is written to the wadi; entries that end in it release their on-chip reference. A frame whose data fail with
DROP armed leaves the page, the pages before it and the tail. -/
def Dev.spillWrite (d : Dev) (g v : Nat) (err : Bool) : Dev :=
  let k := g / 2
  let q := d.voqOf g v
  let (ps, rest) := openPage d.stored 8 q.tail
  if !q.spill || ps.isEmpty then d
  else match d.pageStack k with
  | none => d.bump R.BUF_WADI_FULL [k] "COUNT" 1
  | some j =>
    let step := fun (x : Dev × List Piece) (p : Piece) =>
      let (d, bad, drop) := x.1.dataRead p.ent err 0xFF
      if bad && drop then ((d.setVoq g v ((d.voqOf g v).without p.ent)).discardEnt (v / 8) p.ent, x.2)
      else
        let p := if bad then { p with ent := { p.ent with stomp := true } } else p
        (if p.last then d.entEnd p.ent else d, x.2 ++ [p])
    let d := d.setVoq g v { q with tail := rest }
    let (d, ps) := ps.foldl step (d, [])
    let (n, d) := d.takePage k j
    let q := d.voqOf g v
    let d := d.setVoq g v { q with pages := q.pages ++ [⟨j, n, ps, false⟩] }
    d.put R.BUF_WADI_STAT [k] "PAGES" (d.get R.BUF_WADI_STAT [k] "PAGES" + 1)

/-- R452, R508: the reader's prefetch buffer after a page read was issued or returned; how many pages it holds is free: DESIGN CHOICE, log entry 127. -/
def Dev.prefetched (d : Dev) (k : Nat) : Dev :=
  let (n, d) := d.fresh 65
  { d with buf := { d.buf with level := d.buf.level.set k n } }

/-- R508: the channels of the die and the pseudo-channels on which a die's page reads are outstanding; a page lies in the two 1 KiB rows from
0x2_0000_0000 + 2,048·n of its stack (R500). -/
def Dev.pageReads (d : Dev) (k : Nat) : List (Nat × Nat) :=
  (d.buf.voq.flatMap (fun x => if x.1 / 1040 = k then x.2.rd.toList else [])).flatMap (fun p =>
    [0, 1].map (fun h => let m := saMap (2 ^ 33 + 2048 * p.n + 1024 * h); (16 * p.stack + m.chan, m.pc)))

/-- R508: the spill reader's panic on pseudo-channel u of channel c′ of die k. -/
def Dev.srPanic (d : Dev) (k c u : Nat) : Bool :=
  decide (d.buf.level.get k < d.get R.MEM_PANIC_CFG [k] "SR_LVL") && (d.pageReads k).contains (c, u)

/-- R452, R430: the reader fetches the next page of a VOQ below REFILL, once every partition of the page has its cells; or it takes the next entry from the
open page, with what the pieces of it that pages brought back suffered. -/
def Dev.wadiRefill (d : Dev) (g v : Nat) : Dev :=
  let k := g / 2
  let q := d.voqOf g v
  if !q.spill || q.rd.isSome || decide (entsCells q.ents ≥ d.get R.BUF_SPILL_CFG [k] "REFILL") then d else
  match q.pages with
  | pg :: l =>
    if (d.refusesAll k 10 (pg.ps.map (fun p => (p.ent.part, p.n)))).isSome then d else (d.setVoq g v { q with pages := l, rd := some pg }).prefetched k
  | [] =>
    match q.tail with
    | (e, _) :: l =>
      if !e.committed then d
      else if q.got.any (·.drop) then ((d.setVoq g v { q with tail := l, got := [] }).discardEnt (v / 8) e).voqMoved g v
      else d.setVoq g v { q with ents := q.ents ++ [{ e with stomp := e.stomp || q.got.any (·.ent.stomp) }], tail := l, got := [] }
    | [] => d

/-- R430, R453: one frame of a page whose read failed: the event, and whether the frame is discarded. -/
def Dev.pieceFail (d : Dev) (k : Nat) (p : Piece) : Dev × Piece :=
  let drop := d.armed k 0x41 0
  let d := (d.bump R.BUF_DATA_ERR_CNT [k] "COUNT" 1).errEvent (mkEvent k 0x41 0 2 1 (bufDetail p.ent.head 10 10 0xFF)) false
    (if drop then ⟨true, 0⟩ else noResp)
  (d, { p with drop := drop, ent := { p.ent with stomp := true } })

/-- R452, R453: one returned piece: an entry that ends in it is relinked in cells of the wadi reader, unless a piece of it failed with DROP armed. -/
def Dev.wadiPiece (g v : Nat) (fail : Bool) (d : Dev) (p : Piece) : Dev :=
  let k := g / 2
  let (d, p) := if fail then d.pieceFail k p else (d, p)
  let q := d.voqOf g v
  if !p.last then d.setVoq g v { q with got := q.got ++ [p] }
  else
    let ps := q.got ++ [p]
    let d := d.setVoq g v { q with got := [] }
    if ps.any (·.drop) then d.stampGone (v / 8) p.ent.stamp
    else
      let e := { p.ent with stomp := ps.any (·.ent.stomp) }
      match d.allocFrame k 10 e.part (min (256 * e.n) (max e.bytes.length (256 * (e.n - 1) + 1))) none false with
      | (d, .ok h) =>
        let q := d.voqOf g v
        d.setVoq g v { q with ents := q.ents ++ [{ e with head := h, owner := 10, charge := none }] }
      | (d, .error _) => d.stampGone (v / 8) p.ent.stamp

/-- R452: a page read returns. -/
def Dev.wadiReturn (d : Dev) (g v : Nat) (fail : Bool) : Dev :=
  let q := d.voqOf g v
  match q.rd with
  | none => d
  | some pg =>
    let d := (d.setVoq g v { q with rd := none }).put R.BUF_WADI_STAT [g / 2] "PAGES" (d.get R.BUF_WADI_STAT [g / 2] "PAGES" - 1)
    ((pg.ps.foldl (Dev.wadiPiece g v (fail || pg.bad)) d).spillLeave g v).prefetched (g / 2)

/-! ## Multicast (R454) -/

/-- R454: the entries of a group as it stands: (port, class, prune) of its members in use, and whether the group is defined. -/
def Dev.members (d : Dev) (k grp cls : Nat) : Option (List (Nat × Nat × Bool)) :=
  if !d.bit R.TMG_MC_GRP [k, grp] "EN" then none
  else
    let f := d.get R.TMG_MC_GRP [k, grp] "FIRST"
    some ((List.range (d.get R.TMG_MC_GRP [k, grp] "COUNT")).filterMap (fun i =>
      let m := f + i
      if m < 32768 && d.bit R.TMG_MC_MEM [k, m] "VALID" then
        some (d.get R.TMG_MC_MEM [k, m] "PORT", (if d.bit R.TMG_MC_MEM [k, m] "COVR" then d.get R.TMG_MC_MEM [k, m] "CLASS" else cls),
          d.bit R.TMG_MC_MEM [k, m] "PRUNE")
      else none))

end Sys2Proof.Machine
end

