-- ==== Sys2Proof/Machine/Egress.lean ====
section
/-! DEFINITION. Egress scheduling and time-sensitive traffic (chapter 13): shapers, gates, selection, transmission, stream filtering, metering,
replication and recovery. -/

namespace Sys2Proof.Machine

/-! ## Shapers (R463, R471, R472) -/

/-- Raw nanoseconds of a die. -/
def Dev.rawOf (d : Dev) (p : Nat) : Nat := d.tim.raw.get (p / 32 % 2)

/-- R471: the buckets count in 1/640,000 byte: 625 of them make 1/1,024 byte, and RATE adds 8·RATE of them in each ns, so that no time is lost. -/
def tokUnit : Nat := 640000

/-- R471: tokens after dt ns at RATE; a disabled bucket keeps them. -/
def accrue (tok : Int) (rate burst dt : Nat) : Int := min (tokUnit * burst : Nat) (tok + (rate * 8 * dt : Nat))

/-- The indices of a front port in the SCH block. -/
def schP (p : Nat) : List Nat := [p / 32, p % 32]

/-- Signed whole bytes of a bucket as its 24-bit register shows them. -/
def tokBytes (t : Int) : Nat := unsgn 24 (t / (tokUnit : Nat))

/-- R471, R80: the port bucket brought up to now; in REST it is frozen. -/
def Dev.accruePort (d : Dev) (p : Nat) : Dev :=
  if p ≥ 64 || d.glb.mode == .rest then d else
  let e := d.egrOf p
  let t := accrue e.ptok (d.get R.SCH_PSHP_W0 (schP p) "RATE") (d.get R.SCH_PSHP_W1 (schP p) "BURST") (d.rawOf p - e.plast)
  (d.updEgr p (fun e => { e with ptok := t, plast := d.rawOf p })).put R.SCH_PSHP_TOK (schP p) "TOK" (tokBytes t)

/-- R471, R80: a queue bucket brought up to now; in REST it is frozen. -/
def Dev.accrueQ (d : Dev) (p c : Nat) : Dev :=
  if d.glb.mode == .rest then d else
  let e := d.egrOf p
  let q := schQ (eqKey p c)
  let t := accrue (e.qtok.getD c 0) (d.get R.SCH_QSHP_W0 q "RATE") (d.get R.SCH_QSHP_W1 q "BURST") (d.rawOf p - e.qlast.getD c 0)
  (d.updEgr p (fun e => { e with qtok := setAt e.qtok c t, qlast := setAt e.qlast c (d.rawOf p) })).put R.SCH_QSHP_TOK q "TOK" (tokBytes t)

/-- Every bucket of a port brought up to now. -/
def Dev.accrueAll (d : Dev) (p : Nat) : Dev := (List.range 8).foldl (fun d c => d.accrueQ p c) (d.accruePort p)

/-- R471, R465: bytes charged to (or, negative, credited back to) the queue bucket and the port bucket of a frame; a disabled bucket has
no charge. -/
def Dev.charge (d : Dev) (p c : Nat) (len : Int) : Dev :=
  let q := schQ (eqKey p c)
  let d := if p ≥ 64 || d.get R.SCH_PSHP_W0 (schP p) "RATE" = 0 then d else
    let t := (d.egrOf p).ptok - (tokUnit : Nat) * len
    (d.updEgr p (fun e => { e with ptok := t })).put R.SCH_PSHP_TOK (schP p) "TOK" (tokBytes t)
  if d.get R.SCH_QSHP_W0 q "RATE" = 0 then d else
    let t := (d.egrOf p).qtok.getD c 0 - (tokUnit : Nat) * len
    (d.updEgr p (fun e => { e with qtok := setAt e.qtok c t })).put R.SCH_QSHP_TOK q "TOK" (tokBytes t)

/-- R463: OVH of a port; none for the host port. -/
def Dev.ovh (d : Dev) (p : Nat) : Int := if p ≥ 64 then 0 else sgn 7 (d.get R.SCH_PORT_OVH (schP p) "OVH")

/-- R465, R469: MAXFRM of a port. -/
def Dev.maxFrm (d : Dev) (p : Nat) : Nat := if p ≥ 64 then 9216 else d.get R.SCH_PORT_CFG (schP p) "MAXFRM"

/-- R463, R465: the length L charged for an entry. -/
def Dev.lenOf (d : Dev) (p : Nat) (e : QEnt) : Int := max 1 ((if e.cut then d.maxFrm p else e.bytes.length : Nat) + d.ovh p)

/-! ## Gates (R473–R480) -/

/-- R473, R475: the gate states in force. -/
def Dev.gateStates (d : Dev) (p : Nat) : Nat :=
  if p ≥ 64 || !d.bit R.SCH_PORT_CFG (schP p) "GATE_EN" then 0xFF
  else if d.bit R.SCH_GATE_CTL (schP p) "OPER" && decide ((d.egrOf p).olen > 0) then d.get R.SCH_GATE_OPER (schP p) "STATES"
  else d.get R.SCH_GATE_CTL (schP p) "INIT"

/-- R474: the operating entries of one cycle as (start, end, gates) in ns, cut or stretched to the cycle. -/
def segsOf (cycle : Nat) : Nat → List (Nat × Nat) → List (Nat × Nat × Nat)
  | _, [] => []
  | s, (g, i) :: l =>
    if s ≥ cycle then [] else
    let e := if l.isEmpty then cycle else min cycle (s + i)
    (s, e, g) :: segsOf cycle (s + i) l

/-- R474: the segments of a port's operating cycle. -/
def Dev.segs (d : Dev) (p : Nat) : List (Nat × Nat × Nat) :=
  let es := (List.range (d.egrOf p).olen).map (fun n =>
    let w := d.getW R.SCH_GATE_OLIST (schP p ++ [n])
    (bitsOf w 31 24, bitsOf w 23 0))
  segsOf (d.get R.SCH_GATE_OCYCLE (schP p) "CYCLE_NS") 0 es

/-- R474: where presented time stands in a port's operating cycle, in 2^-32 ns. -/
def Dev.cyclePos (d : Dev) (p : Nat) : Int :=
  let c : Int := (d.get R.SCH_GATE_OCYCLE (schP p) "CYCLE_NS" * nsUnit : Nat)
  if c = 0 then 0 else (d.now (p / 32) - (d.egrOf p).obase) % c

/-- R479: the time, in 2^-32 ns, until the gate of class c is next closed; none when the operating list never closes it. -/
def Dev.closesIn (d : Dev) (p c : Nat) : Option Int :=
  if !d.bit R.SCH_PORT_CFG (schP p) "GATE_EN" || !d.bit R.SCH_GATE_CTL (schP p) "OPER" then none else
  let ss := d.segs p
  let pos := d.cyclePos p
  let cyc : Int := (d.get R.SCH_GATE_OCYCLE (schP p) "CYCLE_NS" * nsUnit : Nat)
  let at_ := fun (s : Nat × Nat × Nat) => max 0 ((s.1 * nsUnit : Nat) - pos)
  match ss.find? (fun s => decide (((s.2.1 * nsUnit : Nat) : Int) > pos) && !hasBit s.2.2 c) with
  | some s => some (at_ s)
  | none => (ss.find? (fun s => !hasBit s.2.2 c)).map (fun s => cyc - pos + (s.1 * nsUnit : Nat))

/-- R479: row 5: the head frame fits before its gate closes. -/
def Dev.guardOk (d : Dev) (p c : Nat) (len : Int) : Bool :=
  if p ≥ 64 || !d.bit R.SCH_PORT_CFG (schP p) "GB_EN" then true else
  match d.closesIn p c with
  | none => true
  | some t => decide (len * 8 * (nsUnit : Nat) ≤ t * (d.portRate p : Nat))

/-! ## Selection (R466–R468) -/

/-- R466: the rows that hold or pass a queue's head frame: all but row 5, and row 5. A frame whose cells still come, and which is to be sent stored and
forwarded after all (R559), waits for them. -/
def Dev.rows (d : Dev) (p c : Nat) : Bool × Bool :=
  match (d.eqOf (eqKey p c)).head? with
  | none => (false, true)
  | some e =>
    let g := d.egrOf p
    let q := schQ (eqKey p c)
    let open_ := hasBit (d.gateStates p) c
    let row6 := p ≥ 64 || d.get R.SCH_PSHP_W0 (schP p) "RATE" == 0 || decide (g.ptok ≥ 0)
    let row7 := d.get R.SCH_QSHP_W0 q "RATE" == 0 || decide (g.qtok.getD c 0 ≥ 0)
    (!(e.flight && !e.cut) && decide (p ≥ 64 ∨ d.linkUp p = true) && g.pause == 0 && g.pfc.getD c 0 == 0 && open_ && row6 && row7, d.guardOk p c (d.lenOf p e))

/-- R479: a frame that row 5 alone holds counts once. -/
def Dev.countHeld (d : Dev) (p c : Nat) : Dev :=
  let r := d.rows p c
  match (d.eqOf (eqKey p c)).head? with
  | some e =>
    if p < 64 && r.1 && !r.2 && !(d.egrOf p).gbHeld.contains (8 * e.pkt + c) then
      (d.updEgr p (fun g => { g with gbHeld := g.gbHeld ++ [8 * e.pkt + c] })).bump R.SCH_GB_HOLD (schP p) "COUNT" 1
    else d
  | none => d

/-- R467: a deficit. -/
def Dev.deficit (d : Dev) (p c : Nat) : Nat := d.get R.SCH_DEFICIT (schQ (eqKey p c)) "DEF"
/-- R467: a deficit set. -/
def Dev.setDeficit (d : Dev) (p c : Nat) (v : Int) : Dev := d.put R.SCH_DEFICIT (schQ (eqKey p c)) "DEF" (unsgn 18 v)

/-- R467: deficit round robin over the classes of D; `elig` says which classes are eligible. -/
def Dev.pickDrr (p : Nat) (inD elig : Nat → Bool) : Nat → Dev → Dev × Option Nat
  | 0, d => (d, none)
  | n + 1, d =>
    let g := d.egrOf p
    let c := g.rr % 8
    let q := d.eqOf (eqKey p c)
    let advance := fun (d : Dev) =>
      let d := if inD c && q.isEmpty then d.setDeficit p c 0 else d
      let r := (c + 1) % 8
      Dev.pickDrr p inD elig n (d.updEgr p (fun g => { g with rr := r, fresh := setAt g.fresh r true }))
    if inD c && elig c then
      let d := if g.fresh.getD c true then
          (d.setDeficit p c (d.deficit p c + d.get R.SCH_QUANTUM (schQ (eqKey p c)) "Q" : Nat)).updEgr p (fun g => { g with fresh := setAt g.fresh c false })
        else d
      match q.head? with
      | none => advance d
      | some e =>
        if d.lenOf p e ≤ (d.deficit p c : Nat) then (d.setDeficit p c ((d.deficit p c : Nat) - d.lenOf p e), some c) else advance d
    else advance d

/-- R467: the class selected among the eligible ones: strict classes first, highest first. -/
def Dev.pickClass (d : Dev) (p : Nat) (elig : Nat → Bool) : Dev × Option Nat :=
  let sp := if p ≥ 64 then 0 else d.get R.SCH_PORT_CFG (schP p) "SP_MASK"
  match [7, 6, 5, 4, 3, 2, 1, 0].find? (fun c => hasBit sp c && elig c) with
  | some c => (d, some c)
  | none => Dev.pickDrr p (fun c => !hasBit sp c) elig 8 d

/-- R491: the delay sample of a frame that leaves a queue. -/
def Dev.sampleDelay (d : Dev) (q : Nat) (e : QEnt) : Dev :=
  let k := (schQ q).headD 0
  if !d.bit R.SCH_QS_CFG [k] "EN" then d else
  let n := SMap.get d.egr.qs q 0
  let d := { d with egr := { d.egr with qs := SMap.put d.egr.qs q (n + 1) } }
  if n % 2 ^ d.get R.SCH_QS_CFG [k] "DLOG2" != 0 then d else
  let ns := min (2 ^ 32 - 1) ((d.now k - e.commitP) / (nsUnit : Nat)).toNat
  (d.put R.SCH_QDELAY (schQ q) "NS" ns).put R.SCH_QDMAX (schQ q) "NS" (max ns (d.get R.SCH_QDMAX (schQ q) "NS"))

/-- R463, R471, R491: the selected entry leaves its queue, whose other entries are `l`: sampled, charged and recorded. -/
def Dev.leaveQ (d : Dev) (p c : Nat) (e : QEnt) (l : List QEnt) : Dev :=
  let len := d.lenOf p e
  let d := ((d.setEq (eqKey p c) l).sampleDelay (eqKey p c) e).charge p c len
  let strict := decide (p < 64) && hasBit (d.get R.SCH_PORT_CFG (schP p) "SP_MASK") c
  d.trace (p / 32 % 2) 4 3 (leBytes 1 p ++ leBytes 1 c ++ leBytes 2 (unsgn 16 len) ++ leBytes 1 (b2n strict + 2 * b2n e.cut))

/-- R446: the transmission of a frame whose cells still come begins in this slot. -/
def Dev.flightStart (d : Dev) (q : Nat) (e : QEnt) : Dev :=
  if !e.flight then d else
  { d with buf := { d.buf with xfer := SMap.mapv d.buf.xfer (fun _ x => if x.put && d.voqTarget x.v == q then { x with out := some d.buf.slot } else x) } }

/-- R463, R471: the head frame of a class starts. -/
def Dev.startTx (d : Dev) (p c : Nat) : Dev :=
  match d.eqOf (eqKey p c) with
  | [] => d
  | e :: l =>
    let len := d.lenOf p e
    ((d.leaveQ p c e l).flightStart (eqKey p c) e).updEgr p (fun g =>
      { g with tx := some ⟨some c, some e, e.bytes, len, false, d.bit R.TIM_STAT [p / 32] "HOLDOVER"⟩, gbHeld := g.gbHeld.filter (· != 8 * e.pkt + c) })

/-- R466, R552: the selection of an idle front port: a MAC control frame ahead of every queue. -/
def Dev.select (d : Dev) (p : Nat) : Dev :=
  let g := d.egrOf p
  if p ≥ 64 || g.tx.isSome || !d.linkUp p || d.reverting p then d else
  match g.ctl with
  | (cnt, b) :: l => d.updEgr p (fun g => { g with ctl := l, tx := some (Tx.ctl cnt b) })
  | [] =>
    let d := d.accrueAll p
    let d := (List.range 8).foldl (fun d c => d.countHeld p c) d
    match d.pickClass p (fun c => (d.rows p c).1 && (d.rows p c).2) with
    | (d, some c) => d.startTx p c
    | (d, none) => d

/-- R552: every idle port with a MAC control frame waiting starts it. -/
def Dev.settle (d : Dev) : Dev :=
  (d.egr.ports.filter (fun x => x.2.tx.isNone && !x.2.ctl.isEmpty)).foldl (fun d x => d.select x.1) d

/-! ## Ends of frames (R426, R464, R465) -/

/-- R567, R616: an injected MAC_MEM fault of one of a front port's lanes: the part, and whether the frame is made bad. -/
def Dev.macMem (d : Dev) (p tx : Nat) : Dev × Bool :=
  let k := p / 32
  match (d.lanesOf p).find? (fun l => d.injArmed k 0x61 (l % 32)) with
  | none => (d, false)
  | some l =>
    let two := d.get R.ERR_INJ [k] "KIND" == 1
    ((d.injPlanted k).errEvent (mkEvent k 0x61 (l % 32) (if two then 2 else 1) 1 [BitVec.ofNat 8 (l % 32), BitVec.ofNat 8 tx]) true, two)

/-- R465: a cut-through frame's assumed length credited back. -/
def Dev.credit (d : Dev) (p c : Nat) (extra : Int) : Dev :=
  let d := d.charge p c (-extra)
  if hasBit (d.get R.SCH_PORT_CFG (schP p) "SP_MASK") c then d else d.setDeficit p c ((d.deficit p c : Nat) + extra)

/-- R446: the cells of a frame in an egress queue, or in transmission from it, still come. -/
def Dev.flying (d : Dev) (q : Nat) (e : QEnt) : Bool :=
  d.buf.xfer.any (fun x => x.1 < 16 && x.2.put && d.voqTarget x.2.v == q
    && (match (d.voqOf (x.1 / 4) x.2.v).ents.head? with | some h => h.pkt == e.pkt | none => false))

/-- R568: a frame sent, counted at its port. -/
def Dev.txCount (d : Dev) (p n : Nat) : Dev :=
  let d := d.setW R.MAC_TX_FRAMES (macIx p) (d.getW R.MAC_TX_FRAMES (macIx p) + 1)
  d.setW R.MAC_TX_OCTETS (macIx p) (d.getW R.MAC_TX_OCTETS (macIx p) + n)

/-- R426, R430, R459, R464, R583: the frame in transmission at a port ends. A cut-through frame cannot end while its cells still come; one whose transfer was
given up ends with a stomped FCS. -/
def Dev.txEnd (d : Dev) (p : Nat) (err : Bool) : Dev :=
  match (d.egrOf p).tx with
  | none => d
  | some t =>
    let idle := fun (d : Dev) => d.updEgr p (fun g => { g with tx := none })
    match t.cls, t.ent with
    | some c, some e =>
      if e.flight then (if d.flying (eqKey p c) e then d else (idle (((d.txOut p (stompFcs e.bytes)).bump R.TMG_STOMP_CNT (schP p) "COUNT" 1).txCount p e.bytes.length)).select p) else
      let (d, bad, drop) := d.dataRead e err p
      let (d, mm) := if bad && drop then (d, false) else d.macMem p 1
      let true_ := max 1 ((e.bytes.length : Nat) + d.ovh p)
      if bad && drop then (idle ((d.credit p c t.len).discardEnt p e)).select p
      else
        let st := e.stomp || bad || mm
        let d := d.txOut p (if st then stompFcs e.bytes else e.bytes)
        let d := if st then d.bump R.TMG_STOMP_CNT (schP p) "COUNT" 1 else d
        let d := if e.cut then (d.bump R.TMG_CT_CNT (schP p) "COUNT" 1).credit p c (t.len - true_) else d
        let d := d.txCount p e.bytes.length
        let d := match e.stamp with | some id => d.stampDue (p / 16) ⟨b2n st, p, id, 0, t.hold⟩ | none => d
        (idle (d.entEnd e)).select p
    | _, _ =>
      let (d, mm) := d.macMem p 1
      let d := (d.txOut p (if mm then stompFcs t.bytes else t.bytes)).macCnt p t.len.toNat 1
      (idle (d.txCount p t.bytes.length)).select p

/-! ## Gate commands (R474–R478) -/

/-- R480: a frame in transmission whose gate is closed now counts, once. -/
def Dev.gateLook (d : Dev) (p : Nat) : Dev :=
  match (d.egrOf p).tx with
  | some t =>
    match t.cls with
    | some c =>
      if !t.closed && !hasBit (d.gateStates p) c then
        (d.bump R.SCH_GATE_OVR (schP p) "COUNT" 1).updEgr p (fun g => { g with tx := some { t with closed := true } })
      else d
    | none => d
  | none => d

/-- R474: the operating entry of a port changes. -/
def Dev.setGates (d : Dev) (p idx states : Nat) : Dev :=
  ((d.put R.SCH_GATE_OPER (schP p) "STATES" states).put R.SCH_GATE_OPER (schP p) "IDX" idx).gateLook p

/-- R474: the operating entry at a place in the cycle takes effect; with no entries the INIT states hold. -/
def Dev.gateAt (d : Dev) (p : Nat) (pos : Int) : Dev :=
  let ss := d.segs p
  match (ss.zip (List.range ss.length)).find? (fun s => decide (((s.1.2.1 * nsUnit : Nat) : Int) > pos)) with
  | some (s, n) => d.setGates p n s.2.2
  | none => d.setGates p 0 (d.get R.SCH_GATE_CTL (schP p) "INIT")

/-- R476: the administrative parameters break a rule. -/
def Dev.gateBad (d : Dev) (p len : Nat) : Bool :=
  let cyc := d.get R.SCH_GATE_CYCLE (schP p) "CYCLE_NS"
  decide (len > 1024) || decide (cyc < 1000) || decide (cyc > 999999999) || decide (d.get R.SCH_GATE_BASE_NS (schP p) "NS" ≥ 1000000000)
    || !d.bit R.SCH_PORT_CFG (schP p) "GATE_EN"
    || (List.range (min len 1024)).any (fun n => decide (d.get R.SCH_GATE_LIST (schP p ++ [n]) "INTERVAL" < 16))

/-- R475: the change time CT that a request fixes. -/
def Dev.gateCT (d : Dev) (p : Nat) : Int :=
  let base : Int := ((d.getW R.SCH_GATE_BASE_SEC (schP p) * 1000000000 + d.get R.SCH_GATE_BASE_NS (schP p) "NS") * nsUnit : Nat)
  let cyc : Int := (d.get R.SCH_GATE_CYCLE (schP p) "CYCLE_NS" * nsUnit : Nat)
  let lead := d.now (p / 32) + (2000 * nsUnit : Nat)
  if base ≥ lead ∨ cyc = 0 then base else base + (-((base - lead) / cyc)) * cyc

/-- R475: CHANGE performed: PENDING, and CT shown. -/
def Dev.gateChange (d : Dev) (p : Nat) : Dev :=
  let ct := d.gateCT p
  ((d.put R.SCH_GATE_CTL (schP p) "PENDING" 1).setW R.SCH_GATE_CHG_SEC (schP p) (pSec ct)).put R.SCH_GATE_CHG_NS (schP p) "NS" (pNs ct)

/-- R475, R476: a write of SCH_GATE_CTL; a CHANGE that breaks a rule is refused. -/
def Dev.gateCtlWrite (d : Dev) (pa : Path) (p : Nat) (v : Nat) : Dev :=
  let off := R.SCH_GATE_CTL.addr (schP p)
  if d.bit R.SCH_GATE_CTL (schP p) "PENDING" then d.hostAcc pa 0x04 off v true
  else if hasBit v 31 && d.gateBad p (bitsOf v 10 0) then d.hostAcc pa 0x03 off v true
  else
    let d := (d.put R.SCH_GATE_CTL (schP p) "INIT" (bitsOf v 23 16)).put R.SCH_GATE_CTL (schP p) "ADMIN_LEN" (bitsOf v 10 0)
    ((if hasBit v 31 then d.gateChange p else d).gateLook p).select p

/-- R475: the administrative list and parameters become the operating ones. -/
def Dev.gateCopy (d : Dev) (p : Nat) : Dev :=
  let ct : Int := ((d.getW R.SCH_GATE_CHG_SEC (schP p) * 1000000000 + d.get R.SCH_GATE_CHG_NS (schP p) "NS") * nsUnit : Nat)
  let len := d.get R.SCH_GATE_CTL (schP p) "ADMIN_LEN"
  let d := (List.range len).foldl (fun d n => d.setW R.SCH_GATE_OLIST (schP p ++ [n]) (d.getW R.SCH_GATE_LIST (schP p ++ [n]))) d
  let d := d.put R.SCH_GATE_OCYCLE (schP p) "CYCLE_NS" (d.get R.SCH_GATE_CYCLE (schP p) "CYCLE_NS")
  let d := (d.put R.SCH_GATE_CTL (schP p) "PENDING" 0).put R.SCH_GATE_CTL (schP p) "OPER" 1
  d.updEgr p (fun g => { g with obase := ct, olen := len })

/-- R475: at CT the change takes effect, from the first entry on. -/
def Dev.gateConfig (d : Dev) (p : Nat) : Dev :=
  if !d.bit R.SCH_GATE_CTL (schP p) "PENDING" then d else ((d.gateCopy p).gateAt p 0).select p

/-- R474: the next entry of the operating list takes effect. -/
def Dev.gateEntry (d : Dev) (p : Nat) : Dev :=
  if !d.bit R.SCH_GATE_CTL (schP p) "OPER" || (d.egrOf p).olen = 0 then d else
  let ss := d.segs p
  let n := d.get R.SCH_GATE_OPER (schP p) "IDX" + 1
  let n := if n < ss.length then n else 0
  (d.setGates p n (ss.getD n (0, 0, 0)).2.2).select p

/-- R478: presented time stepped: a pending change it crosses takes effect, and at once the entry it falls in: no entry that it skips shows. -/
def Dev.gateStep (d : Dev) (p : Nat) : Dev :=
  let ct : Int := ((d.getW R.SCH_GATE_CHG_SEC (schP p) * 1000000000 + d.get R.SCH_GATE_CHG_NS (schP p) "NS") * nsUnit : Nat)
  let d := if d.bit R.SCH_GATE_CTL (schP p) "PENDING" && decide (d.now (p / 32) ≥ ct) then d.gateCopy p else d
  if d.bit R.SCH_GATE_CTL (schP p) "OPER" then (d.gateAt p (d.cyclePos p)).select p else d

/-- R466, R480: every front port looks at its gates and its queues again. -/
def Dev.lookAll (d : Dev) : Dev := (List.range 64).foldl (fun d p => (d.gateLook p).select p) d

/-! ## Shaper and pause events (R471, R547, R551) -/

/-- R471: tokens accrue in one bucket; one that reaches zero makes a selection at an idle port. -/
def Dev.shaperRefill (d : Dev) (p : Nat) (c : Option Nat) : Dev :=
  match c with
  | none =>
    let was := (d.egrOf p).ptok
    let d := d.accruePort p
    if was < 0 && decide ((d.egrOf p).ptok ≥ 0) then d.select p else d
  | some c =>
    let was := (d.egrOf p).qtok.getD c 0
    let d := d.accrueQ p c
    if was < 0 && decide ((d.egrOf p).qtok.getD c 0 ≥ 0) then d.select p else d

/-- R547: a pause time runs out. -/
def Dev.pauseExpire (d : Dev) (p : Nat) (c : Option Nat) : Dev :=
  match c with
  | none => if (d.egrOf p).pause = 0 then d else (d.updEgr p (fun g => { g with pause := 0 })).select p
  | some c => if (d.egrOf p).pfc.getD c 0 = 0 then d else (d.updEgr p (fun g => { g with pfc := setAt g.pfc c 0 })).select p

/-- R551: the pause of the classes still above XON is renewed. -/
def Dev.pfcRenew (d : Dev) (p : Nat) : Dev :=
  let mask := ((d.buf.xoff.filter (fun pc => pc / 8 == p && hasBit (d.get R.MAC_PFC_TX (macIx p) "EN") (pc % 8))).map (fun pc => 2 ^ (pc % 8))).sum
  if mask = 0 || !d.bit R.MAC_PORT_CFG (macIx p) "PFC_EN" then d else (d.sendCtl p 10 (pfcBody mask (d.get R.MAC_PFC_QUANTA (macIx p) "QUANTA"))).select p

/-! ## Stream identification, filtering and metering (R481–R485) -/

/-- R484: the offset after the last VLAN tag of the outermost Ethernet header. -/
def tagEnd (fr : List Byte) : Nat → Nat → Nat
  | 0, o => o
  | n + 1, o => if beAt fr o 2 = 0x8100 || beAt fr o 2 = 0x88A8 then tagEnd fr n (o + 4) else o

/-- Where the EtherType after the VLAN tags stands. -/
def etOff (fr : List Byte) : Nat := tagEnd fr 16 12

/-- Whether the outermost header has a VLAN tag, and its TCI. -/
def firstTag (fr : List Byte) : Option Nat := if beAt fr 12 2 = 0x8100 || beAt fr 12 2 = 0x88A8 then some (beAt fr 14 2) else none

/-- R484: the sequence number of the R-TAG. -/
def rtagOf (fr : List Byte) : Option Nat := if beAt fr (etOff fr) 2 = 0xF1C1 then some (beAt fr (etOff fr + 4) 2) else none

/-- R484: an R-TAG inserted, FCS computed again. -/
def rtagAdd (fr : List Byte) (s : Nat) : List Byte :=
  let o := etOff fr
  let b := fr.take o ++ [0xF1#8, 0xC1#8, 0#8, 0#8] ++ beBytes 2 s ++ (fr.take (fr.length - 4)).drop o
  b ++ fcsBytes b

/-- R487: an R-TAG removed, FCS computed again. -/
def rtagPop (fr : List Byte) : List Byte :=
  let o := etOff fr
  let b := fr.take o ++ (fr.take (fr.length - 4)).drop (o + 6)
  b ++ fcsBytes b

/-- The indices of a region's window registers. -/
def rw (g : Nat) : List Nat := [g / 2, g % 2]

/-- R481: the identification entries of a region in use, lowest first. -/
def Dev.sidList (d : Dev) (g : Nat) : List Nat :=
  let b := R.TSN_SID_W1.addr (rw g ++ [0])
  (d.regs.filterMap (fun x => if decide (b ≤ x.1) && decide (x.1 < b + 16 * 2048) && (x.1 - b) % 16 == 0 then some ((x.1 - b) / 16) else none)).filter
    (fun s => d.bit R.TSN_SID_W1 (rw g ++ [s]) "VALID")

/-- R481: the stream handle of a frame. -/
def Dev.streamOf (d : Dev) (g : Nat) (fr : List Byte) : Option Nat :=
  let vid := match firstTag fr with | some t => t % 4096 | none => 0
  let hit := fun (typ mac s : Nat) =>
    d.get R.TSN_SID_W1 (rw g ++ [s]) "TYPE" == typ && d.get R.TSN_SID_W1 (rw g ++ [s]) "VID" == vid
      && d.getW R.TSN_SID_W0 (rw g ++ [s]) + d.get R.TSN_SID_W1 (rw g ++ [s]) "MAC_HI" * 2 ^ 32 == mac
  let l := d.sidList g
  let s := match l.find? (hit 0 (beAt fr 0 6)) with
    | some s => some s
    | none => l.find? (hit 1 (beAt fr 6 6))
  s.map (fun s => d.get R.TSN_SID_W2 (rw g ++ [s]) "HANDLE")

/-- R483: the colours. -/
inductive Colour where
  | green | yellow | red
  deriving DecidableEq, Repr

/-- R483, R471: a meter's buckets refilled. -/
def Dev.meterRefill (d : Dev) (g m : Nat) : Meter :=
  let ix := rw g ++ [m]
  let t := SMap.get d.egr.mtr (g * 1024 + m) ⟨0, 0, 0⟩
  let raw := d.tim.raw.get (g / 2)
  let dt := raw - t.last
  let cbs := tokUnit * d.get R.TSN_MTR_W2 ix "CBS"
  let ebs := tokUnit * d.get R.TSN_MTR_W3 ix "EBS"
  let c := t.c + d.get R.TSN_MTR_W0 ix "CIR" * 8 * dt
  let e := t.e + d.get R.TSN_MTR_W1 ix "EIR" * 8 * dt + (if d.bit R.TSN_MTR_W3 ix "CF" then c - cbs else 0)
  ⟨min c cbs, min e ebs, raw⟩

/-- R483: a meter colours a frame of length L. -/
def Dev.meter (d : Dev) (g m : Nat) (len : Nat) : Dev × Colour :=
  let ix := rw g ++ [m]
  let t := d.meterRefill g m
  let set := fun (d : Dev) (t : Meter) => { d with egr := { d.egr with mtr := SMap.put d.egr.mtr (g * 1024 + m) t } }
  if d.bit R.TSN_MTR_STAT ix "MARK_RED" then (set d t, .red)
  else if t.c ≥ tokUnit * len then (set d { t with c := t.c - tokUnit * len }, .green)
  else if t.e ≥ tokUnit * len then
    (set d { t with e := t.e - tokUnit * len }, if d.bit R.TSN_MTR_W3 ix "DROP_YEL" then .red else .yellow)
  else (if d.bit R.TSN_MTR_W3 ix "MARK_RED_EN" then (set d t).put R.TSN_MTR_STAT ix "MARK_RED" 1 else set d t, .red)

/-- R482–R486: what stream filtering leaves of a frame: dropped, the frame, the group its copies go to, the recovery instance. -/
structure TsnOut where
  drop : Bool
  bytes : List Byte
  repl : Option Nat
  rcv : Option Nat
  deriving DecidableEq, Repr

/-- R483: DEI set in the outermost VLAN tag. -/
def setDei (fr : List Byte) : List Byte :=
  match firstTag fr with
  | some _ => refcs (patch fr 14 [BitVec.ofNat 8 (setBits (byteAt fr 14) 4 4 1)])
  | none => fr

/-- R485: a replicated frame's R-TAG: one it carries stays. -/
def Dev.replicate (d : Dev) (g h : Nat) (fr : List Byte) : Dev × List Byte :=
  if (rtagOf fr).isSome then (d, fr) else
  let s := d.get R.TSN_SF_STAT (rw g ++ [h]) "SEQ"
  (d.put R.TSN_SF_STAT (rw g ++ [h]) "SEQ" (s + 1), rtagAdd fr s)

/-- R481–R485: the stream functions at the commit of a frame from front port p of region g. -/
def Dev.tsn (d : Dev) (g p : Nat) (fr : List Byte) : Dev × TsnOut :=
  match d.streamOf g fr with
  | none => (d.bump R.TSN_SID_MISS (rw g) "COUNT" 1, ⟨false, fr, none, none⟩)
  | some h =>
    let ix := rw g ++ [h]
    let cnt := fun (d : Dev) (k : Nat) => d.bump R.TSN_SF_CNT (ix ++ [k]) "COUNT" 1
    let w := fun n => d.get R.TSN_SF_W0 ix n
    let pcp := (firstTag fr).getD 0 / 8192
    if w "VALID" = 0 || (w "PRI_ANY" == 0 && pcp != w "PRI") then
      (d.bump R.TSN_FILT_MISS (rw g) "COUNT" 1, ⟨false, fr, none, none⟩)
    else
      let d := cnt d 0
      if d.bit R.TSN_SF_STAT ix "BLOCKED" then (d, ⟨true, fr, none, none⟩)
      else if w "MAX_SDU" != 0 && decide (fr.length > w "MAX_SDU") then
        let d := cnt d 2
        (if w "BLOCK_OVS" = 1 then d.put R.TSN_SF_STAT ix "BLOCKED" 1 else d, ⟨true, fr, none, none⟩)
      else
        let len := (max 1 ((fr.length : Nat) + d.ovh p)).toNat
        let (d, col) := if w "METER_EN" = 1 then d.meter g (w "METER") len else (d, .green)
        if col = .red then (cnt d 3, ⟨true, fr, none, none⟩)
        else
          let fr := if col = .yellow && d.bit R.TSN_MTR_W3 (rw g ++ [w "METER"]) "YEL_DEI" then setDei fr else fr
          let d := cnt d 1
          let rcv := if d.bit R.TSN_SF_W1 ix "RCV_EN" then some (d.get R.TSN_SF_W1 ix "RCV") else none
          if d.bit R.TSN_SF_W1 ix "REPL_EN" then
            let (d, fr) := d.replicate g h fr
            (d, ⟨false, fr, some (d.get R.TSN_SF_W1 ix "REPL_GRP"), rcv⟩)
          else (d, ⟨false, fr, none, rcv⟩)

/-! ## Recovery (R486–R489) -/

/-- The clear bits of a history among positions a to b - 1. -/
def clearBits (hist a b : Nat) : Nat := ((span a (b - 1)).filter (fun i => decide (i < b) && !hasBit hist i)).length

/-- R487: recovery instance r of region g on a frame: the part, and the frame when it passes. -/
def Dev.recover (d : Dev) (g r : Nat) (fr : List Byte) : Dev × Option (List Byte) :=
  let ix := rw g ++ [r]
  let key := g * 512 + r
  let cnt := fun (d : Dev) (k n : Nat) => d.bump R.TSN_RCV_CNT (ix ++ [k]) "COUNT" n
  let led := SMap.get d.egr.led key (0, 0)
  let setLed := fun (d : Dev) (x : Nat × Nat) =>
    if d.bit R.TSN_RCV_W0 ix "LED_EN" then { d with egr := { d.egr with led := SMap.put d.egr.led key x } } else d
  let setH := fun (d : Dev) (h : Nat) => { d with egr := { d.egr with hist := SMap.put d.egr.hist key h } }
  let hl := d.get R.TSN_RCV_W0 ix "HISTORY"
  let hist := SMap.get d.egr.hist key 0
  match rtagOf fr with
  | none => (cnt d 5 1, if d.bit R.TSN_RCV_W0 ix "TAKE_NOSEQ" then some fr else none)
  | some s =>
    let out := if d.bit R.TSN_RCV_W0 ix "POP_RTAG" then rtagPop fr else fr
    let pass := fun (d : Dev) => setLed (cnt d 0 1) (led.1 + 1, led.2)
    if d.bit R.TSN_RCV_ST ix "FRESH" then
      (pass (setH ((d.put R.TSN_RCV_ST ix "RSN" s).put R.TSN_RCV_ST ix "FRESH" 0) 1), some out)
    else
      let dl := sgn 16 (s + 65536 - d.get R.TSN_RCV_ST ix "RSN")
      if dl ≥ (hl : Nat) ∨ dl ≤ -(hl : Nat) then (cnt d 3 1, none)
      else if dl ≤ 0 then
        let i := (-dl).toNat
        if hasBit hist i then (setLed (cnt d 1 1) (led.1, led.2 + 1), none)
        else (pass (cnt (setH d (hist + 2 ^ i)) 2 1), some out)
      else
        let n := dl.toNat
        let d := cnt d 4 (clearBits hist (hl - n) hl)
        (pass ((setH d (hist * 2 ^ n % 2 ^ hl + 1)).put R.TSN_RCV_ST ix "RSN" s), some out)

/-- R487: RESET_MS passed with no frame passed. -/
def Dev.recoveryReset (d : Dev) (g r : Nat) : Dev :=
  let ix := rw g ++ [r]
  if d.get R.TSN_RCV_W0 ix "RESET_MS" = 0 || !d.bit R.TSN_RCV_W0 ix "VALID" then d
  else (d.put R.TSN_RCV_ST ix "FRESH" 1).bump R.TSN_RCV_CNT (ix ++ [6]) "COUNT" 1

/-- R489: the end of a test period; an injected TSN_LED makes it count as exceeding. -/
def Dev.ledPeriod (d : Dev) (g r : Nat) : Dev :=
  let ix := rw g ++ [r]
  let k := g / 2
  if !d.bit R.TSN_RCV_W0 ix "LED_EN" || !d.bit R.TSN_RCV_W0 ix "VALID" then d else
  let led := SMap.get d.egr.led (g * 512 + r) (0, 0)
  let x := ((d.get R.TSN_RCV_W1 ix "LED_PATHS" - 1) * led.1 : Nat)
  let diff := if led.2 ≥ x then led.2 - x else x - led.2
  let inj := (d.injAt k 0x70 (g % 2) r).isSome
  let d := if inj then d.injPlanted k else d
  let d := { d with egr := { d.egr with led := SMap.del d.egr.led (g * 512 + r) } }
  if inj || decide (diff > d.get R.TSN_RCV_W1 ix "LED_DIFF") then
    (d.bump R.TSN_RCV_CNT (ix ++ [7]) "COUNT" 1).errEvent (mkEvent k 0x70 (g % 2) 2 1 (leBytes 2 r ++ leBytes 2 0 ++ leBytes 4 diff)) inj
  else d

/-! ## Fabric arrivals (R443, R448, R486) -/

/-- R486: the recovery instance of an entry on its way to an egress queue; one that is not VALID is not run: DEDUCED, log entry 139. -/
def Dev.recovered (d : Dev) (q : Nat) (e : QEnt) : Dev × Option (List Byte) :=
  match e.rcv with
  | some r => if d.bit R.TSN_RCV_W0 (rw (eqRegion q) ++ [r]) "VALID" then d.recover (eqRegion q) r e.bytes else (d, some e.bytes)
  | none => (d, some e.bytes)

/-- R443, R486: an entry reaches its egress queue, through its recovery instance. -/
def Dev.toEgress (d : Dev) (q : Nat) (e : QEnt) : Dev :=
  match d.recovered q e with
  | (d, none) => d.discardEnt (q / 8) e
  | (d, some b) => (d.setEq q (d.eqOf q ++ [{ e with bytes := b }])).select (q / 8)

/-- R446: the entry of a frame whose cells still come, in its egress queue or in transmission from it, changed. -/
def Dev.updFlight (d : Dev) (q pkt : Nat) (f : QEnt → QEnt) : Dev :=
  let g := fun (e : QEnt) => if e.flight && e.pkt == pkt then f e else e
  let d := if (d.eqOf q).any (fun e => e.flight && e.pkt == pkt) then d.setEq q ((d.eqOf q).map g) else d
  match (d.egrOf (q / 8)).tx with
  | some t =>
    if t.cls == some (q % 8) && (match t.ent with | some e => e.flight && e.pkt == pkt | none => false) then
      d.updEgr (q / 8) (fun s => { s with tx := some { t with ent := t.ent.map g } })
    else d
  | none => d

/-- R446: a frame of a transfer has an entry in its egress queue or in transmission from it. -/
def Dev.hasFlight (d : Dev) (q pkt : Nat) : Bool :=
  let mine := fun (e : QEnt) => e.flight && e.pkt == pkt
  (d.eqOf q).any mine || (match (d.egrOf (q / 8)).tx with | some t => t.cls == some (q % 8) && (t.ent.map mine).getD false | none => false)

/-- R446, R458: the first cell of a cut-through frame has reached its egress region: its entry joins the egress queue, and its transmission may begin. -/
def Dev.cutArrive (d : Dev) (kx : Nat × Xfer) : Dev :=
  let g := kx.1 / 4
  let v := kx.2.v
  match (d.voqOf g v).ents.head? with
  | none => d
  | some e =>
    if kx.1 ≥ 16 || kx.2.sent = 0 || kx.2.put || !e.cut then d else
    let q := d.voqTarget v
    match d.recovered q e with
    | (d, none) => (((d.xferGone g v).voqPop g v).discardEnt (q / 8) e).settle
    | (d, some b) =>
      let d := d.setXfer kx.1 { kx.2 with put := true }
      ((d.setEq q (d.eqOf q ++ [{ e with bytes := b, flight := true }])).select (q / 8)).settle

/-- R441, R446, R447: one fabric slot, and the cut-through frames that it brings to their queues. -/
def Dev.fabricTick (d : Dev) : Dev := let d := d.fabricSlot; d.buf.xfer.foldl Dev.cutArrive d

/-- R443, R446: an entry whose cells have all come takes its place in the egress queue: that of the frame that stood there, or a new one. -/
def Dev.landEnt (d : Dev) (q : Nat) (put : Bool) (e : QEnt) : Dev :=
  if !put then d.toEgress q e
  else if d.hasFlight q e.pkt then
    (d.updFlight q e.pkt (fun c => { c with flight := false, head := e.head, n := e.n, owner := e.owner, charge := e.charge, stomp := c.stomp || e.stomp })).select
      (q / 8)
  else d.discardEnt (q / 8) e

/-- R430, R446: an entry discarded at the end of its transfer; of a frame in transmission, what has been sent stands. -/
def Dev.loseEnt (d : Dev) (q : Nat) (put : Bool) (e : QEnt) : Dev :=
  (if put then d.setEq q ((d.eqOf q).filter (fun c => !(c.flight && c.pkt == e.pkt))) else d).discardEnt (q / 8) e

/-- R443, R444, R430: the packet of a transfer is all in its egress region: within one die its reference moves; to the other die its cells are
copied and the VOQ's reference released. -/
def Dev.finishXfer (d : Dev) (g j key : Nat) (x : Xfer) (err stomp : Bool) : Dev :=
  let d := { d with buf := { d.buf with xfer := SMap.del d.buf.xfer key } }
  match (d.voqOf g x.v).ents.head? with
  | none => d
  | some e =>
    let q := d.voqTarget x.v
    let e := { e with stomp := e.stomp || stomp }
    if g / 2 = j / 2 then ((d.voqPop g x.v).landEnt q x.put e).settle
    else
      let (d, bad, drop) := d.dataRead e err 0xFF
      if bad && drop then ((d.voqPop g x.v).loseEnt q x.put e).settle
      else
        match d.allocFrame (j / 2) 9 e.part (min (256 * e.n) (max e.bytes.length (256 * (e.n - 1) + 1))) none false with
        | (d, .ok h) =>
          let d := (d.voqPop g x.v).entEnd e
          (d.landEnt q x.put { e with head := h, owner := 9, charge := none, stomp := e.stomp || bad }).settle
        | (d, .error _) => ((d.voqPop g x.v).loseEnt q x.put e).settle

/-- R443: FABRIC_TRANSFER_COMPLETE. -/
def Dev.fabricDone (d : Dev) (g j : Nat) (err : Bool) : Dev :=
  match d.xferDone g j with
  | some (key, x) => d.finishXfer g j key x err false
  | none => d

/-- R448: the gap of a transfer to egress region j persists: its frame is completed with zeros and a stomped FCS, or discarded when DROP is armed. -/
def Dev.reseqEnd (d : Dev) (j key : Nat) (x : Xfer) (inj : Bool) : Dev :=
  let k := j / 2
  let g := (key - 16) / 520
  let miss := (List.range x.total).filter (fun i => !x.arrived.contains i)
  let drop := d.armed k 0x43 0
  let d := d.bump R.TMG_RESEQ_CNT [k] "COUNT" 1
  let d := d.errEvent (mkEvent k 0x43 (j % 2) 2 1 (leBytes 2 x.v ++ [BitVec.ofNat 8 g, 0#8] ++ leBytes 2 (x.seq + miss.headD 0))) inj
    (if drop then ⟨true, 0⟩ else noResp)
  if drop then
    match (d.voqOf g x.v).ents.head? with
    | some e => ((((d.xferGone g x.v).voqPop g x.v).discardEnt (d.voqTarget x.v / 8) e)).settle
    | none => d
  else
    let zero := fun (bs : List Byte) => miss.foldl (fun b i => patch b (256 * i) (List.replicate (min 256 (b.length - 256 * i)) 0#8)) bs
    let q := d.voqOf g x.v
    let d := d.setVoq g x.v { q with ents := match q.ents with | e :: l => { e with bytes := zero e.bytes } :: l | [] => [] }
    d.finishXfer g j key x false true

/-- R448: RESEQ_TIMEOUT: a gap at egress region j persists. The loss that makes it is an injected one; another reaches the part as the event it raises
(log entry 153). -/
def Dev.reseqTimeout (d : Dev) (j : Nat) : Dev :=
  let waits := fun (x : Nat × Xfer) => x.1 ≥ 16 && eqRegion (d.voqTarget x.2.v) == j && x.2.sent == x.2.total && decide (x.2.arrived.length < x.2.total)
    && (decide (d.reseqUse j ≥ 2048) || !(d.buf.mid.any (fun m => m.2.any (fun c => c.g == (x.1 - 16) / 520 && c.v == x.2.v))))
  match d.buf.xfer.find? waits with
  | none => d
  | some (key, x) => d.reseqEnd j key x true

end Sys2Proof.Machine
end

