-- ==== Sys2Proof/Machine/Ports.lean ====
section
/-! DEFINITION. Ports, MACs and serial lanes (chapter 15): reception at the MAC, link states, the link-down hold, protection groups, PRBS. -/

namespace Sys2Proof.Machine

/-! ## Ports and lanes (R526–R528) -/

/-- R526: MODE of a front port. -/
def Dev.portMode (d : Dev) (p : Nat) : Nat := d.get R.MAC_PORT_CFG (macIx p) "MODE"

/-- R527: a write of MAC_PORT_CFG that a port's composition refuses. -/
def Dev.modeBad (d : Dev) (p mode : Nat) : Bool :=
  let n := modeLanes mode
  mode != 0 && (decide (mode > 10) || p % n != 0 ||
    (span (p / 16 * 16) (p / 16 * 16 + 15)).any (fun o => o != p && d.portMode o != 0 && decide (o < p + n) && decide (p < o + modeLanes (d.portMode o))))

/-- R536: MAC_LINK.STATE of a front port. -/
def Dev.linkState (d : Dev) (p : Nat) : Nat := d.get R.MAC_LINK (macIx p) "STATE"

/-- R536: a link state entered. -/
def Dev.setLink (d : Dev) (p s : Nat) : Dev := d.put R.MAC_LINK (macIx p) "STATE" s

/-- R536: the change bit of a port and the port-event vector. -/
def Dev.linkChg (d : Dev) (p : Nat) : Dev :=
  let ix := [p / 32, p / 16 % 2]
  (d.put R.MAC_LINK_CHG ix "CHG" (Nat.lor (d.get R.MAC_LINK_CHG ix "CHG") (2 ^ (p % 16)))).msix 0 (52 + p / 32)

/-! ## Reception at the MAC (R539–R546) -/

/-- R541: the EtherType after the last VLAN tag. -/
def lastEtype (fr : List Byte) : Nat := beAt fr (etOff fr) 2

/-- R541: the ingress class of a frame. -/
def Dev.macClass (d : Dev) (p : Nat) (fr : List Byte) : Nat :=
  let hit := (List.range 8).find? (fun f =>
    let ix := macIx p ++ [f]
    d.bit R.MAC_FILT_W0 ix "EN"
      && (!d.bit R.MAC_FILT_W0 ix "ET_EN" || d.get R.MAC_FILT_W1 ix "ETYPE" == lastEtype fr)
      && (!d.bit R.MAC_FILT_W0 ix "VID_EN" || (match firstTag fr with | some t => d.get R.MAC_FILT_W0 ix "VID" == t % 4096 | none => false)))
  match hit, firstTag fr with
  | some f, _ => d.get R.MAC_FILT_W0 (macIx p ++ [f]) "CLASS"
  | none, some t => let c := t / 8192 % 8; bitsOf (d.get R.MAC_CLASS_MAP (macIx p) "MAP") (3 * c + 2) (3 * c)
  | none, none => d.get R.MAC_PORT_CFG (macIx p) "DEF_CLASS"

/-- R546: a frame is a MAC control frame. -/
def isMacCtl (fr : List Byte) : Bool := beAt fr 12 2 == 0x8808

/-- R546–R549: a MAC control frame with a good FCS: PAUSE or PFC acts, any other is counted. -/
def Dev.macControl (d : Dev) (p : Nat) (fr : List Byte) : Dev :=
  let op := beAt fr 14 2
  let pfc := d.bit R.MAC_PORT_CFG (macIx p) "PFC_EN"
  let da := beAt fr 0 6 == 0x0180C2000001
  if da && op == 1 && !pfc then
    ((d.macCnt p 6 1).updEgr p (fun g => { g with pause := beAt fr 16 2 })).select p
  else if da && op == 0x0101 && pfc then
    ((d.macCnt p 7 1).updEgr p (fun g =>
      { g with pfc := (List.range 8).map (fun c => if hasBit (beAt fr 16 2) c then beAt fr (18 + 2 * c) 2 else g.pfc.getD c 0) })).select p
  else d.macCnt p 8 1

/-- R73: PAUSE with the maximum pause time on every port. -/
def Dev.pauseAll (d : Dev) : Dev :=
  (List.range 64).foldl (fun d p => if d.linkUp p then (d.sendCtl p 9 [0#8, 1#8, 0xFF#8, 0xFF#8]).select p else d) d

/-- R540: 1 for a failed FCS, 2 for a frame longer than MAXFRM_RX, 0 for a good frame. -/
def Dev.badFrame (d : Dev) (p : Nat) (fr : List Byte) : Nat :=
  if fr.length > d.get R.MAC_PORT_CFG (macIx p) "MAXFRM_RX" then 2 else if fcsGood fr then 0 else 1

/-- R540: the counter of a bad frame. -/
def Dev.countBad (d : Dev) (p bad : Nat) : Dev := if bad = 1 then d.macCnt p 0 1 else if bad = 2 then d.macCnt p 2 1 else d

/-! ## Link-down hold (R553–R556) -/

/-- Packet numbers without repeats. -/
def dedup (l : List Nat) : List Nat := l.foldl (fun a x => if a.contains x then a else a ++ [x]) []

/-- R555: every entry of some ports' egress queues and VOQs discarded: the part, and the packets. -/
def Dev.dropQueues (d : Dev) (ps : List Nat) : Dev × List Nat :=
  let qs := ps.flatMap (fun p => (List.range 8).map (fun c => eqKey p c))
  let (d, a) := qs.foldl (fun (x : Dev × List Nat) q =>
    let es := x.1.eqOf q
    (es.foldl (fun d e => d.discardEnt (q / 8) e) (x.1.setEq q []), x.2 ++ es.map (·.pkt))) (d, [])
  let vs := [0, 1, 2, 3].flatMap (fun g => ps.flatMap (fun p => (List.range 8).map (fun c => (g, 8 * p + c))))
  vs.foldl (fun (x : Dev × List Nat) gv =>
    let (d, es) := x.1.voqFlush gv.1 gv.2
    (es.foldl (fun d e => d.stampGone (gv.2 / 8) e.stamp) d,
      x.2 ++ es.map (·.pkt))) (d, a)

/-- R558: the ports whose traffic an active port takes. -/
def Dev.groupPorts (d : Dev) (p : Nat) : List Nat :=
  match d.protOf p with
  | some n => let ix := [p / 32, p / 16 % 2, n]; [p / 16 * 16 + d.get R.MAC_PROT ix "WORK", p / 16 * 16 + d.get R.MAC_PROT ix "PROT"]
  | none => [p]

/-- R555: the flush of a port. -/
def Dev.flushPort (d : Dev) (p : Nat) : Dev :=
  let d := (d.put R.MAC_LINK (macIx p) "FLUSHED" 1).put R.MAC_LINK (macIx p) "HOLD" 0
  let (d, l) := d.dropQueues (d.groupPorts p)
  (d.macCnt p 11 (dedup l).length).settle

/-- R555, R558: a hold in progress ends. In a group the hold acts by the state of the active port: that of the other port flushes nothing. -/
def Dev.holdEnd (d : Dev) (p : Nat) : Dev :=
  if !d.bit R.MAC_LINK (macIx p) "HOLD" then d
  else (if d.activePort p = p then d.flushPort p else d.put R.MAC_LINK (macIx p) "HOLD" 0).linkChg p

/-- R555: HOLD_EXPIRE. -/
def Dev.holdExpire (d : Dev) (p : Nat) : Dev := d.holdEnd p

/-! ## Protection groups (R557–R561) -/

/-- R559: the queued entries of a port moved behind those of another, class by class; they are sent stored-and-forwarded. -/
def Dev.moveQueues (d : Dev) (f o : Nat) : Dev :=
  (List.range 8).foldl (fun d c =>
    let es := (d.eqOf (eqKey f c)).map (fun e => { e with cut := false })
    (d.setEq (eqKey o c) (d.eqOf (eqKey o c) ++ es)).setEq (eqKey f c) []) d

/-- R559, R561: group n of region g moves to its other port. -/
def Dev.switchOver (d : Dev) (g n : Nat) : Dev :=
  let ix := [g / 2, g % 2, n]
  let a := d.bit R.MAC_PROT ix "ACTIVE"
  let w := 16 * g + d.get R.MAC_PROT ix "WORK"
  let p := 16 * g + d.get R.MAC_PROT ix "PROT"
  let d := if a then d.moveQueues p w else d.moveQueues w p
  let d := { d with egr := { d.egr with revert := d.egr.revert.filter (· != 8 * g + n) } }
  let d := d.put R.MAC_LINK (macIx (if a then p else w)) "HOLD" 0
  (((d.put R.MAC_PROT ix "ACTIVE" (b2n (!a))).bump R.MAC_PROT_SW ix "COUNT" 1).select (if a then w else p)).select (if a then p else w)

/-- R557: a write of a group that a rule refuses. -/
def Dev.protBad (d : Dev) (g n v : Nat) : Bool :=
  let ix := [g / 2, g % 2, n]
  let w := bitsOf v 23 20
  let p := bitsOf v 19 16
  let was := d.bit R.MAC_PROT ix "EN"
  let cfg := fun l => (d.get R.MAC_PORT_CFG [g / 2, g % 2, l] "MODE", d.get R.MAC_PORT_CFG [g / 2, g % 2, l] "FEC")
  let other := fun l => match d.protOf (16 * g + l) with | some m => m != n | none => false
  hasBit v 31 && (w == p || (cfg w).1 == 0 || cfg w != cfg p || other w || other p
    || (was && (w != d.get R.MAC_PROT ix "WORK" || p != d.get R.MAC_PROT ix "PROT")))

/-- R557, R561: a write of MAC_PROT. A revert that waits is withdrawn when the group goes out of use or REVERT is cleared. -/
def Dev.protWrite (d : Dev) (pa : Path) (g n v : Nat) : Dev :=
  let ix := [g / 2, g % 2, n]
  if d.protBad g n v then d.hostAcc pa 0x03 (R.MAC_PROT.addr ix) v true else
  let keep := if d.bit R.MAC_PROT ix "EN" && hasBit v 31 then d.get R.MAC_PROT ix "ACTIVE" else 0
  let d := if hasBit v 31 && hasBit v 29 then d else { d with egr := { d.egr with revert := d.egr.revert.filter (· != 8 * g + n) } }
  (d.setW R.MAC_PROT ix (setBits (setBits v 27 24 0) 28 28 keep))

/-- R561: WORK has been UP for WTR_MS: the revert waits for PROT's frame boundary. -/
def Dev.wtrExpire (d : Dev) (g n : Nat) : Dev :=
  let ix := [g / 2, g % 2, n]
  if d.bit R.MAC_PROT ix "EN" && d.bit R.MAC_PROT ix "REVERT" && d.bit R.MAC_PROT ix "ACTIVE"
      && d.linkUp (16 * g + d.get R.MAC_PROT ix "WORK") && !d.egr.revert.contains (8 * g + n) then
    { d with egr := { d.egr with revert := d.egr.revert ++ [8 * g + n] } }
  else d

/-- R561: at PROT's frame boundary its entries move to WORK. -/
def Dev.protRevert (d : Dev) (g n : Nat) : Dev :=
  let p := 16 * g + d.get R.MAC_PROT [g / 2, g % 2, n] "PROT"
  if d.bit R.MAC_PROT [g / 2, g % 2, n] "REVERT" && d.egr.revert.contains (8 * g + n) && (d.egrOf p).tx.isNone then d.switchOver g n else d

/-! ## Link states (R533–R537, R559) -/

/-- R536, R554: a port reaches UP: a hold ends, FLUSHED clears, its queues resume. -/
def Dev.enterUp (d : Dev) (p : Nat) : Dev :=
  let d := ((d.setLink p 3).put R.MAC_LINK (macIx p) "HOLD" 0).put R.MAC_LINK (macIx p) "FLUSHED" 0
  (d.linkChg p).select p

/-- R565: the bit inversions that wait are made once the lane has a serial stream: each inverted bit counts. -/
def Dev.injDue (d : Dev) (ln : Nat) : Dev :=
  let ix := macIx ln
  if d.laneData ln == .squelched && d.laneOut ln == .squelched then d else
  let n := b2n (d.bit R.SDS_PRBS_CTL ix "INJ_BIT") + (if d.bit R.SDS_PRBS_CTL ix "INJ_BURST" then d.get R.SDS_PRBS_CTL ix "BURST_LEN" else 0)
  ((d.put R.SDS_PRBS_CTL ix "INJ_BIT" 0).put R.SDS_PRBS_CTL ix "INJ_BURST" 0).bump R.SDS_INJ_CNT ix "COUNT" n

/-- R533, R536: a port leaves OFF when it has a mode, ADMIN = 1 and the part is in RUN or DRAIN. -/
def Dev.portStart (d : Dev) (p : Nat) : Dev :=
  if d.portMode p != 0 && d.bit R.MAC_PORT_CTL (macIx p) "ADMIN" && d.linkState p == 0 then
    (d.lanesOf p).foldl Dev.injDue ((d.setLink p 1).put R.MAC_LINK (macIx p) "FLUSHED" 1)
  else d

/-- R536, R559, R553, R556: the link of a port is declared down; `now` flushes at once. -/
def Dev.declareDown (d : Dev) (p : Nat) (now : Bool) : Dev :=
  let d := ((d.setLink p 1).macCnt p 12 1).linkChg p
  let hold := fun (d : Dev) =>
    if now || d.get R.MAC_LINK_TMR (macIx p) "HOLD_US" = 0 then d.flushPort p else d.put R.MAC_LINK (macIx p) "HOLD" 1
  match d.protOf p with
  | none => hold d
  | some n =>
    let g := p / 16
    let ix := [g / 2, g % 2, n]
    if d.protActive g n != p then d
    else
      let w := 16 * g + d.get R.MAC_PROT ix "WORK"
      let o := if w = p then 16 * g + d.get R.MAC_PROT ix "PROT" else w
      if d.bit R.MAC_PROT ix "ARM" && d.linkUp o then d.switchOver g n else hold d

/-- R528, R584: a port whose lanes are squelched sends nothing more: the frame in transmission is discarded. -/
def Dev.txCut (d : Dev) (p : Nat) : Dev :=
  let t := (d.egrOf p).tx
  let d := d.updEgr p (fun g => { g with tx := none, ctl := [], pause := 0, pfc := List.replicate 8 0 })
  let d := { d with egr := { d.egr with looped := d.egr.looped.filter (fun x => x.1 != p) } }
  match t.bind (·.ent) with
  | some e => d.discardEnt p e
  | none => d

/-- R536, R528, R556: a port goes OFF: a link that was up is declared down and flushed at once, a hold in progress is flushed. -/
def Dev.portStop (d : Dev) (p : Nat) : Dev :=
  let s := d.linkState p
  let d := if s = 3 || s = 4 then d.declareDown p true else d.holdEnd p
  let d := d.setLink p 0
  let d := { d with egr := { d.egr with revert := d.egr.revert.filter (fun x =>
    !(x / 8 == p / 16 && (d.get R.MAC_PROT [x / 16, x / 8 % 2, x % 8] "WORK" == p % 16 || d.get R.MAC_PROT [x / 16, x / 8 % 2, x % 8] "PROT" == p % 16))) } }
  d.txCut p

/-- R534–R537: the lanes of a port, as status bits. -/
def Dev.laneMask (d : Dev) (p : Nat) : Nat := 2 ^ modeLanes (d.portMode p) - 1

/-- R532: a lane's receiver status with signal: its settings are what adaptation found, free values. -/
def Dev.laneLocked (d : Dev) (ln : Nat) : Dev :=
  let (a, d) := d.fresh 32
  let (b, d) := d.fresh 256
  let (c, d) := d.fresh 256
  let old := d.getW R.SDS_RX_STAT (macIx ln)
  let keep := d.bit R.SDS_CTL (macIx ln) "ADAPT_FREEZE"
  let (a, b, c) := if keep then (bitsOf old 28 24, bitsOf old 23 16, bitsOf old 15 8) else (a, b, c)
  d.setW R.SDS_RX_STAT (macIx ln) (7 * 2 ^ 29 + a * 2 ^ 24 + b * 2 ^ 16 + c * 2 ^ 8)

/-- R80: a port's lanes lose power: their status is gone. -/
def Dev.lanesLost (d : Dev) (p : Nat) : Dev :=
  if d.portMode p = 0 then d else
  let d := (List.range (modeLanes (d.portMode p))).foldl (fun d i => d.setW R.SDS_RX_STAT (macIx (p + i)) 0) d
  (d.setW R.PCS_STAT (macIx p) 0).put R.MAC_LINK (macIx p) "LANES" 0

/-- R526: the mode of a port has an FEC sublayer. -/
def Dev.hasFec (d : Dev) (p : Nat) : Bool :=
  let m := d.portMode p
  if m = 2 || m = 4 then d.bit R.MAC_PORT_CFG (macIx p) "FEC" else decide (3 ≤ m)

/-- R569: what the FEC sublayer of a port corrected, and could not correct, up to now: free counts; each corrected codeword has a symbol corrected. -/
def Dev.fecCount (d : Dev) (p : Nat) : Dev :=
  if !d.hasFec p then d else
  let (c, d) := d.fresh (2 ^ 32)
  let (s, d) := d.fresh (2 ^ 32)
  let (u, d) := d.fresh (2 ^ 32)
  ((d.bump R.PCS_FEC_CORR (macIx p) "COUNT" c).bump R.PCS_FEC_SYM (macIx p) "COUNT" (c + if c = 0 then 0 else s)).bump R.PCS_FEC_UNC (macIx p) "COUNT" u

/-- R535: the invalid headers that a port's receivers have met, at least n: how many more is a free value. -/
def Dev.blkErr (d : Dev) (p n : Nat) : Dev := let (x, d) := d.fresh (2 ^ 32); d.bump R.PCS_BLK_ERR (macIx p) "COUNT" (n + x)

/-- R534, R569: lanes too far apart to be aligned: the lanes have their locks and the skew is shown; the streams of an FEC mode, which the FEC sublayer
recovers from aligned lanes, have no block lock (DEDUCED, log entry 90). The event counts in PCS_LOCK_LOSS. -/
def Dev.tooSkewed (d : Dev) (p skew : Nat) : Dev :=
  let d := (List.range (modeLanes (d.portMode p))).foldl (fun d i => d.laneLocked (p + i)) ((d.blkErr p 0).fecCount p)
  let d := d.setW R.PCS_STAT (macIx p) (2 ^ 31 + 2 ^ 30 * b2n (!d.hasFec p) + min 255 skew)
  (d.put R.MAC_LINK (macIx p) "LANES" (d.laneMask p)).bump R.PCS_LOCK_LOSS (macIx p) "COUNT" 1

/-- R534–R536: every lane of a port has its locks: HUNT goes to LOCKED, FAULT back to UP; more than 180 ns of skew keeps a port in HUNT. A port in OFF
stays there and shows the locks of its lanes, which are powered (R528). -/
def Dev.lockAcquired (d : Dev) (p skew : Nat) : Dev :=
  let s := d.linkState p
  if !(s == 1 || s == 4 || (s == 0 && d.portMode p != 0 && d.lanesOn)) then d
  else if decide (modeLanes (d.portMode p) > 1) && decide (skew > 180) then
    if s = 1 then d.tooSkewed p skew else d
  else
    let n := modeLanes (d.portMode p)
    let d := (List.range n).foldl (fun d i => d.laneLocked (p + i)) ((d.blkErr p 0).fecCount p)
    let d := d.setW R.PCS_STAT (macIx p) (7 * 2 ^ 29 + min 255 skew)
    let d := ((d.put R.MAC_LINK (macIx p) "LANES" (d.laneMask p)).put R.MAC_LINK (macIx p) "LF" 0).put R.MAC_LINK (macIx p) "RF" 0
    if s = 1 then d.setLink p 2 else if s = 4 then d.enterUp p else d

/-- R535, R569: a lane of a port loses a lock that it had: it shows in LANES, the alignment and the block lock of the port end, and each loss of block lock
counts, with the invalid headers that made it (DEDUCED, log entry 157). `hdr` are those that the loss itself needs. -/
def Dev.unlock (d : Dev) (p ln hdr : Nat) (fields : List String) : Dev :=
  let lanes := d.get R.MAC_LINK (macIx p) "LANES"
  let had := hasBit lanes (ln - p) && d.bit R.PCS_STAT (macIx p) "BLK_LOCK"
  let d := if had then (d.bump R.PCS_LOCK_LOSS (macIx p) "COUNT" 1).blkErr p hdr else d
  (fields.foldl (fun d f => d.put R.PCS_STAT (macIx p) f 0) d).put R.MAC_LINK (macIx p) "LANES" (setBits lanes (ln - p) (ln - p) 0)

/-- R532, R537, R569: the loss condition of a lane as the registers show it. Without a signal there is no clock to recover and nothing to adapt to; without a
clock no marker, no alignment and no block. A block lock of an FEC mode is lost behind the alignment. -/
def Dev.showLoss (d : Dev) (p ln : Nat) (l : Loss) : Dev :=
  let all := ["BLK_LOCK", "DESKEW", "AM_LOCK"]
  match l with
  | .signal => (((d.put R.SDS_RX_STAT (macIx ln) "SIGDET" 0).put R.SDS_RX_STAT (macIx ln) "CDR_LOCK" 0).put R.SDS_RX_STAT (macIx ln) "ADAPTED" 0).unlock p ln 0 all
  | .cdr => (d.put R.SDS_RX_STAT (macIx ln) "CDR_LOCK" 0).unlock p ln 0 all
  | .marker => d.unlock p ln 0 all
  | .block => d.unlock p ln 16 (if d.hasFec p then ["BLK_LOCK"] else ["BLK_LOCK", "DESKEW"])
  | .localFault => d.put R.MAC_LINK (macIx p) "LF" 1
  | .remoteFault => d.put R.MAC_LINK (macIx p) "RF" 1

/-- R536, R537, R561: a loss condition: UP goes to FAULT, LOCKED to HUNT; a revert to a WORK port that lost its link no longer waits. A mode without FEC has
no marker lock to lose (R534). -/
def Dev.loss (d : Dev) (p ln : Nat) (l : Loss) : Dev :=
  let s := d.linkState p
  if (s = 0 && (d.portMode p = 0 || !d.lanesOn)) || (l == .marker && !d.hasFec p) then d else
  let d := d.showLoss p ln l
  let d := { d with egr := { d.egr with revert := d.egr.revert.filter (fun x =>
    !(x / 8 == p / 16 && d.get R.MAC_PROT [x / 16, x / 8 % 2, x % 8] "WORK" == p % 16)) } }
  if s = 3 then d.setLink p 4 else if s = 2 then d.setLink p 1 else d

/-- R556, R533: a write of ADMIN. -/
def Dev.adminWrite (d : Dev) (p : Nat) (v : Bool) : Dev :=
  let d := d.put R.MAC_PORT_CTL (macIx p) "ADMIN" (b2n v)
  if v then (if d.running then d.portStart p else d) else (if d.linkState p = 0 then d else d.portStop p)

/-! ## Lanes: injection, PRBS, PLLs (R563–R567) -/

/-- R532, R564: the checker locks, to a signal that the lane's receiver then has. -/
def Dev.prbsLock (d : Dev) (ln : Nat) : Dev :=
  if !d.bit R.SDS_PRBS_CTL (macIx ln) "CHK_EN" || !d.lanesOn then d else
  let d := if d.bit R.SDS_RX_STAT (macIx ln) "CDR_LOCK" then d else d.laneLocked ln
  d.put R.SDS_PRBS_STAT (macIx ln) "CHK_LOCK" 1

/-- R564: a locked checker has checked at least b bits more, e of them in error; how many more is a free value. -/
def Dev.prbsCount (d : Dev) (ln b e : Nat) : Dev :=
  let (n, d) := d.fresh (2 ^ 40)
  let (m, d) := d.fresh (n + 1)
  let d := d.bumpSat R.SDS_PRBS_ERR (macIx ln) "COUNT" (e + m)
  d.setW R.SDS_PRBS_BITS (macIx ln) (d.getW R.SDS_PRBS_BITS (macIx ln) + b + n)

/-- R564: a checker's lock ends, with what it counted. -/
def Dev.prbsTally (d : Dev) (ln b e : Nat) : Dev := (d.put R.SDS_PRBS_STAT (macIx ln) "CHK_LOCK" 0).prbsCount ln b e

/-- R564: the checker loses lock: it had checked at least 64 bits with at least 16 errors; how many more is a free value. -/
def Dev.prbsLoss (d : Dev) (ln : Nat) : Dev :=
  if d.bit R.SDS_PRBS_STAT (macIx ln) "CHK_LOCK" then d.prbsTally ln 64 16 else d

/-- R564: a checker turned off while it is locked has counted what it checked. -/
def Dev.prbsOff (d : Dev) (ln : Nat) : Dev := if d.bit R.SDS_PRBS_STAT (macIx ln) "CHK_LOCK" then d.prbsTally ln 0 0 else d

/-- R567: a lane's PLL loses lock: reported as class U, and its port sees a loss of CDR lock. -/
def Dev.pllLoss (d : Dev) (ln : Nat) (tx : Bool) : Dev :=
  let k := ln / 32
  let inj := !tx && d.injArmed k 0x60 (ln % 32)
  let d := if inj then d.injPlanted k else d
  let d := d.errEvent (mkEvent k 0x60 (ln % 32) 3 1 [BitVec.ofNat 8 (ln % 32), BitVec.ofNat 8 (b2n tx)]) inj
  match d.portOfLane ln with
  | some p => d.loss p ln .cdr
  | none => if tx then d else d.put R.SDS_RX_STAT (macIx ln) "CDR_LOCK" 0

/-- R563: a write of SDS_PRBS_CTL or SDS_CTL that turns a generator, checker or loopback on is accepted only in LOAD, PROOF, and in RUN for a
lane of no port with ADMIN = 1. -/
def Dev.laneTestOk (d : Dev) (ln : Nat) : Bool :=
  d.glb.mode == .load || d.glb.mode == .proof || (d.glb.mode == .run &&
    (match d.portOfLane ln with | some p => !d.bit R.MAC_PORT_CTL (macIx p) "ADMIN" | none => true))

end Sys2Proof.Machine
end

