-- ==== Sys2Proof/Machine/Forward.lean ====
section
/-! DEFINITION. What a commit does with a packet (R186, R190): hint entries, speculative effects, exception and mirror entries, multicast, cut-through,
translation, steering, stream functions, and the enqueue of R425–R458. -/

namespace Sys2Proof.Machine

/-! ## Packets and the commit window (R195) -/

/-- A packet by its number. -/
def Dev.pkt (d : Dev) (n : Nat) : Option Pkt := SMap.look d.pk.pkts n

/-- A packet replaced. -/
def Dev.setPkt (d : Dev) (n : Nat) (p : Pkt) : Dev := { d with pk := { d.pk with pkts := SMap.put d.pk.pkts n p } }

/-- The commit window of a region. -/
def Dev.winOf (d : Dev) (g : Nat) : List (Nat × Nat) := d.pk.win.getD g []

/-- R193: a packet leaves the replay order of its region. -/
def Dev.leaveReplay (d : Dev) (g n : Nat) : Dev :=
  { d with pk := { d.pk with replay := setAt d.pk.replay g ((d.pk.replay.getD g []).filter (· != n)),
                             run := setAt d.pk.run g ((d.pk.run.getD g []).filter (· != n)) } }

/-- R195: a packet gives up its window entry. -/
def Dev.leaveWin (d : Dev) (g n : Nat) : Dev :=
  { d with pk := { d.pk with win := setAt d.pk.win g ((d.winOf g).filter (fun x => x.2 != n)) } }.leaveReplay g n

/-- R195: the lowest window entry not in use. -/
def Dev.winFree (d : Dev) (g : Nat) : Nat :=
  ((List.range 2048).find? (fun i => !(d.winOf g).any (fun x => x.1 == i))).getD 0

/-- A packet leaves the part's pipeline; queue entries stand on their own references. -/
def Dev.delPkt (d : Dev) (n : Nat) (p : Pkt) : Dev :=
  let d := d.leaveWin p.g n
  { d with pk := { d.pk with pkts := SMap.del d.pk.pkts n } }

/-- R425: the packet's own reference ends with it. -/
def Dev.endPkt (d : Dev) (n : Nat) (p : Pkt) : Dev := (d.releaseRef p.head p.agent).delPkt n p

/-- R191: the packet's speculative entry voided, its deltas and sources discarded. -/
def Dev.voidSpec (d : Dev) (n : Nat) (p : Pkt) : Dev × Pkt :=
  let d := match p.spec with | some v => d.voidEnt p.g v n | none => d
  (d, { p with spec := none, deltas := [], src := [], snap := none })

/-- R170, R195: another packet of the same flow and ingress port. -/
def sameFlow (p q : Pkt) : Bool := q.h == p.h && q.h.isSome && q.port == p.port && q.g == p.g

/-- The stages of a packet that its commit window holds undecided or uncommitted. -/
def winStages : List Stage := [.window, .crossing, .remote, .verdict, .replay]

/-- R192: the later uncommitted packets of a packet's flow and ingress port, in arrival order. -/
def Dev.later (d : Dev) (p : Pkt) : List Nat :=
  (d.pk.pkts.filter (fun x => sameFlow p x.2 && decide (x.2.ord > p.ord) && winStages.contains x.2.stage)).map Prod.fst

/-- R193: whether an earlier packet of a packet's flow and ingress port is in one of some stages. -/
def Dev.earlierIn (d : Dev) (p : Pkt) (st : List Stage) : Bool :=
  d.pk.pkts.any (fun x => sameFlow p x.2 && decide (x.2.ord < p.ord) && st.contains x.2.stage)

/-- R170: the entries that later packets of a packet's flow have in VOQ v are voided, so that none stands before its own; they enqueue at their commit.
DEDUCED, log 135. -/
def Dev.liftLater (d : Dev) (p : Pkt) (v : Nat) : Dev :=
  if p.win.isNone then d else
  (d.later p).foldl (fun d n =>
    match d.pkt n with
    | some q => if q.spec == some v then (d.voidEnt q.g v n).setPkt n { q with spec := none } else d
    | none => d) d

/-- R676: the one VOQ that a packet names: that of its speculative entry, or, once its stages have run, that of its destination port and class. -/
def Pkt.voq (p : Pkt) : Option Nat :=
  match p.spec, p.snap, p.img with
  | some v, _, _ => some v
  | none, some s, some r =>
    let dest := (s.destOf (r.initiator p.swap) p).1
    if dest ≤ 64 && s.act == r.action && s.aux == r.aux then some (8 * dest + classOf s.ent p.md) else none
  | _, _, _ => none

/-- A value that may be there, else a free one below a bound. -/
def Dev.orFree (d : Dev) (x : Option Nat) (bound : Nat) : Nat × Dev := match x with | some v => (v, d) | none => d.fresh bound

/-- R676: a PIPE record of the ingress region's window. The window entry and the VOQ of a packet that has none are free values (log entry 142). -/
def Dev.pipeTrace (d : Dev) (p : Pkt) (typ : Nat) : Dev :=
  let (win, d) := d.orFree p.win 65536
  let (voq, d) := d.orFree p.voq 65536
  let h := p.h.getD 0
  let mask := d.get R.TRC_PIPE_HM [p.d] "MASK"
  let sel := hasBit (d.get R.TRC_SRC_CFG [p.d, 1] "SEL") (p.g % 2)
    && (if typ = 9 then mask == 0 else Nat.land (Nat.xor (h / 2 ^ 32) (d.get R.TRC_PIPE_H [p.d] "MATCH")) mask == 0)
  let act := match p.img with | some r => r.action | none => p.pact
  d.trace p.d 1 typ (leBytes 1 p.g ++ leBytes 1 p.port ++ leBytes 2 win ++ (if typ = 9 then leBytes 8 p.malf else leBytes 8 h)
    ++ leBytes 3 act ++ leBytes 1 (b2n p.replayed + 2 * b2n p.pred) ++ leBytes 2 voq) sel

/-! ## Hint entries (R177–R179) -/

/-- The key of the hint entry of H on die k. -/
def hintKey (k h : Nat) : Nat := k * 2 ^ 21 + bitsOf h 41 21

/-- R177, R181: the entry of H, when it matches. -/
def Dev.hintMatch (d : Dev) (k h : Nat) : Option Nat :=
  let e := SMap.get d.flw.hint (hintKey k h) 0
  if hasBit e 63 && bitsOf e 62 49 == bitsOf h 63 50 && !d.bit R.FLW_MIR_CTL [k] "INV_BUSY" then some e else none

/-- R179: the hint entry written at a commit. CONF of a predicted packet whose entry no longer matches counts on from the CONF it was predicted with; an
unpredicted packet whose entry matches adds 1 whatever its CONF: DESIGN CHOICE, log 115. -/
def Dev.hintWrite (d : Dev) (p : Pkt) (ra action aux : Nat) : Dev :=
  match p.h with
  | none => d
  | some h =>
    let old := d.hintMatch p.d h
    let conf := if p.replayed then 0
      else match old with
        | some e => min (bitsOf e 44 43 + 1) 3
        | none => if p.pred then min (p.pconf + 1) 3 else 1
    let alt := b2n (candB h == (raStack ra, raBucket ra))
    let e := 2 ^ 63 + bitsOf h 63 50 * 2 ^ 49 + alt * 2 ^ 48 + raSlot ra * 2 ^ 45 + conf * 2 ^ 43 + action * 2 ^ 16 + aux
    { d with flw := { d.flw with hint := SMap.put d.flw.hint (hintKey p.d h) e } }

/-! ## Queue entries -/

/-- R632: what a receive descriptor will say of the packet. -/
def Pkt.info (p : Pkt) (kind srcId : Nat) : RxInfo := ⟨kind, if kind = 3 then p.malf else 0, p.port, srcId, leAt p.md 0 2, p.h, p.stamp⟩

/-- R425: an entry that names a packet, with the frame as it leaves. -/
def Dev.mkEnt (d : Dev) (n : Nat) (p : Pkt) (fr : List Byte) (committed : Bool) (info : RxInfo) : QEnt :=
  ⟨n, p.head, cellsOf p.bytes.length, p.agent, p.part, none, fr, committed, false, false, d.now p.d, none, none, info, false⟩

/-- R438: the host VOQ of exception and divert traffic. -/
def Dev.excVoq (d : Dev) (k : Nat) : Nat := 512 + d.get R.TMG_CFG [k] "EXC_CLASS"

/-- R436, R456: a VOQ entry refused. -/
def Dev.voqDrop (d : Dev) (g : Nat) : Dev := d.bump R.TMG_VOQ_DROP [g / 2, g % 2] "COUNT" 1

/-- An entry for a VOQ whose port is down past its hold, or which refuses it. -/
def Dev.enqOk (d : Dev) (g v : Nat) (e : QEnt) : Option Dev := if d.flushed (v / 8) then none else d.enq g v e

/-- R170, R436: a committed entry of a packet, ahead of the speculative entries that later packets of its flow have in the VOQ; `no` counts its refusal.
The flag says that it was taken. -/
def Dev.enqFor (d : Dev) (p : Pkt) (v : Nat) (e : QEnt) (no : Dev → Dev) : Dev × Bool :=
  let d := d.liftLater p v
  match d.enqOk p.g v e with
  | some d => (d, true)
  | none => (no d, false)

/-- R265, R313, R540: a packet to the host exception ring; a bad frame is dropped at enqueue. The flag says that it was enqueued. -/
def Dev.hostEnq (d : Dev) (n : Nat) (p : Pkt) (fr : List Byte) (kind srcId : Nat) (rcv : Option Nat) : Dev × Bool :=
  if p.bad != 0 then (d.countBad p.port p.bad, false) else
  d.enqFor p (d.excVoq p.d) { d.mkEnt n p fr true (p.info kind srcId) with rcv := rcv } (fun d => d.voqDrop p.g)

/-- A packet to the host exception ring. -/
def Dev.toHost (d : Dev) (n : Nat) (p : Pkt) (fr : List Byte) (kind srcId : Nat) : Dev := (d.hostEnq n p fr kind srcId none).1

/-- R200, R612: a diverted packet: to the exception path, counted, gone from the pipeline. -/
def Dev.divertPkt (d : Dev) (n : Nat) (p : Pkt) (k srcId : Nat) : Dev :=
  let (d, p) := d.voidSpec n p
  ((d.bump R.FLW_DIV_CNT [k] "COUNT" 1).toHost n p p.bytes 2 srcId).endPkt n p

/-- A packet dropped before it commits. -/
def Dev.dropPkt (d : Dev) (n : Nat) (p : Pkt) : Dev := let (d, p) := d.voidSpec n p; d.endPkt n p

/-! ## Copies (R333, R334, R454–R456, R485) -/

/-- R433: the partition of die k that a section of the forme claims for its copies, as die · 16 + partition. -/
def Dev.copyPart (d : Dev) (k typ : Nat) : Option Nat :=
  (d.glb.active.find? (·.typ == typ)).bind (fun s => (s.claims.find? (fun c => c.1 == 3 && c.2.1 == k)).map (fun c => k * 16 + c.2.2.1))

/-- R334, R486, R540: a mirror copy of a frame to a session, with the frame's recovery instance; a bad frame is not enqueued. -/
def Dev.mirrorCopy (d : Dev) (n : Nat) (p : Pkt) (fr : List Byte) (s : Nat) (rcv : Option Nat := none) : Dev :=
  if p.bad != 0 then d else
  match d.session s with
  | none => d
  | some r =>
    let (d, take) := d.mirrorSample p.g s (byteAt r 6)
    if !take then d else
    let port := byteAt r 2
    let t := leAt r 4 2
    let fr := if t = 0 || decide (fr.length ≤ t) then fr else (let b := fr.take (t - 4); b ++ fcsBytes b)
    let e := { d.mkEnt n p fr true (p.info 5 0) with charge := d.copyPart p.d 0x0F, stamp := p.stampId, rcv := rcv }
    let skip := fun (d : Dev) => d.bump R.MIR_SKIP [p.d, s] "COUNT" 1
    if port > 64 then skip d else (d.enqFor p (8 * port + byteAt r 3 % 8) e skip).1

/-- R455, R456, R485: one member of a fan-out; `copy` when the frame is replicated, so that it must fit its port's MAXFRM. -/
def Dev.member (p : Pkt) (e : QEnt) (copy : Bool) (d : Dev) (m : Nat × Nat × Bool) : Dev :=
  let (port, cls, prune) := m
  if prune && port == p.port then d
  else
    let long := copy && decide (e.bytes.length > d.maxFrm port)
    let skip := fun (d : Dev) => d.bump R.TMG_MC_SKIP [p.d, port] "COUNT" 1
    if port > 64 then d else if long then skip d else (d.enqFor p (8 * port + cls) e skip).1

/-- R455, R540: the fan-out of a frame to a group; `copy` charges the partition that STREAM claims. The flag says that there was a fan-out. -/
def Dev.fanOut (d : Dev) (n : Nat) (p : Pkt) (fr : List Byte) (grp cls : Nat) (copy : Bool) (rcv : Option Nat) : Dev × Bool :=
  if p.bad != 0 then (d.countBad p.port p.bad, false) else
  match d.members p.d (grp % 8192) cls with
  | none => (d.voqDrop p.g, false)
  | some ms =>
    let e := { d.mkEnt n p fr true (p.info 4 0) with stamp := p.stampId, rcv := rcv, charge := if copy then d.copyPart p.d 0x0A else none }
    (ms.foldl (Dev.member p e copy) d, true)

/-! ## Unicast and cut-through (R190, R458) -/

/-- R458: the conditions of cut-through for a packet with one unicast target and no mirror copy. -/
def Dev.mayCut (d : Dev) (n : Nat) (p : Pkt) (v : Nat) : Bool :=
  let q := d.voqOf p.g v
  let t := d.voqTarget v
  d.bit R.TMG_CFG [p.d] "CT_EN" && !d.compat && decide (p.port < 64) && decide (v < 512)
    && decide (d.portRate (t / 8) ≤ d.portRate p.port) && (match q.ents with | [] => true | e :: _ => e.pkt == n && !e.committed) && !q.spill && q.tail.isEmpty
    && (d.eqOf t).isEmpty && (match (d.egrOf (t / 8)).tx with | some x => x.cls != some (t % 8) | none => true)

/-- R185, R190, R456, R540: the unicast entry of a commit: the speculative entry marked committed where it stands in the right VOQ, else a new one. A
bad frame that is stored and forwarded is dropped here; one that is still arriving and may be cut through leaves with a stomped FCS. The flag says that the
packet has its entry. -/
def Dev.unicast (d : Dev) (n : Nat) (p : Pkt) (fr : List Byte) (v : Nat) (mirrored : Bool) (rcv : Option Nat) : Dev × Bool :=
  let cut := !mirrored && decide (0 < d.leftOf p.head) && d.mayCut n p v
  let e := { d.mkEnt n p fr true (p.info 4 0) with cut := cut, stomp := p.bad != 0, stamp := p.stampId, rcv := rcv }
  if p.bad != 0 && !cut then (((d.voidSpec n p).1).countBad p.port p.bad, false)
  else
    let d := d.countBad p.port p.bad
    if p.spec = some v then
      if d.flushed (v / 8) then (((d.voidSpec n p).1).voqDrop p.g, false) else (d.commitEnt p.g v n (fun _ => e), true)
    else
      ((d.voidSpec n p).1).enqFor p v e (fun d => d.voqDrop p.g)

/-! ## Commit-time work (R186, R190, R239, R259, R312, R313) -/

/-- R239: a CTRL bit of metadata: 0 INSPECT, 1 DROP, 2 EXC, 3 RECIRC, 4 PASS. -/
def ctrl (md : List Byte) (i : Nat) : Bool := hasBit (byteAt md 3) i

/-- R235: the configuration entry of a packet's ingress port. -/
def cfgEntry (p : Pkt) : Nat := if p.port < 64 then p.port % 16 else if p.port = 64 then 17 else 16

/-- R261: the pattern hits of a payload, as slot and PID, lowest slot first. -/
def Dev.patScan (d : Dev) (pay : List Byte) : List (Nat × Nat) :=
  match d.body 0x0B with
  | none => []
  | some b =>
    let recs := (List.range (b.length / 72)).map (fun i => sliceB b (72 * i) 72)
    (List.range 2048).filterMap (fun s =>
      (recs.find? (fun r => leAt r 0 2 == s)).bind (fun r =>
        let o := leAt r 2 2
        let l := byteAt r 4
        if decide (o + l ≤ pay.length) && (List.range l).all (fun i =>
            let m := byteAt r (40 + i)
            Nat.land (byteAt pay (o + i)) m == Nat.land (byteAt r (8 + i)) m) then some (s, leAt r 6 2) else none))

/-- R267: the slots that an inspected packet matches, counted. -/
def Dev.countHits (d : Dev) (g : Nat) (hs : List (Nat × Nat)) : Dev :=
  let hit := hs.foldl (fun m h => SMap.put m (g * 2048 + h.1) ((SMap.get m (g * 2048 + h.1) 0 + 1) % 2 ^ 32)) d.mat.patHit
  { d with mat := { d.mat with patHit := hit } }

/-- R261: the hits of a packet whose port feeds the pattern unit. -/
def Dev.patHits (d : Dev) (p : Pkt) : List (Nat × Nat) :=
  if d.bit R.PRS_PORT_CFG (rw p.g ++ [cfgEntry p]) "PAT_EN" then d.patScan ((p.bytes.take (p.bytes.length - 4)).drop p.depth) else []

/-- R262, R267: a packet with INSPECT = 1 is in the inspected class; it counts there once. -/
def Dev.inspected (d : Dev) (p : Pkt) : Dev :=
  if ctrl p.md 0 && !p.insp then (d.bump R.PRS_INSPECTED (rw p.g) "COUNT" 1).countHits p.g (d.patHits p) else d

/-- R294: the source lookups of a packet that is neither dropped nor diverted: pushes and hit marks. -/
def Dev.learnFrom (d : Dev) (p : Pkt) : Dev := p.src.foldl (fun d x => d.l2Source p.g p.port x) d

/-- R259, R440: a first-pass packet enters its region's recirculation queue; a second-pass packet is dropped. The flag says that it goes on. -/
def Dev.recircPkt (d : Dev) (n : Nat) (p : Pkt) (fr : List Byte) : Dev × Bool :=
  let (d, p) := d.voidSpec n p
  if p.pass = 1 then ((d.bump R.PRS_RECIRC_DROP [p.g / 2, p.g % 2] "COUNT" 1).endPkt n p, false)
  else if (d.pk.recirc.getD p.g []).length ≥ 512 then ((d.bump R.TMG_RECIRC_FULL [p.g / 2, p.g % 2] "COUNT" 1).endPkt n p, false)
  else
    let d := (d.leaveWin p.g n).setPkt n { p with bytes := fr, stage := .recirc, win := none }
    ({ d with pk := { d.pk with recirc := setAt d.pk.recirc p.g (d.pk.recirc.getD p.g [] ++ [n]) } }, true)

/-- R481, R482: the stream functions on a committed frame of a front port; what another port brings is no stream. -/
def Dev.stream (d : Dev) (p : Pkt) (fr : List Byte) : Dev × TsnOut := if p.port < 64 then d.tsn p.g p.port fr else (d, ⟨false, fr, none, none⟩)

/-- R313, R330, R485, R454: the targets of a frame that its stream functions passed: its stream's group, its group, or its port; and its mirror copy. The
flag says that the frame was not dropped. -/
def Dev.targets (d : Dev) (n : Nat) (p : Pkt) (t : TsnOut) (dest cls : Nat) (mir : Option Nat) : Dev × Bool :=
  let x := match t.repl with
    | some grp => ((d.voidSpec n p).1).fanOut n p t.bytes grp cls true t.rcv
    | none =>
      if dest ≥ 32768 then ((d.voidSpec n p).1).fanOut n p t.bytes (dest % 32768) cls false t.rcv
      else if dest > 64 then (((d.voidSpec n p).1).voqDrop p.g, false)
      else d.unicast n p t.bytes (8 * dest + cls) mir.isSome t.rcv
  match mir with
  | some s => (x.1.mirrorCopy n p t.bytes s t.rcv, x.2)
  | none => x

/-- R186, R190, R294, R481: the commit-time work of a packet with its final metadata, under the entries s it acts on and record r (none for a packet
without one). A front port's frame that goes to the host or to recirculation passes the stream functions too, but for replication: DESIGN CHOICE, log 145. -/
def Dev.commitWork (d : Dev) (n : Nat) (p : Pkt) (e : Option (Snap × Rec)) : Dev :=
  let ix := [p.d]
  let ent := match e with | some x => x.1.ent | none => []
  let (fr, miss) := match e with
    | some (s, r) => let t := d.translate p.d s.ent p (byteAt r.key 0) r.aux; (if t.1 = p.bytes then p.bytes else refcs t.1, t.2)
    | none => (p.bytes, false)
  let d := if miss then d.bump R.ACT_XLAT_NOMATCH ix "COUNT" 1 else d
  let d := (d.inspected p).applyDeltas p.g p.bytes.length p.deltas
  let learn := fun (x : Dev × Bool) => if x.2 then x.1.learnFrom p else x.1
  if ctrl p.md 1 then d.dropPkt n p
  else if ctrl p.md 3 then
    let (d, t) := if p.pass = 0 then d.stream p fr else (d, ⟨false, fr, none, none⟩)
    if t.drop then d.dropPkt n p else learn (d.recircPkt n p t.bytes)
  else if ctrl p.md 2 then
    let (d, t) := d.stream p fr
    if t.drop then d.dropPkt n p else
    let (d, p) := d.voidSpec n p
    (learn (d.hostEnq n p t.bytes 1 0 t.rcv)).endPkt n p
  else
    let dest := match e with | some (s, r) => (s.destOf (r.initiator p.swap) p).1 | none => leAt p.md 8 2
    let (d, fr) := match e with
      | some (s, r) =>
        if (s.destOf (r.initiator p.swap) p).2 then (let x := d.steer p.d s fr; (x.1, if x.2 = fr then fr else refcs x.2)) else (d, fr)
      | none => (d, fr)
    let mir := match e with | some (s, r) => mirrorOf s.ent (r.initiator p.swap) p.hits | none => none
    let (d, t) := d.stream p fr
    if t.drop then d.dropPkt n p else
    (learn (d.targets n p t dest (match e with | some _ => classOf ent p.md | none => byteAt p.md 7 % 8) mir)).endPkt n p

/-! ## The tables of a pass (R183, R254, R255) -/

/-- The tables of a pass after its pre-hash stage, before and after its FLOW slot. -/
def Dev.splitTables (d : Dev) (pass : Nat) : List (List Byte) × List (List Byte) :=
  let ts := (d.passDescs pass).filter (fun t => !dPre t)
  match flowSlot ts with
  | some s => (ts.filter (fun t => decide (dSlot t < s)), ts.filter (fun t => decide (dSlot t > s)))
  | none => (ts, [])

/-- R261, R262: an inspected packet's pattern result reaches its metadata. -/
def Pkt.patTake (p : Pkt) : Pkt :=
  match p.pat with
  | none => p
  | some hs =>
    let set := fun md => patch (patch md 16 (leBytes 2 ((hs.map Prod.snd).headD 0))) 18 (leBytes 1 (min hs.length 255))
    { p with md := set p.md, md0 := set p.md0, pat := none }

/-- R183: the action-dependent stages of a packet, from the results of its action-independent stages. -/
def Dev.runDep (d : Dev) (p : Pkt) : Dev × Pkt :=
  let (d, r) := runTables p.g p.hv (p.h.getD 0) (d.splitTables p.pass).2 (d, ⟨p.md0, p.deltas0, p.src0, p.ecc⟩)
  (d, { p with md := r.md, deltas := r.deltas, src := r.src, ecc := r.divert })

/-- R183, R188: the action-dependent stages of a packet under an ACTION and AUX: what they leave, with the entries they read. -/
def Dev.runUnder (d : Dev) (p : Pkt) (act aux : Nat) : Dev × Pkt :=
  let (d, p) := d.runDep p
  (d, { p with snap := some (d.snapOf p.d act aux) })

/-- R184, R185: the speculative entry of a predicted packet in the VOQ that its prediction selects. -/
def Dev.speculate (d : Dev) (n : Nat) (p : Pkt) : Dev × Pkt :=
  let s := d.snapOf p.d p.pact p.paux
  let (d, p) := d.runUnder p p.pact p.paux
  let dest := (s.destOf true p).1
  if ctrl p.md 1 || ctrl p.md 2 || ctrl p.md 3 || decide (dest > 64) || p.ecc.isSome then (d, p)
  else
    let v := 8 * dest + classOf s.ent p.md
    let d := d.liftLater p v
    match d.enqOk p.g v (d.mkEnt n p p.bytes false (p.info 4 0)) with
    | some d => (d, { p with spec := some v })
    | none => (d, p)

end Sys2Proof.Machine
end

