-- ==== Sys2Proof/Machine/Setup.lean ====
section
/-! DEFINITION. The pending table, engine holds, quoin entries and work queues (R147–R152, R199, R213–R215, R360), and what the ingress region does with
an outcome of R189: commits, squashes, diverts and lists, at once or when its verdict arrives. -/

namespace Sys2Proof.Machine

/-! ## Engines (R341, R342, R390) -/

/-- R379: an engine out of reset: every register 0. -/
def Eng.zero : Eng := ⟨⟨List.replicate 32 0, 0, []⟩, [], none, [], none, [], none, List.replicate 8 0, none⟩

/-- Engine e, 0 to 95. -/
def Dev.engOf (d : Dev) (e : Nat) : Eng := SMap.get d.eng.eng e Eng.zero

/-- An engine rewritten. -/
def Dev.updEng (d : Dev) (e : Nat) (f : Eng → Eng) : Dev :=
  { d with eng := { d.eng with eng := SMap.set d.eng.eng e (f (d.engOf e)) Eng.zero } }

/-- The indices of cluster k (0 to 11): die, region window, cluster window. -/
def clIx (k : Nat) : List Nat := [k / 6, k / 3 % 2, k % 3]

/-- The indices of an engine's registers. -/
def engIx (e : Nat) : List Nat := clIx (e / 8) ++ [e % 8]

/-- R342: the result of a memory operation is there: its registers will take the values when it returns. -/
def Dev.complete (d : Dev) (e tok : Nat) (vals : List Nat) : Dev :=
  d.updEng e (fun g => { g with infl := g.infl.map (fun i => if i.tok = tok then { i with vals := some vals } else i) })

/-- R390: n events of a kind of an engine counted by its cluster's counters. -/
def Dev.pmc (d : Dev) (e ev n : Nat) : Dev :=
  (List.range 8).foldl (fun d c =>
    let ix := clIx (e / 8) ++ [c]
    if d.bit R.PMC_EVSEL ix "EN" && d.get R.PMC_EVSEL ix "EVENT" == ev && hasBit (d.get R.PMC_EVSEL ix "ENGMASK") (e % 8) then
      let v := d.get R.PMC_CTR ix "COUNT" + n
      let d := d.put R.PMC_CTR ix "COUNT" v
      if v ≥ 2 ^ 48 then d.put R.PMC_EVSEL ix "OVF" 1 else d
    else d) d

/-! ## Quoin entries (R213) -/

/-- R213: the set of a quoin within its die. -/
def quoinSet (ra : Nat) : Nat := Nat.xor (ra / 8 % 2 ^ 14) (raStack ra)

/-- R229, R234: the live quoins of a die: a stale one counts as free. -/
def Dev.quoinCount (d : Dev) (k : Nat) : Nat := (d.flw.quoins.filter (fun x => raDie x.1 == k && !d.stale x.2)).length

/-- R234: INUSE shown. -/
def Dev.showQuoins (d : Dev) (k : Nat) : Dev := d.put R.FLW_QN_STATUS [k] "INUSE" (d.quoinCount k)

/-- A quoin put in place. -/
def Dev.setQuoin (d : Dev) (ra : Nat) (q : Quoin) : Dev :=
  { d with flw := { d.flw with quoins := SMap.put d.flw.quoins ra q } }.showQuoins (raDie ra)

/-- A quoin entry freed. -/
def Dev.freeQuoin (d : Dev) (ra : Nat) : Dev :=
  { d with flw := { d.flw with quoins := SMap.del d.flw.quoins ra } }.showQuoins (raDie ra)

/-- R213: the quoins in the set of a record. -/
def Dev.wayList (d : Dev) (ra : Nat) : List Nat :=
  (d.flw.quoins.filter (fun x => raDie x.1 == raDie ra && quoinSet x.1 == quoinSet ra)).map Prod.fst

/-- R204: the record that a packet's read found. -/
def Rd.at? : Rd → Option Nat
  | .slot ra _ _ => some ra
  | .bad _ => none

/-- R220: packets of a record that have read it and have neither committed nor left their windows. -/
def Dev.inFlight (d : Dev) (ra : Nat) : Bool :=
  d.pk.pkts.any (fun x => (x.2.loc == some ra || x.2.rd.bind Rd.at? == some ra) && winStages.contains x.2.stage)

/-! ## Work queues (R356, R360) -/

/-- R356: the dispatch entry of an opcode in cluster c (0 to 11). -/
def Dev.dispEntry (d : Dev) (c op : Nat) : Nat := d.getW R.KCS_DISP [c / 6, c / 3 % 2, c % 3, op]

/-- A work queue: true for the high-priority queue. -/
def Dev.wq (d : Dev) (hi : Bool) (c : Nat) : List Item := SMap.get (if hi then d.eng.hi else d.eng.lo) c []

/-- A work queue replaced, its length shown. -/
def Dev.setWq (d : Dev) (hi : Bool) (c : Nat) (l : List Item) : Dev :=
  let d := { d with eng := if hi then { d.eng with hi := SMap.set d.eng.hi c l [] } else { d.eng with lo := SMap.set d.eng.lo c l [] } }
  d.put R.KSN_WQ_STAT [c / 6, c / 3 % 2, c % 3] (if hi then "HI" else "LO") l.length

/-- R360: the cluster of region g that takes an item of a queue: the fewest items queued, in rotating order on a tie. -/
def Dev.pickCluster (d : Dev) (hi : Bool) (g : Nat) : Option Nat :=
  let s := SMap.get d.eng.rot g 0
  let cs := ((List.range 3).map (fun i => 3 * g + (s + i) % 3)).filter (fun c => decide ((d.wq hi c).length < 64))
  let use := fun c => (d.wq true c).length + (d.wq false c).length
  cs.foldl (fun b c => match b with | none => some c | some x => if use c < use x then some c else some x) none

/-- R359, R360: an item placed on a queue of its region, or left waiting while every queue is full. -/
def Dev.placeItem (d : Dev) (g : Nat) (it : Item) : Dev :=
  let e := d.dispEntry (3 * g) it.op
  let hi := hasBit e 31 && hasBit e 29
  match d.pickCluster hi g with
  | some c =>
    let d := d.setWq hi c (d.wq hi c ++ [it])
    let d := { d with eng := { d.eng with rot := SMap.put d.eng.rot g ((c + 1) % 3) } }
    match d.pkt it.pkt with
    | some p => if p.stage == .engine || p.stage == .listed then d.leaveWin p.g it.pkt else d
    | none => d
  | none => { d with eng := { d.eng with wait := SMap.put d.eng.wait g (SMap.get d.eng.wait g [] ++ [it]) } }

/-- R360: an item that waited takes the place that opened in a queue of its region. -/
def Dev.placeWaiting (d : Dev) (g : Nat) : Dev :=
  match SMap.get d.eng.wait g [] with
  | [] => d
  | it :: l =>
    let hi := let e := d.dispEntry (3 * g) it.op; hasBit e 31 && hasBit e 29
    if (d.pickCluster hi g).isSome then { d with eng := { d.eng with wait := SMap.set d.eng.wait g l [] } }.placeItem g it else d

/-- R144: the region that does the home-die work of a packet. -/
def homeRegion (p : Pkt) : Nat :=
  match p.h with
  | some h => if homeDie h = p.d then p.g else 2 * homeDie h + h % 2
  | none => p.g

/-! ## The pending table (R147, R152) -/

/-- The pending table of a die replaced, FLOWS shown. -/
def Dev.setPend (d : Dev) (k : Nat) (l : List PEnt) : Dev :=
  { d with flw := { d.flw with pend := d.flw.pend.set k l } }.put R.FLW_PEND_STATUS [k] "FLOWS" l.length

/-- R147: the pending table has a free entry. -/
def Dev.pendRoom (d : Dev) (k : Nat) : Bool := decide ((d.flw.pend.get k).length < 16384)

/-- R147: an entry made at the lowest index not in use. -/
def Dev.addPend (d : Dev) (k : Nat) (key : List Byte) (h : Nat) (kind : PKind) (g : Nat) (ra : Option Nat) (pkts : List Nat) : Dev :=
  let l := d.flw.pend.get k
  let i := ((List.range (l.length + 1)).find? (fun i => !l.any (fun e => e.idx == i))).getD 0
  d.setPend k (l ++ [⟨i, key, h, byteAt key 0, kind, g, ra, pkts, false, false⟩])

/-- An entry removed. -/
def Dev.delPend (d : Dev) (k idx : Nat) : Dev := d.setPend k ((d.flw.pend.get k).filter (fun e => e.idx != idx))

/-- An entry rewritten. -/
def Dev.updPend (d : Dev) (k idx : Nat) (f : PEnt → PEnt) : Dev := d.setPend k ((d.flw.pend.get k).map (fun e => if e.idx = idx then f e else e))

/-- R147, R189 row 1: the entry that a packet's probe hits: its key's, or that of a flow of equal H with an earlier packet of its port. -/
def Dev.pendOf (d : Dev) (k : Nat) (p : Pkt) : Option PEnt :=
  (d.flw.pend.get k).find? (fun e => e.key == p.key || (some e.h == p.h && e.pkts.any (fun n => match d.pkt n with | some q => q.port == p.port && q.g == p.g | none => false)))

/-- R152, R153, R189 rows 1 and 2: what becomes of a packet whose probe hits an entry: it joins the list, is refused a place on it, or follows its
flow to the exception path. -/
def Dev.joinHome (d : Dev) (k n : Nat) (p : Pkt) (e : PEnt) : Dev × Oc :=
  let pend := e.kind != .hold && !e.pkts.any (fun m => match d.pkt m with | some q => q.port == p.port && q.g == p.g | none => false)
  if e.diverted then (d, .divert (srcId 2 0x12 (e.region % 2)))
  else if e.pkts.length ≥ d.get R.FLW_PEND_CFG [k] "MAX_PKTS" then (d.bump R.FLW_PEND_DROP [k] "COUNT" 1, .over pend)
  else (d.updPend k e.idx (fun e => { e with pkts := e.pkts ++ [n] }), .listed pend)

/-- R152, R198: a packet on a list gives up its speculative effects and its window entry. -/
def Dev.listPkt (d : Dev) (k n : Nat) (p : Pkt) : Dev :=
  let (d, p) := d.voidSpec n p
  let fl := (d.flw.pend.get k).any (fun e => e.flush && e.pkts.contains n)
  (d.leaveWin p.g n).setPkt n { p with stage := .listed, pred := false, rd := none, oc := none, ret := false, flush := if fl then max 1 p.flush else p.flush }

/-- R199: a packet held in its window. -/
def Dev.hold (d : Dev) (n : Nat) (p : Pkt) : Dev :=
  let (d, p) := d.voidSpec n p
  ((d.bump R.FLW_MIR_HELD [p.d, p.g % 2] "COUNT" 1).leaveReplay p.g n).setPkt n { p with stage := .held, pred := false, rd := none, oc := none, ret := false }

/-! ## Shadow squashes (R192) -/

/-- How the packets behind a first packet are shadowed. -/
inductive Shadow where
  | replay
  | list (k idx : Nat)
  | held
  | divert (k srcId : Nat)
  deriving DecidableEq, Repr

/-- R144, R202: a packet's descriptor starts across the link. -/
def Dev.sendDesc (d : Dev) (n : Nat) (p : Pkt) : Dev :=
  let d := (d.leaveReplay p.g n).setPkt n { p with stage := .crossing, oc := none, ret := false }
  { d with pk := { d.pk with link := d.pk.link.upd (homeDie (p.h.getD 0)) (· ++ [.desc n]) } }

/-- A packet as if it had read no record and run no stage under one. -/
def Pkt.unread (p : Pkt) : Pkt := { p with rd := none, loc := none, img := none, snap := none, ran := false, oc := none, ret := false }

/-- R191: packets placed first in the replay order of a region. -/
def Dev.replayFirst (d : Dev) (g : Nat) (ns : List Nat) : Dev :=
  { d with pk := { d.pk with replay := setAt d.pk.replay g (ns ++ (d.pk.replay.getD g []).filter (fun n => !ns.contains n)) } }

/-- R193: a packet whose replay is due stands in the replay order of its region. -/
def Dev.replayDue (d : Dev) (g n : Nat) : Dev :=
  let l := d.pk.replay.getD g []
  if l.contains n then d else { d with pk := { d.pk with replay := setAt d.pk.replay g (l ++ [n]) } }

/-- R30, R192: a shadow-squashed packet that is to be replayed. One whose record is still to come, on its home die or with its verdict, waits for it; one
whose verdict brought no record sends its descriptor again. -/
def Dev.shadowReplay (d : Dev) (n : Nat) (p : Pkt) : Dev :=
  let (d, p) := d.voidSpec n p
  let p := { p with replayed := true }
  if p.stage == .window then d.setPkt n { p with stage := .replay }
  else if p.stage == .verdict && p.ret then
    if homeDie (p.h.getD 0) != p.d && p.img.isNone then d.sendDesc n p.unread else d.setPkt n { p with stage := .replay, oc := none, ret := false }
  else d.setPkt n p

/-- R192: a shadow-squashed packet of another die that follows a list or a hold of its home die: its home die places it there by row 1 of R189 when its
record returns; one whose record has returned sends its descriptor again. -/
def Dev.shadowCrossed (d : Dev) (n : Nat) (p : Pkt) : Dev :=
  let (d, p) := d.voidSpec n p
  let p := { p with pred := false }
  if p.stage == .replay || (p.stage == .verdict && p.ret) then d.sendDesc n p.unread else d.setPkt n p

/-- R192: one shadow-squashed packet. -/
def Dev.shadowOne (m : Shadow) (d : Dev) (n : Nat) : Dev :=
  match d.pkt n with
  | none => d
  | some p =>
    let d := (d.bump R.FLW_MIR_SHADOW [p.d, p.g % 2] "COUNT" 1).pipeTrace p 8
    match m with
    | .replay => d.shadowReplay n p
    | .list k idx =>
      if k != p.d then d.shadowCrossed n p else
      match (d.flw.pend.get k).find? (fun e => e.idx == idx) with
      | none => d
      | some e =>
        match d.joinHome k n p e with
        | (d, .divert s) => d.divertPkt n p k s
        | (d, .over _) => d.dropPkt n p
        | (d, _) => d.listPkt k n p
    | .held => if homeDie (p.h.getD 0) != p.d then d.shadowCrossed n p else d.hold n p
    | .divert k s => d.divertPkt n p k s

/-- R192: every later packet of the flow shadow-squashed in arrival order; one that is replayed already stays so. -/
def Dev.shadow (d : Dev) (p : Pkt) (m : Shadow) : Dev :=
  let ns := (d.later p).filter (fun n => !(m == .replay && (match d.pkt n with | some q => q.replayed | none => true)))
  let d := ns.foldl (Dev.shadowOne m) d
  if m == .replay then d.replayFirst p.g ns else d

/-! ## Insertions that fail at once (R151) -/

/-- R151, R329: the counter of a failure. -/
def Dev.failCount (d : Dev) (k : Nat) (f : InsFail) : Dev :=
  match f with
  | .full => d.bump R.FLW_FULL_CNT [k] "COUNT" 1
  | .limit => d.bump R.FLW_LIMIT_CNT [k] "COUNT" 1
  | .ptab => d.bump R.FLW_PTAB_FULL [k] "COUNT" 1
  | .nosel => d.bump R.BAL_NOSEL [k] "COUNT" 1

/-- R151, R262: a packet forwarded under the match result without a record. One whose pattern result is outstanding, and one behind it, waits for it in line
with its port's stateless packets: DEDUCED, log 117. -/
def Dev.forwardPlain (d : Dev) (n : Nat) (p : Pkt) (k : Nat) : Dev :=
  let (d, p) := d.voidSpec n p
  if p.pat.isSome || d.earlierIn p [.waiting] then (d.leaveWin p.g n).setPkt n { p.unread with stage := .waiting } else
  let (d, p) := d.runDep p
  match p.ecc with
  | some s => d.divertPkt n p k s
  | none => d.commitWork n p none

/-- R151: FULL_ACT on the packets of a failed insertion, in order. -/
def Dev.fullAct (d : Dev) (k form : Nat) (ns : List Nat) (f : InsFail) : Dev :=
  let act := d.get R.FLW_KFORM [k, form] "FULL_ACT"
  let d := if act = 0 then d else d.failCount k f
  ns.foldl (fun d n =>
    match d.pkt n with
    | none => d
    | some p =>
      if act = 1 then d.forwardPlain n p k
      else if act = 2 then d.divertPkt n p k 0
      else (d.failCount k f).dropPkt n p) d

/-! ## Packets of insertions and engine items after a FLUSH (R77) -/

/-- R77: a packet is to be discarded instead of released or forwarded. -/
def Dev.flushing (d : Dev) (n : Nat) : Bool := match d.pkt n with | some p => p.flush != 0 | none => false

/-- R77: a packet discarded by FLUSH, counted once. -/
def Dev.flushOut (d : Dev) (n : Nat) (p : Pkt) : Dev :=
  if p.flush = 2 then d.delPkt n p else (d.bump R.GLB_FLUSH_CNT [] "FRAMES" 1).dropPkt n p

/-! ## Carrying out an outcome (R190, R191) -/

/-- R190: the write-back of a packet at its commit. -/
def Dev.issueWb (d : Dev) (p : Pkt) (tcp : Option (Nat × Nat)) : Dev :=
  match p.loc, p.img with
  | some ra, some r =>
    d.auuIssue ra (.wb ⟨p.bytes.length, r.initiator p.swap, tcp, p.gen, ktagOf (p.h.getD 0) (candB (p.h.getD 0) == (raStack ra, raBucket ra)), byteAt p.key 0⟩)
  | _, _ => d

/-- R179: the hint entry of a packet's flow after its commit. -/
def Dev.hintOf (d : Dev) (p : Pkt) : Dev :=
  match p.loc, p.img with
  | some ra, some r => d.hintWrite p ra r.action r.aux
  | _, _ => d

/-- R193: a record with the write-backs that wait at its update unit applied. -/
def Dev.imageOf (d : Dev) (ra : Nat) (r : Rec) : Rec :=
  (d.flw.auuq.filter (fun o => o.raddr == ra)).foldl (fun r o => match o.kind with | .wb w => (wbRecord r w (d.tick (raDie ra))).1 | _ => r) r

/-- R612, R275: a double-bit error of a search diverts a stateful packet's flow: its record is marked, with the error's source. -/
def Dev.eccDivert (d : Dev) (ra s : Nat) : Dev :=
  let d := d.auuFlag ra fDiverted true
  { d with flw := { d.flw with divSrc := SMap.put d.flw.divSrc ra s } }

/-- R183, R188: a packet with its action-dependent stages run under a record: as they stand when they ran under its ACTION and AUX, else run now. -/
def Dev.ranUnder (d : Dev) (p : Pkt) (r : Rec) : Dev × Pkt :=
  match p.snap with
  | some s => if s.act == r.action && s.aux == r.aux then (d, p) else d.runUnder p r.action r.aux
  | none => d.runUnder p r.action r.aux

/-- R190, R676: a packet commits under the record it read, and is recorded so; `wb` is false for the packet whose insertion wrote its own counts. A double-bit error that its
stages met diverts its flow instead (R275). -/
def Dev.commitPkt (d : Dev) (n : Nat) (p : Pkt) (wb : Bool) : Dev :=
  match p.img with
  | none => d
  | some r =>
    let pred := p.pred && !p.replayed
    let (d, p) := d.ranUnder p r
    let d := d.pipeTrace p 1
    let k := homeDie (p.h.getD 0)
    match p.ecc with
    | some s =>
      let d := match p.loc with | some ra => d.eccDivert ra s | none => d
      (d.divertPkt n p k s).shadow p (.divert k s)
    | none =>
      let d := if pred then d.bump R.FLW_MIR_COMMIT [p.d, p.g % 2] "COUNT" 1 else d
      let d := if wb then d.issueWb p p.tcp else d
      (d.hintOf p).commitWork n p (p.snap.map (fun s => (s, r)))

/-- R77: an insertion or item commits a packet: after a FLUSH its record is updated and the packet discarded. -/
def Dev.commitOut (d : Dev) (n : Nat) (p : Pkt) (wb : Bool) : Dev :=
  if p.flush != 0 then (if wb then d.issueWb p p.tcp else d).flushOut n p else d.commitPkt n p wb

/-- R206: a predicted packet commits that no squash has met. -/
def Dev.predCommit (d : Dev) (p : Pkt) : Dev := if p.pred && !p.replayed then d.bump R.FLW_MIR_COMMIT [p.d, p.g % 2] "COUNT" 1 else d

/-- R190, R206, R274: a commit as a drop: the deltas of the entries that the packet hit, the write-back, the entry voided; a predicted packet that was
not squashed counts as committed. -/
def Dev.commitDrop (d : Dev) (n : Nat) (p : Pkt) (wb : Bool) : Dev :=
  let d := d.predCommit p
  let d := if p.snap.isSome then d.inspected p else d
  let d := d.applyDeltas p.g p.bytes.length (if p.snap.isSome then p.deltas else p.deltas0)
  let (d, p) := d.voidSpec n p
  let d := if wb then d.issueWb p none else d
  (d.hintOf p).endPkt n p

/-- R191, R192: a squash: the packet and the later ones of its flow are first in the replay order of the region. -/
def Dev.squashPkt (d : Dev) (n : Nat) (p : Pkt) : Dev :=
  let d := d.bump R.FLW_MIR_SQUASH [p.d, p.g % 2] "COUNT" 1
  let (d, p) := d.voidSpec n p
  ((d.setPkt n { p with stage := .replay, replayed := true, squashed := true, oc := none, ret := false }).shadow p .replay).replayFirst p.g [n]

/-- R360: the packet's item still waits for its quoin or for a queue, and the packet for it in the commit window. -/
def Dev.itemWaits (d : Dev) (n : Nat) : Bool := d.eng.qitems.any (fun i => i.pkt == n) || d.eng.wait.any (fun x => x.2.any (fun i => i.pkt == n))

/-- R189, R199, R206: a packet with outcome ENGINE commits to the engine; the later packets follow the hold that its home die has made, or are held. -/
def Dev.enginePkt (d : Dev) (n : Nat) (p : Pkt) (k : Nat) : Dev :=
  let (d, p) := (d.predCommit p).voidSpec n p
  let d := (d.leaveReplay p.g n).setPkt n { p with stage := .engine, pred := false, oc := none, ret := false }
  let d := if d.itemWaits n then d else d.leaveWin p.g n
  match (d.flw.pend.get k).find? (fun e => e.kind == .hold && e.raddr == p.loc) with
  | some e => d.shadow p (.list k e.idx)
  | none => d.shadow p .held

/-- R189: the outcome code. -/
def Oc.code : Oc → Nat
  | .commit => 0 | .squash => 1 | .divert _ => 3 | .engine => 4 | .drop => 5 | .held => 6 | .fail _ => 2
  | .listed pend => if pend then 2 else 6
  | .over pend => if pend then 2 else 6

/-- R190–R192, R199, R200, R676: the outcome carried out by the ingress region. -/
def Dev.carryOut (d : Dev) (n : Nat) (p : Pkt) (k : Nat) (oc : Oc) : Dev :=
  let d := match oc with | .commit => d | _ => d.pipeTrace p (oc.code + 1)
  let behind := fun (d : Dev) (pend : Bool) => match pend, d.pendOf k p with | true, some e => d.shadow p (.list k e.idx) | _, _ => d
  match oc with
  | .listed pend => behind (d.listPkt k n p) pend
  | .over pend => behind (d.dropPkt n p) pend
  | .held => d.hold n p
  | .fail f => (d.fullAct k (byteAt p.key 0) [n] f).shadow p .replay
  | .divert s => (d.divertPkt n p k s).shadow p (.divert k s)
  | .engine => d.enginePkt n p k
  | .drop => d.commitDrop n p true
  | .commit => d.commitPkt n p true
  | .squash => d.squashPkt n p

/-! ## Verdicts (R197, R202) -/

/-- R170: an outcome that moves the packet on waits for the earlier packets of its flow and ingress port. -/
def Oc.waits : Oc → Bool
  | .commit | .squash | .drop | .fail _ | .divert _ => true
  | .listed _ | .over _ | .held | .engine => false

/-- R170, R188, R193, R202: an outcome reaches the commit window: it is carried out, behind every earlier packet of the flow and ingress port. The
action-dependent stages of a packet that is to commit begin now, whether it has to wait or not. -/
def Dev.bringOut (d : Dev) (n : Nat) (p : Pkt) (k : Nat) (oc : Oc) : Dev :=
  if oc.waits && d.earlierIn p winStages then
    let (d, p) := match oc, p.img with | .commit, some r => d.ranUnder p r | _, _ => (d, p)
    d.setPkt n { p with stage := .verdict, oc := some oc, ret := true }
  else d.carryOut n { p with oc := none, ret := false } k oc

/-- R197: the verdict of an outcome. -/
def Pkt.verdict (n : Nat) (p : Pkt) (oc : Oc) : Verdict :=
  let r := p.img.getD Rec.zero
  let ra := p.loc.getD 0
  ⟨p.win.getD 0, p.g % 2, oc.code, r.action, r.tcpst, r.aux, raBucket ra, raSlot ra, candB (p.h.getD 0) == (raStack ra, raBucket ra), raStack ra, n⟩

/-- R197: the 16 bytes of a verdict. -/
def Verdict.bytes (v : Verdict) : List Byte :=
  leBytes 2 (v.win % 2 ^ 11 + 2 ^ 11 * (v.rgn % 2)) ++ leBytes 1 v.code ++ leBytes 1 0 ++ leBytes 3 v.action ++ leBytes 1 v.tcpst ++ leBytes 2 v.aux
    ++ leBytes 4 (v.bucket % 2 ^ 23 + 2 ^ 23 * (v.slot % 8) + 2 ^ 26 * b2n v.alt + 2 ^ 27 * (v.stack % 8)) ++ leBytes 2 0

/-- R189, R202: the home die's outcome starts on its way to the ingress die. -/
def Dev.sendVerdict (d : Dev) (n : Nat) (p : Pkt) (oc : Oc) : Dev :=
  let d := d.setPkt n { p with stage := .verdict, oc := some oc, ret := false }
  { d with pk := { d.pk with link := d.pk.link.upd p.d (· ++ [.verd (p.verdict n oc)]) } }

/-- R202: a verdict reaches the window entry that it names on die k. The record that it brings is what a shadow-squashed packet replays under. -/
def Dev.verdictArrive (d : Dev) (k : Nat) (v : Verdict) : Dev :=
  if !(d.winOf (2 * k + v.rgn)).contains (v.win, v.pkt) then d else
  match d.pkt v.pkt with
  | none => d
  | some p =>
    match p.stage, p.ret, p.oc with
    | .verdict, false, some oc =>
      if p.replayed && !p.ran && (oc == .commit || oc == .squash) then (d.setPkt v.pkt { p with stage := .replay, oc := none }).replayDue p.g v.pkt
      else d.bringOut v.pkt p (homeDie (p.h.getD 0)) oc
    | _, _, _ => d

/-- R144, R147, R194, R202: a descriptor reaches home die k: the packet's key probes the pending table, behind the undecided packets of its flow, and its
record is read. That of a packet whose replay has ended asks for rows 1 to 5 of R189, and no read: DEDUCED, log 146. -/
def Dev.descArrive (d : Dev) (k n : Nat) : Dev :=
  match d.pkt n with
  | none => d
  | some p =>
    if p.stage != .crossing then d else
    match if d.earlierIn p [.crossing, .remote] then none else d.pendOf k p with
    | some e => let (d, oc) := d.joinHome k n p e; d.sendVerdict n p oc
    | none => d.setPkt n { p with stage := .remote, ret := p.ran }

/-- R202: the oldest crossing on its way to die k arrives. -/
def Dev.linkTake (d : Dev) (k : Nat) : Dev :=
  match d.pk.link.get k with
  | [] => d
  | x :: rest =>
    let d := { d with pk := { d.pk with link := d.pk.link.set k rest } }
    match x with
    | .desc n => d.descArrive k n
    | .verd v => d.verdictArrive k v

/-- R202: the link delivers up to a packet's verdict: what its home die does with a packet after its verdict finds the verdict carried out. DESIGN
CHOICE, log 116. -/
def Dev.linkUpTo (n : Nat) : Nat → Dev → Dev
  | 0, d => d
  | f + 1, d =>
    match d.pkt n with
    | some p => if p.stage == .verdict && !p.ret then Dev.linkUpTo n f (d.linkTake p.d) else d
    | none => d

/-- The verdict of a packet delivered, if one is on its way. -/
def Dev.linkThrough (d : Dev) (n : Nat) : Dev := Dev.linkUpTo n ((d.pk.link.d0 ++ d.pk.link.d1).length) d

/-! ## Packets that a home die lets go (R77, R149, R151, R200) -/

/-- R77, R200: an insertion or item sends a packet to the exception path. -/
def Dev.divertOut (d : Dev) (n k src : Nat) : Dev :=
  let d := d.linkThrough n
  match d.pkt n with
  | none => d
  | some p => if p.flush != 0 then d.flushOut n p else d.divertPkt n p k src

/-- R77, R153: a first packet goes to the exception path while its insertion runs on: the packet stays named, its frame is gone. -/
def Dev.divertFirst (d : Dev) (n k src : Nat) : Dev :=
  let d := d.linkThrough n
  match d.pkt n with
  | none => d
  | some p =>
    if p.flush = 2 then d
    else if p.flush = 1 then ((d.bump R.GLB_FLUSH_CNT [] "FRAMES" 1).releaseRef p.head p.agent).setPkt n { p with flush := 2 }
    else (((d.bump R.FLW_DIV_CNT [k] "COUNT" 1).toHost n p p.bytes 2 src).releaseRef p.head p.agent).setPkt n { p with flush := 2 }

/-- R77, R151: an insertion that a FLUSH may have overtaken fails. -/
def Dev.failOut (d : Dev) (k form : Nat) (ns : List Nat) (f : InsFail) : Dev :=
  let d := ns.foldl Dev.linkThrough d
  if !ns.any d.flushing then d.fullAct k form ns f
  else ns.foldl (fun d n => match d.pkt n with | some p => d.flushOut n p | none => d) (d.failCount k f)

/-- The entry of a record's hold, taken out of the table, and the packets behind it in order: its list, then those of its flow that are held. -/
def Dev.takeHold (d : Dev) (ra : Nat) : Dev × List Nat :=
  let k := raDie ra
  let h := d.hashKey k (d.slot ra).body.key
  let e := (d.flw.pend.get k).find? (fun e => e.raddr == some ra)
  let held := (d.pk.pkts.filter (fun x => x.2.h == some h && (x.2.stage == .held || (x.2.stage == .verdict && x.2.oc == some .held)))).map Prod.fst
  match e with
  | some e => (d.delPend k e.idx, e.pkts ++ held)
  | none => (d, held)

/-- R149, R200, R231: a hold ends in a divert: the packet of a lost work item, then its list and the packets held behind it go to the exception path
in order. -/
def Dev.divertHold (d : Dev) (ra src : Nat) : Dev :=
  let lost := (d.pk.pkts.filter (fun x => x.2.loc == some ra && (x.2.stage == .engine || (x.2.stage == .verdict && x.2.oc == some .engine)))).map Prod.fst
  let (d, ns) := d.takeHold ra
  (lost ++ ns).foldl (fun d n => d.divertOut n (raDie ra) src) d

/-! ## Stale quoins and torn records (R217, R229–R231) -/

/-- R217: a status with its counters. -/
def Dev.qstatus (d : Dev) (e k code : Nat) : Dev :=
  let d := if code = 1 then d.bump R.FLW_QN_BUSY [k] "COUNT" 1
    else if code = 2 then d.bump R.FLW_QN_ORDER [k] "COUNT" 1
    else if code = 4 then d.bump R.FLW_QN_FULL [k] "COUNT" 1 else d
  if 1 ≤ code && code ≤ 4 then d.pmc e 0x0A 1 else d

/-- R217: a status returned. -/
def Dev.qreturn (d : Dev) (e k tok code : Nat) : Dev := (d.qstatus e k code).complete e tok [code]

/-- A waiter leaves the queue. -/
def Dev.unwait (d : Dev) (w : QWait) : Dev := { d with flw := { d.flw with waits := d.flw.waits.erase w } }

/-- R217, R231: the waiters of a record that became torn receive TORN; the items that wait for its quoin are discarded, their packets diverted. -/
def Dev.failWaiters (d : Dev) (ra : Nat) : Dev :=
  let items := d.eng.qitems.filter (fun i => i.raddr == ra)
  let d := (d.flw.waits.filter (fun w => w.raddr == ra)).foldl (fun d w =>
    let d := d.unwait w
    if w.e = 96 then d else d.qreturn w.e (raDie ra) w.tok 5) d
  let d := { d with eng := { d.eng with qitems := d.eng.qitems.filter (fun i => i.raddr != ra) } }
  items.foldl (fun d i => d.divertOut i.pkt (raDie ra) (srcId 3 0x11 0)) d

/-- R229, R234: a torn record's address joins the log of its die, or is lost. -/
def Dev.tornPush (d : Dev) (ra : Nat) : Dev :=
  let k := raDie ra
  let l := d.flw.tornLog.get k
  if l.length ≥ 16 then { d with flw := { d.flw with tornOvf := d.flw.tornOvf.set k true } }
  else
    let d := { d with flw := { d.flw with tornLog := d.flw.tornLog.set k (l ++ [ra]) } }
    if l.isEmpty then d.lineEdge k 10 else d

/-- R124, R229, R520: a stale quoin is reclaimed: freed, or its record torn and its flow diverted. FSET marks the record as any operation of the update unit
does; one that fails every check stays as it is. -/
def Dev.reclaim (d : Dev) (ra : Nat) (inj : Bool) : Dev :=
  match d.quoin ra with
  | none => d
  | some q =>
    let k := raDie ra
    if !q.wi then (d.freeQuoin ra).bump R.FLW_QN_ORPHAN [k] "COUNT" 1
    else
      let src := srcId 3 0x11 0
      let d := ((d.updSlot ra (fun s => { s with st := .torn })).tagWritten ra).auuFlag ra fDiverted true
      let d := { d with flw := { d.flw with divSrc := SMap.put d.flw.divSrc ra src } }
      let d := ((d.freeQuoin ra).bump R.FLW_QN_TORN [k] "COUNT" 1).tornPush ra
      let d := d.errEvent (mkEvent k 0x11 0 2 1 (leBytes 4 ra ++ leBytes 2 q.owner ++ leBytes 2 q.epoch)) inj
      (d.divertHold ra src).failWaiters ra

/-- R229, R230: a record's quoin met: reclaimed when stale. The flag says that the record is torn by it. -/
def Dev.meet (d : Dev) (ra : Nat) : Dev × Bool :=
  match d.quoin ra with
  | some q => if d.stale q then (d.reclaim ra false, q.wi) else (d, false)
  | none => (d, false)

/-- R230: the stale quoins of a record's set reclaimed. The flag says that a record of the set is torn by it. -/
def Dev.meetSet (d : Dev) (ra : Nat) : Dev × Bool :=
  (d.wayList ra).foldl (fun x r => let y := x.1.meet r; (y.1, x.2 || y.2)) (d, false)

/-- R213, R230: a way for a record's quoin: the stale quoins of a full set are met. DEDUCED, log 132. -/
def Dev.needWay (d : Dev) (ra : Nat) : Dev × Bool := if (d.wayList ra).length ≥ 4 then d.meetSet ra else (d, false)

/-! ## Granting (R214–R220) -/

/-- The quoins granted to an engine, OK returned or not, lowest address first. -/
def Dev.owned (d : Dev) (e : Nat) : List Nat := (d.flw.quoins.filter (fun x => x.2.owner == e && !d.stale x.2)).map Prod.fst

/-- R220: the quoins that an engine holds: those granted whose OK has been returned. -/
def Dev.heldQuoins (d : Dev) (e : Nat) : List Nat :=
  (d.flw.quoins.filter (fun x => x.2.owner == e && !d.stale x.2 && !x.2.settling)).map Prod.fst

/-- R215: the quoins that an engine has and those it waits for. -/
def Dev.claims (d : Dev) (e : Nat) : Nat :=
  (d.owned e).length + (d.flw.waits.filter (fun w => w.e == e && !(d.owned e).contains w.raddr)).length

/-- R199, R220: the hold of a record's flow, where it has none; without room in the pending table the later packets are held in their windows. -/
def Dev.makeHold (d : Dev) (ra : Nat) : Dev :=
  let k := raDie ra
  let r := (d.slot ra).body
  if d.pendRoom k && !(d.flw.pend.get k).any (fun p => p.key == r.key) then
    d.addPend k r.key (d.hashKey k r.key) .hold (2 * k + d.hashKey k r.key % 2) (some ra) []
  else d

/-- R199, R220: a quoin granted to an engine. With write intent the flow's hold is made, and OK waits until no packet of the flow is in flight. -/
def Dev.grant (d : Dev) (e ra tok : Nat) (wi : Bool) : Dev :=
  let k := raDie ra
  let settling := wi && d.inFlight ra
  let d := d.setQuoin ra ⟨wi, e, d.epoch e, settling⟩
  let d := if wi then d.makeHold ra else d
  if settling then { d with flw := { d.flw with waits := d.flw.waits ++ [⟨e, ra, wi, tok⟩] } } else d.qreturn e k tok 0

/-- R219: the rank of a waiter, 0 first. -/
def rankOf (rot : List Nat) (e : Nat) : Nat := (rot.takeWhile (fun x => x != e)).length

/-- R219: the waiter of highest rank. -/
def bestWait (rot : List Nat) : List QWait → Option QWait
  | [] => none
  | w :: l => match bestWait rot l with
    | none => some w
    | some x => if rankOf rot x.e < rankOf rot w.e then some x else some w

/-- R219: the winner drops to the lowest rank. -/
def Dev.rotate (d : Dev) (e : Nat) : Dev := { d with flw := { d.flw with rot := d.flw.rot.filter (· != e) ++ [e] } }

/-- R214, R220: the item that waits for a record's quoin has it, with the flow's hold, and goes to a queue. -/
def Dev.grantItem (d : Dev) (ra : Nat) : Dev :=
  match d.eng.qitems.find? (fun i => i.raddr == ra) with
  | none => d
  | some it =>
    let d := { d with eng := { d.eng with qitems := d.eng.qitems.erase it } }
    ((d.makeHold ra).setQuoin ra ⟨true, 0x7F, 0, false⟩).placeItem (match d.pkt it.pkt with | some p => homeRegion p | none => 2 * raDie ra) it

/-- R215, R217, R219: a free quoin granted to the waiter of highest rank. A waiter whose slot has become EMPTY receives NOREC, one whose engine has four
quoins LIMIT, and the next is served; n bounds the waiters tried. -/
def Dev.grantNext (ra : Nat) : Nat → Dev → Dev
  | 0, d => d
  | n + 1, d =>
    match bestWait d.flw.rot (d.flw.waits.filter (fun w => w.raddr == ra)) with
    | none => d
    | some w =>
      let d := d.unwait w
      if w.e = 96 then (d.rotate 96).grantItem ra
      else if (d.slot ra).st == .empty then Dev.grantNext ra n (d.qreturn w.e (raDie ra) w.tok 6)
      else if (d.owned w.e).length ≥ 4 then Dev.grantNext ra n (d.qreturn w.e (raDie ra) w.tok 3)
      else (d.rotate w.e).grant w.e ra w.tok w.wi

/-- R219: a free quoin granted to one waiter. -/
def Dev.grantWaiter (d : Dev) (ra : Nat) : Dev := Dev.grantNext ra d.flw.waits.length d

/-- R214, R219, R230: the implicit quoin of a new item; the item waits while another owner holds it or every way of its set is live, and competes with the
engines that wait for it. -/
def Dev.engage (d : Dev) (g : Nat) (it : Item) : Dev :=
  let d := (d.needWay it.raddr).1
  let join := fun (d : Dev) =>
    { d with flw := { d.flw with waits := d.flw.waits ++ [⟨96, it.raddr, true, 0⟩] }, eng := { d.eng with qitems := d.eng.qitems ++ [it] } }
  if (d.quoin it.raddr).isSome || decide ((d.wayList it.raddr).length ≥ 4) then join d
  else if d.flw.waits.any (fun w => w.raddr == it.raddr) then (join d).grantWaiter it.raddr
  else (d.setQuoin it.raddr ⟨true, 0x7F, 0, false⟩).placeItem g it

end Sys2Proof.Machine
end

