-- ==== Sys2Proof/Machine/Decide.lean ====
section
/-! DEFINITION. The decision of R189 on the home die, the insertions that a miss starts (R147–R153), and what their ends and the ends of holds release. -/

namespace Sys2Proof.Machine

/-! ## Insertion (R147–R151) -/

/-- R143: the limit of a die is reached. -/
def Dev.atLimit (d : Dev) (k : Nat) : Bool := decide (d.get R.FLW_COUNT [k] "COUNT" ≥ d.get R.FLW_LIMIT [k] "LIMIT")

/-- R122: the MIRRORED bit of a record written now. -/
def Dev.mirFlag (d : Dev) : Nat := if d.mirrored then 2 else 0

/-- R122, R138, R149: an engine-assisted setup: the slot reserved, the entry made, the work item dispatched. Bytes 40 to 42 and 44 to 61 of the reserved
slot, which step 1 does not name, are written as zero: DESIGN CHOICE, log 147. -/
def Dev.startSetup (d : Dev) (n : Nat) (p : Pkt) (k h f : Nat) : Dev × Oc :=
  if d.atLimit k then (d, .fail .limit)
  else match d.choose h with
    | none => (d, .fail .full)
    | some (ra, alt) =>
      let rec_ : Rec := { Rec.zero with key := p.key, flags := 8 + d.mirFlag + 16 * b2n (!p.swap) }
      let g := homeRegion p
      let d := (d.occupy ra h alt .pending rec_).addPend k p.key h .setup g (some ra) [n]
      (d.engage g ⟨d.get R.FLW_KFORM [k, f] "SETUP_OP", 1, n, ra, rec_.bytes, p.flush != 0⟩, .listed true)

/-- R147, R151: a lookup miss starts an insertion; the failures that precede it are tested in R151's order. -/
def Dev.startInsert (d : Dev) (n : Nat) (p : Pkt) (k : Nat) : Dev × Oc :=
  let h := p.h.getD 0
  let f := byteAt p.key 0
  if !d.bit R.FLW_CTL [k] "INS_EN" then (d, .fail .full)
  else if !d.pendRoom k then (d, .fail .ptab)
  else if d.bit R.FLW_KFORM [k, f] "FAST" then (d.addPend k p.key h .fast (homeRegion p) none [n], .listed true)
  else d.startSetup n p k h f

/-! ## The decision (R189) -/

/-- R199, R214, R230, R312 step 7: outcome ENGINE: an engine hold for the flow and the packet's item; a record that the request finds torn diverts. -/
def Dev.toEngine (d : Dev) (n : Nat) (p : Pkt) (k ra : Nat) (r : Rec) (op kind : Nat) : Dev × Oc :=
  match d.meet ra with
  | (d, true) => (d, .divert (srcId 3 0x11 0))
  | (d, false) =>
    let d := if d.pendRoom k then d.addPend k r.key (p.h.getD 0) .hold (homeRegion p) (some ra) [] else d
    (d.engage (homeRegion p) ⟨op, kind, n, ra, r.bytes, p.flush != 0⟩, .engine)

/-- R361: the KIND of a dispatch under an action entry. -/
def itemKind (e : List Byte) (p : Pkt) : Nat := if aFlag e 4 then 2 else if decide (p.hits > 0) && aPhact e == 2 then 3 else 4

/-- R189 rows 4 to 8 on a record that the packet has read, and R275: an error that its stages met diverts it. -/
def Dev.judgeRec (d : Dev) (n : Nat) (p : Pkt) (k ra : Nat) (r : Rec) : Dev × Pkt × Oc :=
  let p := { p with loc := some ra, gen := (d.slot ra).gen, img := some r }
  match p.ecc with
  | some s => (d.eccDivert ra s, p, .divert s)
  | none =>
  match d.evaluate k r p false with
  | (d, .refuse) => (d, { p with tcp := none }, .drop)
  | (d, .dispatch op) => let (d, oc) := d.toEngine n p k ra r op (itemKind (d.snapFor k p r).ent p); (d, p, oc)
  | (d, .forward tcp) =>
    let p := { p with tcp := tcp }
    if !p.pred || p.replayed || (p.pact == r.action && p.paux == r.aux) then (d, p, .commit) else (d, p, .squash)

/-- R189 rows 2 and 3, and the rest, on the slot that a lookup has found. A replay goes by the record as the flow's earlier packets leave it (R193). -/
def Dev.judgeSlot (d : Dev) (n : Nat) (p : Pkt) (k ra : Nat) : Dev × Pkt × Oc :=
  let s := d.slot ra
  if s.st = .pending then
    let d := d.addPend k p.key (p.h.getD 0) .setup (homeRegion p) (some ra) [n]
    (d, p, .listed true)
  else if s.st = .torn || s.body.diverted then (d, p, .divert (SMap.get d.flw.divSrc ra 0))
  else if (match d.quoin ra with | some q => q.wi && !d.stale q | none => false) && p.rd.isNone then (d, p, .held)
  else d.judgeRec n p k ra (if p.replayed then d.imageOf ra s.body else s.body)

/-- The source of the divert of a record or tag block that failed. -/
def checkSrc (ra : Nat) : Nat := srcId 3 0x10 (raStack ra % 3)

/-- R145, R189: a lookup for a packet, with the errors that its reads report. -/
def Dev.look (d : Dev) (p : Pkt) : Dev × Found :=
  let h := p.h.getD 0
  (d.lookupFix p.key h p.hintLoc, d.lookup p.key h p.hintLoc)

/-- R189, R204, R615: the record read of a packet returns: what it found stands for the packet's decision, whatever becomes of the slot. A miss, a PENDING
slot and a record under a quoin with write intent (R220) decide nothing: the packet reads again when it is decided. -/
def Dev.readFor (d : Dev) (p : Pkt) : Dev × Option Rd :=
  match d.look p with
  | (d, .miss) => (d, none)
  | (d, .bad ra _) => (d, some (.bad ra))
  | (d, .hit ra) =>
    let s := d.slot ra
    let held := s.st == .valid && (match d.quoin ra with | some q => q.wi && !d.stale q | none => false)
    (d, if s.st == .pending || held then none else some (.slot ra s (SMap.get d.flw.divSrc ra 0)))

/-- R189 rows 3 to 8 on what a packet's read returned. A replay's rows apply to the record as it stands (R194), and to the one it read where the slot has
changed hands since (R204). -/
def Dev.judgeRead (d : Dev) (n : Nat) (p : Pkt) (k : Nat) (r : Rd) : Dev × Pkt × Oc :=
  match r with
  | .bad ra => (d, p, .divert (checkSrc ra))
  | .slot ra s src =>
    if s.st = .torn || s.body.diverted then (d, p, .divert src)
    else if p.replayed && (d.slot ra).gen = s.gen then
      match d.recUse ra with
      | (d, false) => (d, p, .divert (checkSrc ra))
      | (d, true) => d.judgeSlot n p k ra
    else
      let (d, p, oc) := d.judgeRec n p k ra (if p.replayed then p.img.getD s.body else s.body)
      (d, { p with gen := s.gen }, oc)

/-- R189 row 1: an earlier packet of the flow and ingress port is held, or went to an engine and has not been released. -/
def Dev.rowOne (d : Dev) (p : Pkt) : Bool :=
  d.earlierIn p [.held, .engine] || d.pk.pkts.any (fun x => sameFlow p x.2 && decide (x.2.ord < p.ord) && (x.2.oc == some .held || x.2.oc == some .engine))

/-- R189: the classification of a packet whose record read has returned, on home die k. A packet that read the record before an entry was made is not
caught by it (R204, R220), unless an earlier packet of its flow and ingress port is. -/
def Dev.judge (d : Dev) (n : Nat) (p : Pkt) (k : Nat) : Dev × Pkt × Oc :=
  let first := fun (e : PEnt) => p.rd.isSome && !d.rowOne p
    && !e.pkts.any (fun m => match d.pkt m with | some q => q.port == p.port && q.g == p.g | none => false)
  match (d.pendOf k p).filter (fun e => !first e) with
  | some e => let (d, oc) := d.joinHome k n p e; (d, p, oc)
  | none =>
    if d.rowOne p then (d, p, .held) else
    match p.rd with
    | some r => d.judgeRead n p k r
    | none =>
      match d.look p with
      | (d, .miss) => let (d, oc) := d.startInsert n p k; (d, p, oc)
      | (d, .bad ra _) => (d, p, .divert (checkSrc ra))
      | (d, .hit ra) => d.judgeSlot n p k ra

/-- R189, R202: a packet decided on its home die; the outcome is carried out, or crosses to the ingress die as a verdict where the packet has its window
entry (log 116). -/
def Dev.ruleOn (d : Dev) (n : Nat) (p : Pkt) : Dev :=
  let k := homeDie (p.h.getD 0)
  let (d, p, oc) := d.judge n { p with ret := false } k
  if k = p.d || !(d.winOf p.g).any (fun x => x.2 == n) then d.bringOut n p k oc else d.sendVerdict n p oc

/-! ## Releases (R152, R198, R199, R221) -/

/-- R152, R198, R262: one released packet, unpredicted under the record as it stands. One whose pattern result is outstanding is decided when it has come, and
the packets of its flow behind it after it. -/
def Dev.releaseOne (k : Nat) (d : Dev) (n : Nat) : Dev :=
  let d := d.linkThrough n
  match d.pkt n with
  | none => d
  | some p =>
    if p.flush != 0 then d.flushOut n p else
    let p := { p.unread with pred := false, replayed := false, squashed := false }
    if p.pat.isSome || d.earlierIn p [.window, .crossing, .remote] then d.setPkt n { p with stage := .window, ret := true } else
    let (d, p, oc) := d.judge n p k
    d.bringOut n p k oc

/-- R152, R198, R221: packets released in order. A release reaches a packet of the other die at once: it has given its window entry up, and a verdict
names one. DESIGN CHOICE, log 116. -/
def Dev.releaseList (k : Nat) (d : Dev) (ns : List Nat) : Dev := ns.foldl (Dev.releaseOne k) d

/-! ## Replays and waiting records (R193) -/

/-- R193: the record read of a packet whose replay is due has returned: the record that it runs under, an empty one where there is none. -/
def Dev.replayRead (d : Dev) (n : Nat) (p : Pkt) : Dev :=
  let p := { p with ret := false }
  if p.img.isSome then d.setPkt n p else
  match p.rd with
  | some (.slot ra s _) => d.setPkt n { p with loc := some ra, gen := s.gen, img := some s.body }
  | _ => d.setPkt n { p with loc := none, img := some Rec.zero }

/-- R30, R193, R194, R310: a replay's action-dependent stages have ended: rows 1 to 5 of R189 apply again, on the packet's home die. That of a packet of the
other die asks for them with its descriptor: DEDUCED, log 146. -/
def Dev.replayFinish (d : Dev) (n : Nat) (p : Pkt) : Dev :=
  if homeDie (p.h.getD 0) = p.d then d.ruleOn n p else d.sendDesc n { p with ran := true }

/-- R193: a replay may start: its record is there, and every earlier packet of its flow and ingress port has gone or started its own. -/
def Dev.mayStart (d : Dev) (n : Nat) : Bool :=
  match d.pkt n with
  | none => false
  | some p => p.stage == .replay && p.img.isSome && p.pat.isNone
      && !d.pk.pkts.any (fun x => sameFlow p x.2 && decide (x.2.ord < p.ord) && winStages.contains x.2.stage && !x.2.ran
        && !(d.pk.run.getD p.g []).contains x.1)

/-- R193: a replay starts: its action-dependent stages run under its own record. -/
def Dev.replayStart (d : Dev) (g n : Nat) : Dev :=
  match d.pkt n with
  | none => d
  | some p =>
    let r := p.img.getD Rec.zero
    let (d, p) := d.runUnder p r.action r.aux
    let d := d.setPkt n p
    { d with pk := { d.pk with replay := setAt d.pk.replay g ((d.pk.replay.getD g []).filter (· != n)),
                               run := setAt d.pk.run g (d.pk.run.getD g [] ++ [n]) } }

/-- R170, R193: a packet whose record, verdict or replay's end has come while earlier packets of its flow and ingress port stood before it may go on. -/
def Dev.unblocked (d : Dev) (p : Pkt) : Bool :=
  p.ret && p.pat.isNone && (match p.stage with
    | .window | .remote => !d.earlierIn p [.window, .crossing, .remote]
    | .verdict => !d.earlierIn p winStages
    | .replay => p.img.isNone || !d.earlierIn p winStages
    | _ => false)

/-- R170, R193: it goes on. -/
def Dev.goOn (d : Dev) (n : Nat) (p : Pkt) : Dev :=
  match p.stage, p.oc with
  | .verdict, some oc => d.carryOut n { p with oc := none, ret := false } (homeDie (p.h.getD 0)) oc
  | .replay, _ => if p.img.isNone then d.replayRead n p else d.replayFinish n p
  | _, _ => d.ruleOn n p

/-- What the commit windows can do of themselves, at most f times: packets that are no longer blocked go on, and replays start in the replay order. -/
def Dev.pumpN : Nat → Dev → Dev
  | 0, d => d
  | f + 1, d =>
    match d.pk.pkts.find? (fun x => d.unblocked x.2) with
    | some x => Dev.pumpN f (d.goOn x.1 x.2)
    | none =>
      match (List.range 4).findSome? (fun g => ((d.pk.replay.getD g []).find? d.mayStart).map (fun n => (g, n))) with
      | some (g, n) => Dev.pumpN f (d.replayStart g n)
      | none => d

/-- R170, R193: everything that the commit windows can do of themselves. -/
def Dev.pump (d : Dev) : Dev := Dev.pumpN (4 * d.pk.pkts.length + 4) d

/-- R152, R199, R221: the hold of a record ends: its list, then the packets held in their windows behind it. -/
def Dev.releaseHold (d : Dev) (ra : Nat) : Dev := let (d, ns) := d.takeHold ra; (Dev.releaseList (raDie ra) d ns).pump

/-! ## The end of a fast insertion (R148) -/

/-- R134: word w of a template. -/
def Dev.tmpl (d : Dev) (k t w : Nat) : Nat := d.getW R.FLW_TMPL [k, t, w]

/-- R148, R329: the record of a fast insertion: from the template, the match metadata, the balancer and the first packet. -/
def Dev.fastRec (d : Dev) (p : Pkt) (k : Nat) : Option Rec :=
  let t := d.get R.FLW_KFORM [k, byteAt p.key 0] "TEMPLATE"
  let action := if hasBit (d.tmpl k t 1) 16 then leAt p.md 4 3 else bitsOf (d.tmpl k t 0) 23 0
  let e := d.actEnt k action
  let aux := if action < 2 ^ 18 && aDmode e = 2 then d.balSelect k (aDest e) (p.h.getD 0) else some (bitsOf (d.tmpl k t 1) 15 0)
  aux.map (fun a =>
    { Rec.zero with key := p.key, action := action, flags := 1 + d.mirFlag + 16 * b2n (!p.swap), pkts := 1, octets := p.bytes.length,
                    last := d.tick k, tcpst := bitsOf (d.tmpl k t 0) 31 24, age := 128, aux := a })

/-- R148: the first packet of a fast insertion under the record that it made. -/
def Dev.firstCommit (d : Dev) (n : Nat) (p : Pkt) (k ra : Nat) (r : Rec) : Dev :=
  let (d, p, oc) := d.judgeRec n { p with pred := false, replayed := false, snap := none } k ra r
  match oc with
  | .commit =>
    let d := match p.tcp with | some (_, b) => d.auuStore ra { r with tcpst := b } | none => d
    d.commitOut n p false
  | .drop => if p.flush != 0 then d.flushOut n p else (d.pipeTrace p 6).commitDrop n p false
  | .engine => if p.flush != 0 then d.setPkt n { p with stage := .engine } else d.carryOut n p k .engine
  | oc => if p.flush != 0 then d.flushOut n p else d.carryOut n p k oc

/-- R148, R151, R153: a fast insertion ends: the slot and tag written, the first packet committed under the new record, the list released. A flow that
an armed FLW_SETUP_TMO diverted keeps its DIVERTED mark, and its first packet has gone. -/
def Dev.fastInsert (d : Dev) (n : Nat) : Dev :=
  let d := d.linkThrough n
  match d.pkt n with
  | none => d
  | some p =>
    let h := p.h.getD 0
    let k := homeDie h
    match (d.flw.pend.get k).find? (fun e => e.kind == .fast && e.pkts.head? == some n) with
    | none => d
    | some e =>
      let d := d.delPend k e.idx
      if d.atLimit k then (d.failOut k e.kform e.pkts .limit).pump
      else match d.choose h with
        | none => (d.failOut k e.kform e.pkts .full).pump
        | some (ra, alt) =>
          match d.fastRec p k with
          | none => (d.failOut k e.kform e.pkts .nosel).pump
          | some r =>
            let r := { r with flags := withBit r.flags fDiverted e.diverted }
            let d := (d.occupy ra h alt .valid r).bump R.FLW_INS_FAST [k] "COUNT" 1
            if e.diverted then
              (Dev.releaseList k ({ d with flw := { d.flw with divSrc := SMap.put d.flw.divSrc ra (srcId 2 0x12 (e.region % 2)) } }.delPkt n p) (e.pkts.drop 1)).pump
            else (Dev.releaseList k (d.firstCommit n p k ra r) (e.pkts.drop 1)).pump

/-- R153: the insertion of a pending-table entry can be late: it is one of the pipeline, not diverted yet, and the timer is on. -/
def Dev.setupOver (d : Dev) (k i : Nat) : Bool :=
  (d.flw.pend.get k).any (fun e => e.idx == i && e.kind != .hold && e.kind != .host && !e.diverted) && d.get R.FLW_PEND_CFG [k] "TMO_US" != 0

/-- R153, R612, R616: an insertion that has not ended in time is reported; an armed DIVERT diverts its list and marks its entry. -/
def Dev.setupTimeout (d : Dev) (k i : Nat) : Dev :=
  match (d.flw.pend.get k).find? (fun e => e.idx == i) with
  | none => d
  | some e =>
    let w := e.region % 2
    let inj := d.injArmed k 0x12 w
    if e.kind = .hold || e.kind = .host || e.diverted || (d.get R.FLW_PEND_CFG [k] "TMO_US" = 0 && !inj) then d else
    let d := if inj then d.injPlanted k else d
    let act := d.armed k 0x12 0
    let d := d.errEvent (mkEvent k 0x12 w 2 1 (leBytes 8 e.h ++ leBytes 2 i)) inj (if act then ⟨true, 0⟩ else noResp)
    if !act then d else
    let src := srcId 2 0x12 w
    let d := match e.pkts with | n :: _ => d.divertFirst n k src | [] => d
    let d := d.updPend k i (fun e => { e with diverted := true, pkts := e.pkts.take 1 })
    (e.pkts.drop 1).foldl (fun d n => d.divertOut n k src) d

end Sys2Proof.Machine
end

