-- ==== Sys2Proof/Machine/Pipe.lean ====
section
/-! DEFINITION. The region pipeline (chapters 5 and 7): arrival at the MAC, parsing, the commit window, record return, verdicts, replays and
recirculation. -/

namespace Sys2Proof.Machine

/-! ## Arrival (R26–R28, R539–R543) -/

/-- A packet as it arrives, nothing of it parsed. -/
def Pkt.arrived (k g port ord : Nat) (fr : List Byte) (stamp : Int) (agent part cls head bad : Nat) (sid : Option Nat) : Pkt :=
  { md := List.replicate 32 0#8, hv := [], depth := 0, vid := none, malf := 0, key := [], h := none, swap := false, frag := false, ipOff := none,
    l4Off := none, v6 := false, pred := false, pact := 0, paux := 0, pconf := 0, hintLoc := none, md0 := [], deltas0 := [], src0 := [], deltas := [],
    src := [], snap := none, spec := none, ecc := none, pat := none, insp := false, win := none, rd := none, loc := none, gen := 0, img := none, tcp := none, squashed := false,
    replayed := false, ran := false, oc := none, ret := false, flush := 0, d := k, g := g, port := port, ord := ord, bytes := fr, stamp := stamp, pass := 0, agent := agent, part := part,
    cls := cls, head := head, bad := bad, stampId := sid, stage := .arrived }

/-- R235: a frame enters a region's pipeline. -/
def Dev.admission (d : Dev) (f : Nat → Pkt) : Dev :=
  let n := d.pk.next
  { d with pk := { d.pk with pkts := SMap.put d.pk.pkts n (f n), next := n + 1 } }

/-- R433: the partition of die k for frames of an ingress class. -/
def Dev.pmap (d : Dev) (k cls : Nat) : Nat :=
  match d.body 0x06 with
  | none => 0
  | some b => byteAt b (16 + 8 * byteAt b 1 + 8 * k + cls)

/-- R73, R601: the MACs of a region drop what arrives: the part is not in RUN, or the region is quiesced. -/
def Dev.refusesNew (d : Dev) (g : Nat) : Bool := d.glb.mode != .run || hasBit (d.get R.ERR_QUIESCE [g / 2] "REGION") (g % 2)

/-- R573, R580: the receive stamp: the raw count at the MII boundary less the path's delay, which the part holds and the spec does not give. -/
def Dev.rxStamp (d : Dev) (p : Nat) : Dev × Int :=
  let (w, d) := d.fresh (2 ^ 16)
  (d, d.tim.pEvent ((d.rawOf p : Int) - (w : Nat) - sgn 16 (d.get R.TIM_PORT_CORR [p / 32, p % 32] "RX")).toNat)

/-- The good frames of a port and their bytes counted. -/
def Dev.rxCount (d : Dev) (p len : Nat) : Dev := (d.bump R.MAC_RX_FRAMES (macIx p) "COUNT" 1).bump R.MAC_RX_OCTETS (macIx p) "COUNT" len

/-- R541, R543: a frame enters its region: its first cells, its stamp, and while cells are to come the record of its arrival. -/
def Dev.rxAdmit (d : Dev) (p : Nat) (fr : List Byte) (bad rest : Nat) : Dev :=
  let g := p / 16
  let k := p / 32
  let cls := d.macClass p fr
  let part := d.pmap k cls
  let rest := min rest (cellsOf fr.length - 1)
  let fill := if rest = 0 then fillOf fr.length else 255
  match d.allocChain k (g % 2) part (cellsOf fr.length - rest) fill (some (8 * p + cls)) true with
  | (d, .error _) => d.macCnt p 5 1
  | (d, .ok cs) =>
    let head := k * 2 ^ 18 + cs.headD 0
    let n := d.pk.next
    let d := if rest = 0 then (if bad = 0 then d.rxCount p fr.length else d) else
      { d with buf := { d.buf with arr := d.buf.arr ++
        [⟨n, p, head, k * 2 ^ 18 + cs.getLast?.getD 0, rest, fr.length, g % 2, part, some (8 * p + cls), bad == 0⟩] } }
    let (d, st) := d.rxStamp p
    d.admission (fun n => Pkt.arrived k g p n fr st (g % 2) part cls head bad none)

/-- R28, R73, R196, R539–R543, R546, R601: a frame at the MAC of front port p. `rest` of its cells are still to come when it enters the pipeline. `slot`
says whether the region grants it a slot, which a full commit window never does, and `full` whether the port's receive FIFO is full. -/
def Dev.frameReceive (d : Dev) (p : Nat) (fr : List Byte) (slot full : Bool) (rest : Nat) : Dev :=
  let (d, here) := d.rxPath p fr
  if !here || !d.linkRx p then d
  else
    let d := d.fecCount p
    if fr.length < 64 then d.macCnt p 1 1 else
    let g := p / 16
    let (d, broken) := d.macMem p 0
    let bad := if broken then 1 else d.badFrame p fr
    let good := fun (d : Dev) => if bad = 0 then d.rxCount p fr.length else d
    if isMacCtl fr then (if bad = 1 || !fcsGood fr then (good d).macCnt p 0 1 else (good d).macControl p fr)
    else if d.refusesNew g then (good d).macCnt p 4 1
    else if full && (!slot || decide ((d.winOf g).length ≥ 2048)) then (good d).macCnt p 3 1
    else d.rxAdmit p fr bad rest

/-! ### Frames that are still arriving (R436, R459, R540) -/

/-- Every VOQ entry of a frame treated by f: kept, changed, or taken out and its reference given back. -/
def Dev.entsOf (d : Dev) (g head : Nat) (f : Dev → Nat → QEnt → Dev × Option QEnt) : Dev :=
  (d.buf.voq.filter (fun x => x.1 / 520 == g)).foldl (fun d x =>
    let v := x.1 % 520
    let ents := (d.voqOf g v).ents
    let y := ents.foldl (fun (y : Dev × List QEnt) e =>
      if e.head != head then (y.1, y.2 ++ [e]) else
      match f y.1 v e with
      | (d, some e) => (d, y.2 ++ [e])
      | (d, none) => (d.entEnd e, y.2)) (d, [])
    if ents.any (fun e => e.head == head) then (y.1.setVoq g v { y.1.voqOf g v with ents := y.2 }).voqMoved g v else d) d

/-- R436, R459: the committed entries of a frame that ends before all of it has arrived: one whose transmission has begun ends there with a stomped FCS;
any other is dropped whole. -/
def Dev.cutShort (d : Dev) (a : Arr) : Dev :=
  let g := a.port / 16
  let have_ := cellsOf a.len - a.left
  d.entsOf g a.head (fun d v e =>
    let key := xKey false g (eqRegion (d.voqTarget v)) v
    match SMap.look d.buf.xfer key with
    | some x =>
      if e.cut && x.v == v && decide (0 < x.sent) then
        let d := (d.setXfer key { x with total := have_ }).updFlight (d.voqTarget v) e.pkt (fun c =>
          { c with n := have_, stomp := true, bytes := c.bytes.take (256 * have_ - (e.bytes.length - c.bytes.length)) })
        (d, some { e with n := have_, stomp := true, bytes := e.bytes.take (256 * have_) })
      else (d.voqDrop g, none)
    | none => (d.voqDrop g, none))

/-- R436: an arriving frame is refused its next cell: before its packet commits it is dropped whole; a packet that a list, a hold or an item names stays
named until that ends. -/
def Dev.arrRefused (d : Dev) (a : Arr) : Dev :=
  let d := { d with buf := { d.buf with arr := d.buf.arr.filter (fun b => b.head != a.head) } }
  match d.pkt a.pkt with
  | none => d.cutShort a
  | some p =>
    let d := d.macCnt a.port 5 1
    if p.stage == .listed || p.stage == .engine || (p.stage == .verdict && (match p.oc with | some oc => !oc.waits | none => false)) then
      (d.releaseRef p.head p.agent).setPkt a.pkt { p with flush := 2 }
    else d.dropPkt a.pkt p

/-- R420, R436: a number of an arriving frame's cells come, until one is refused; how many is free: DESIGN CHOICE, log 134. -/
def Dev.arrCells : Nat → Arr → Dev → Dev
  | 0, _, d => d
  | n + 1, a, d =>
    match d.arriveCell a with
    | (d, .error _) => d.arrRefused a
    | (d, .ok b) =>
      let rest := d.buf.arr.filter (fun x => x.head != a.head)
      if b.left = 0 then
        let d := { d with buf := { d.buf with arr := rest } }
        if b.good then d.rxCount b.port b.len else d
      else Dev.arrCells n b { d with buf := { d.buf with arr := d.buf.arr.map (fun x => if x.head = a.head then b else x) } }

/-- R459, R540, R567: a frame that is still arriving is made bad; one that has committed leaves with a stomped FCS and counts. -/
def Dev.arrBad (d : Dev) (port : Nat) : Dev :=
  (d.buf.arr.filter (fun a => a.port == port)).foldl (fun d a =>
    match d.pkt a.pkt with
    | some p => d.setPkt a.pkt { p with bad := max 1 p.bad }
    | none =>
      let d := if a.good then d.countBad a.port 1 else d
      let d := { d with buf := { d.buf with arr := d.buf.arr.map (fun (b : Arr) => if b.head = a.head then { b with good := false } else b) } }
      d.entsOf (a.port / 16) a.head (fun d v e => (d.updFlight (d.voqTarget v) e.pkt (fun c => { c with stomp := true }), some { e with stomp := true }))) d

/-- R459, R540: the link of a port is lost while frames arrive: each ends there, a bad frame. -/
def Dev.arrLost (d : Dev) (port : Nat) : Dev :=
  (d.buf.arr.filter (fun a => a.port == port)).foldl (fun d a =>
    let d := { d with buf := { d.buf with arr := d.buf.arr.filter (fun b => b.head != a.head) } }
    match d.pkt a.pkt with
    | some p => d.setPkt a.pkt { p with bad := max 1 p.bad }
    | none => (if a.good then d.countBad a.port 1 else d).cutShort a) d

/-- R439, R444: in one slot each arriving frame takes some of its cells; how many is a free value. -/
def Dev.arrivals (d : Dev) : Dev :=
  (d.buf.arr.map (·.head)).foldl (fun d h =>
    match d.buf.arr.find? (fun a => a.head == h) with
    | none => d
    | some a => if d.linkRx a.port then (let (n, d) := d.fresh (a.left + 1); Dev.arrCells n a d) else d.arrLost a.port) d

/-- R537, R540: a loss at a port; where its lanes then carry no frames, those that were arriving end. -/
def Dev.lossAt (d : Dev) (port lane : Nat) (l : Loss) : Dev :=
  let d' := d.loss port lane l
  if d.linkRx port && !d'.linkRx port then d'.arrLost port else d'

/-! ## Parsing (R235–R252, R261, R264–R266) -/

/-- R237: the zone that the ingress port gives. -/
def Dev.ingressZone (d : Dev) (p : Pkt) (vid : Option Nat) : Nat :=
  let ix := rw p.g
  let port := d.get R.PRS_PORT_ZONE (ix ++ [cfgEntry p]) "ZONE"
  match d.bit R.PRS_PORT_CFG (ix ++ [cfgEntry p]) "ZSEL", vid with
  | true, some v => if d.bit R.PRS_ZMAP (ix ++ [v]) "VALID" then d.get R.PRS_ZMAP (ix ++ [v]) "ZONE" else port
  | _, _ => port

/-- R235, R239, R250, R259: metadata before the pre-hash tables: the port's entry, then the SETKF states; USER of a second pass is carried over. The traffic
class, which no entry gives, starts as the ingress class of the packet's arrival in both passes: DESIGN CHOICE, log 148. -/
def Dev.startMd (d : Dev) (p : Pkt) (ps : ParseSt) : List Byte :=
  let ix := rw p.g ++ [cfgEntry p]
  let key := d.get R.PRS_PORT_CFG ix "KFORM" + 16 * d.get R.PRS_PORT_CFG ix "KVALID"
  leBytes 2 (d.ingressZone p ps.vid) ++ leBytes 1 (ps.kf.getLast?.getD key) ++ leBytes 1 (16 * p.pass) ++ leBytes 3 0
    ++ leBytes 1 (p.cls % 8 + 8 * d.get R.PRS_PORT_CFG ix "PROF") ++ leBytes 4 0 ++ leBytes 1 p.port ++ leBytes 11 0
    ++ (if p.pass = 1 then sliceB p.md 24 8 else leBytes 8 0)

/-- R321, R135, R136: the canonical key, swap bit and H of a parsed packet under its final key form and zone. -/
def Dev.keyOf (d : Dev) (p : Pkt) (ps : ParseSt) (fr md : List Byte) : Dev × List Byte × Bool × Nat :=
  let k := p.d
  let f := byteAt md 2 % 16
  let ki := ps.keyIn fr (leAt md 0 2)
  let (d, ki) :=
    if d.bit R.FLW_KFORM [k, f] "CELLPLAN" && (match ps.ip with | some (_, v6) => !v6 | none => false) then
      let (z, da, miss) := d.cpKey k ki.zone ki.da
      (if miss then d.bump R.CP_MISS [k] "COUNT" 1 else d, { ki with zone := z, da := da })
    else (d, ki)
  let (key, swap) := canonKey d k f ki
  (d, key, swap, d.hashKey k key)

/-- R254, R261: a FLOW stage takes part in a packet's pass. -/
def Dev.flowStage (d : Dev) (p : Pkt) : Bool := flowRuns (d.passDescs p.pass) (mdProf p.md)

/-- R261, R262, R267: a packet with INSPECT = 1 counts as inspected, once in its two passes, with the patterns that it matches; the FLOW stage of its
first pass awaits the result. DEDUCED, log 117. -/
def Dev.inspect (d : Dev) (p : Pkt) : Dev × Pkt :=
  if !ctrl p.md 0 then (d, p) else
  let d := d.inspected p
  let p := { p with insp := true }
  (d, if p.pass = 0 && d.flowStage p && d.bit R.PRS_PORT_CFG (rw p.g ++ [cfgEntry p]) "PAT_EN" then { p with pat := some (d.patHits p) } else p)

/-- R249–R251, R254, R261: a well-formed packet through its pre-hash tables, key, H and action-independent stages. -/
def Dev.classify (d : Dev) (p : Pkt) (ps : ParseSt) (fr : List Byte) : Dev × Pkt :=
  let pre := (d.passDescs p.pass).filter dPre
  let (d, r0) := runTables p.g ps.hv 0 pre (d, ⟨d.startMd p ps, [], [], none⟩)
  let (d, key, swap, h) := d.keyOf p ps fr r0.md
  let (d, r) := runTables p.g ps.hv h (d.splitTables p.pass).1 (d, r0)
  d.inspect { p with md := r.md, hv := ps.hv, depth := ps.off, vid := ps.vid, key := key, h := some h, swap := swap, frag := ps.frag,
                     ipOff := ps.ip.map Prod.fst, l4Off := ps.l4, v6 := (match ps.ip with | some (_, v6) => v6 | none => false),
                     md0 := r.md, deltas0 := r.deltas, src0 := r.src, deltas := r.deltas, src := r.src, ecc := r.divert, pat := none }

/-! ## Stateless and malformed packets (R171, R262, R265, R266) -/

/-- R265, R540: the action of a malformed packet; a bad frame is dropped where a queue would take it or its copy. -/
def Dev.malfAct (d : Dev) (n : Nat) (p : Pkt) : Dev :=
  let ix := rw p.g ++ [p.malf]
  let act := d.get R.PRS_MALF_ACT ix "ACT"
  if act = 1 then (d.toHost n p p.bytes 3 0).endPkt n p
  else if act = 2 then (if p.bad != 0 then d.countBad p.port p.bad else d.mirrorCopy n p p.bytes (d.get R.PRS_MALF_ACT ix "SESS")).endPkt n p
  else d.endPkt n p

/-- R251, R275: a packet that reads no record leaves the pipeline: its remaining stages, then its commit. -/
def Dev.statelessEnd (d : Dev) (n : Nat) (p : Pkt) : Dev :=
  if p.malf != 0 then d.malfAct n p
  else
    let (d, p) := d.runDep p
    match p.ecc with
    | some s => d.divertPkt n p p.d s
    | none => d.commitWork n p none

/-- R171: the waiting packets of an ingress port leave in arrival order, up to the first whose pattern result is outstanding. -/
def Dev.drainPort (d : Dev) (g port : Nat) : Dev :=
  let l := d.pk.pkts.filter (fun x => x.2.stage == .waiting && x.2.g == g && x.2.port == port)
  (l.takeWhile (fun x => x.2.pat.isNone)).foldl (fun d x => d.statelessEnd x.1 x.2) d

/-- R264, R266: a malformed packet is counted, recorded, and ordered with the stateless packets of its port. -/
def Dev.malformed (d : Dev) (n : Nat) (p : Pkt) (ps : ParseSt) : Dev :=
  let ix := rw p.g
  let p := { p with malf := ps.malf, stage := .waiting, md := d.startMd p ps }
  let d := d.bump R.PRS_MALF_CNT (ix ++ [ps.malf]) "COUNT" 1
  let d := ((d.put R.PRS_MALF_LAST ix "CAUSE" ps.malf).put R.PRS_MALF_LAST ix "OFF" ps.malfOff).put R.PRS_MALF_LAST ix "PORT" p.port
  ((d.pipeTrace p 9).setPkt n p).drainPort p.g p.port

/-! ## Stateful packets (R144, R147, R177–R185, R195) -/

/-- R178: the hint result of a packet with H complete. A match of low confidence counts whatever EN is: DESIGN CHOICE, log 115. -/
def Dev.predict (d : Dev) (p : Pkt) (h : Nat) : Dev × Pkt :=
  let ix := [p.d, p.g % 2]
  match d.hintMatch p.d h with
  | none => (d.bump R.FLW_MIR_MISS ix "COUNT" 1, p)
  | some e =>
    let d := d.bump R.FLW_MIR_HIT ix "COUNT" 1
    if bitsOf e 44 43 < d.get R.FLW_MIR_CTL [p.d] "MIN_CONF" then (d.bump R.FLW_MIR_LOWCONF ix "COUNT" 1, p)
    else if !d.bit R.FLW_MIR_CTL [p.d] "EN" then (d, p)
    else (d, { p with pred := true, pconf := bitsOf e 44 43, pact := bitsOf e 39 16, paux := bitsOf e 15 0, hintLoc := some (bitsOf e 48 48, bitsOf e 47 45) })

/-- R195: a stateful packet takes the lowest free entry of its region's commit window. -/
def Dev.takeWin (d : Dev) (n : Nat) (p : Pkt) : Dev × Pkt :=
  let i := d.winFree p.g
  let d := { d with pk := { d.pk with win := setAt d.pk.win p.g (d.winOf p.g ++ [(i, n)]) } }
  let c := (d.winOf p.g).length
  let ix := [p.d, p.g % 2]
  (if c > d.get R.FLW_MIR_WIN_PEAK ix "PEAK" then d.put R.FLW_MIR_WIN_PEAK ix "PEAK" c else d, { p with win := some i })

/-- R144, R147, R178, R184, R195: a stateful packet takes its window entry and hint result; on its home die its key probes the pending table, else
its descriptor starts across. A probe that hits while earlier packets of the flow are undecided is decided behind them. -/
def Dev.stateful (d : Dev) (n : Nat) (p : Pkt) : Dev :=
  let h := p.h.getD 0
  let (d, p) := d.takeWin n p
  let (d, p) := d.predict p h
  let k := homeDie h
  let run := fun (d : Dev) => if p.pred && p.pat.isNone then d.speculate n p else (d, p)
  if k != p.d then
    let (d, p) := run d
    d.sendDesc n p
  else match if d.earlierIn p winStages then none else d.pendOf k p with
    | some e => let (d, oc) := d.joinHome k n p e; d.carryOut n p k oc
    | none =>
      let (d, p) := run d
      d.setPkt n { p with stage := .window }

/-- R196, R206: cycles in which the window of a region was full: their number is a free value. -/
def Dev.windowFull (d : Dev) (g : Nat) : Dev :=
  let (c, d) := d.fresh (2 ^ 16)
  d.bump R.FLW_MIR_WINFULL [g / 2, g % 2] "COUNT" c

/-- R235–R252: PARSE_COMPLETE of the oldest packet of its port that is not parsed. A full window grants no slot to a new arrival, and takes no stateful
packet of either pass (R196). -/
def Dev.parseComplete (d : Dev) (n : Nat) : Dev :=
  match d.pkt n with
  | none => d
  | some p =>
    if p.stage != .arrived || d.pk.pkts.any (fun x => x.2.stage == .arrived && x.2.g == p.g && x.2.port == p.port && decide (x.1 < n)) then d else
    let full := decide ((d.winOf p.g).length ≥ 2048)
    if full && p.pass == 0 then d.windowFull p.g else
    let ix := rw p.g
    let fr := p.bytes.take (p.bytes.length - 4)
    let ps := d.parse fr (d.get R.PRS_PORT_CFG (ix ++ [cfgEntry p]) "START")
    let d' := d.bump R.PRS_PARSED ix "COUNT" 1
    if ps.malf != 0 then d'.malformed n p ps
    else
      let (d', p) := d'.classify p ps fr
      let kv := hasBit (byteAt p.md 2) 4
      if kv && (flowSlot (d.passDescs p.pass)).isNone then (d'.bump R.PRS_NOFLOW ix "COUNT" 1).dropPkt n p
      else if !kv || !d.flowStage p then (d'.setPkt n { p with stage := .waiting }).drainPort p.g p.port
      else if full then d.windowFull p.g
      else d'.stateful n p

/-- R262: the pattern result of a packet is ready: a stateless packet may leave, a predicted one runs its stages. -/
def Dev.patternReady (d : Dev) (n : Nat) : Dev :=
  match d.pkt n with
  | none => d
  | some p =>
    if p.pat.isNone then d else
    let p := p.patTake
    let (d, p) := if p.pred && p.spec.isNone && !p.replayed && [Stage.window, .crossing, .remote].contains p.stage then d.speculate n p else (d, p)
    ((d.setPkt n p).drainPort p.g p.port).pump

/-! ## The die link, record return and replays (R189–R202) -/

/-- R202: the oldest crossing of the link to die k arrives, when it is of the kind that a command names. -/
def Dev.linkReceive (d : Dev) (k : Nat) (desc : Bool) : Dev :=
  match d.pk.link.get k, desc with
  | .desc _ :: _, true => (d.linkTake k).pump
  | .verd _ :: _, false => (d.linkTake k).pump
  | _, _ => d

/-- R189, R204: the record read of a packet returns to its home region, or for a packet whose replay is due (R193), and what it found is kept. Its pattern
result comes first (R262), and packets of one flow and port are decided in arrival order. A packet whose probe hits an entry by now reads no record. -/
def Dev.recordReturn (d : Dev) (n : Nat) : Dev :=
  match d.pkt n with
  | none => d
  | some p =>
    if !p.ret && (p.stage == .window || p.stage == .remote || (p.stage == .replay && p.img.isNone)) then
      let (d, r) := if (d.pendOf (homeDie (p.h.getD 0)) p).isSome then (d, none) else d.readFor p
      (d.setPkt n { p with rd := r, ret := true }).pump
    else d

/-- R193, R194: a replay's action-dependent stages end, in the order in which the replays of its region started. -/
def Dev.replayEnd (d : Dev) (n : Nat) : Dev :=
  let run := d.pk.run.getD ((d.pkt n).map (·.g) |>.getD 0) []
  match run.find? (fun m => match d.pkt m with | some q => !q.ret | none => false), d.pkt n with
  | some m, some p => if m = n then (d.setPkt n { p with ret := true }).pump else d
  | _, _ => d

/-! ## Recirculation (R203, R259) -/

/-- R203, R259: the oldest packet of a region's recirculation queue arrives at port 65 + g for its second pass. -/
def Dev.recirculate (d : Dev) (g : Nat) : Dev :=
  match d.pk.recirc.getD g [] with
  | [] => d
  | n :: rest =>
    let d := { d with pk := { d.pk with recirc := setAt d.pk.recirc g rest } }
    match d.pkt n with
    | none => d
    | some p =>
      let d := { d with pk := { d.pk with pkts := SMap.del d.pk.pkts n } }
      d.admission (fun m => { Pkt.arrived p.d p.g (65 + g) m p.bytes p.stamp p.agent p.part p.cls p.head p.bad p.stampId with pass := 1, md := p.md, insp := p.insp || ctrl p.md 0 })

/-! ## The hint cache (R181) -/

/-- R181: a write of INV = 1 starts the invalidation of a die's hint cache. -/
def Dev.hintInv (d : Dev) (k : Nat) : Dev := d.put R.FLW_MIR_CTL [k] "INV_BUSY" 1

/-- R181: the invalidation has cleared every entry. -/
def Dev.hintInvDone (d : Dev) (k : Nat) : Dev :=
  if d.bit R.FLW_MIR_CTL [k] "INV_BUSY" then
    { d with flw := { d.flw with hint := d.flw.hint.filter (fun x => x.1 / 2 ^ 21 != k) } }.put R.FLW_MIR_CTL [k] "INV_BUSY" 0
  else d

end Sys2Proof.Machine
end

