-- ==== Sys2Proof/Machine/Quoin.lean ====
section
/-! DEFINITION. Quoins and the atomic update unit as engines use them (chapter 6): acquiring, waiting, releasing, stale quoins, torn records and
their repair. -/

namespace Sys2Proof.Machine

/-! ## Operations of the atomic update unit (R208–R211) -/

/-- R208–R210, R520: one operation applied. An operation on a record that fails every check is not applied; the status it returns is free. -/
def Dev.auuApply (d : Dev) (ra : Nat) (o : AuuKind) : Dev :=
  let s := d.slot ra
  let live := fun (d : Dev) (e tok : Nat) (need : Bool) (f : Dev → Dev) =>
    if !need then d.complete e tok [6]
    else match d.recUse ra with
      | (d, false) => let (v, d) := d.fresh 16; d.complete e tok [v]
      | (d, true) => (f d).complete e tok [0]
  match o with
  | .wb w => d.auuWb ra w
  | .add e tok dp doct => live d e tok (s.st == .valid) (fun d => d.auuStore ra (recAdd s.body dp doct))
  | .stamp e tok => live d e tok (s.st == .valid) (fun d => d.auuStore ra { s.body with last := d.tick (raDie ra) })
  | .cset => d.auuCset ra
  | .cdel => d.auuCdel ra
  | .cwrite e tok m bs => live d e tok (s.st != .empty) (fun d => d.auuStore ra (recControl s.body m bs))

/-- R210: the queue of the update units replaced. -/
def Dev.setAuuq (d : Dev) (l : List AuuOp) : Dev := { d with flw := { d.flw with auuq := l } }

/-- R210, R339: the oldest operation of a record is applied, when it is of the kind asked for. The sweeper's deletion waits while its item finds the
export queue full. In REST the units have no operation left and take none (R519). -/
def Dev.auuTake (d : Dev) (ra : Nat) (is : AuuKind → Bool) : Dev :=
  if d.glb.mode == .rest then d else
  match auuPop ra d.flw.auuq with
  | some (o, rest) =>
    if !is o.kind then d
    else if o.kind == .cdel && d.cdelStalls ra then d.expStall (raDie ra)
    else (d.setAuuq rest).auuApply ra o.kind
  | none => d

/-- R161, R165: the oldest write-back of a record is applied, ahead of the sweeper's compares. -/
def Dev.auuTakeWb (d : Dev) (ra : Nat) : Dev :=
  if d.glb.mode == .rest then d else
  match auuPopWb ra d.flw.auuq with
  | some (o, rest) => (d.setAuuq rest).auuApply ra o.kind
  | none => d

/-- R210, R221, R339: the operations of a record that wait are applied in order, for an operation that waits for them; the sweeper's deletion stays behind
while the export queue cannot take its item. -/
def Dev.auuDrain (ra : Nat) : Nat → Dev → Dev
  | 0, d => d
  | n + 1, d =>
    match auuPopIf ra (fun o => !(o == .cdel && d.cdelStalls ra)) d.flw.auuq with
    | some (o, rest) => Dev.auuDrain ra n ((d.setAuuq rest).auuApply ra o.kind)
    | none => d

/-- R208: the engine that issued an operation. -/
def AuuKind.by : AuuKind → Option Nat
  | .add e _ _ _ => some e
  | .stamp e _ => some e
  | .cwrite e _ _ _ => some e
  | .wb _ => none
  | .cset => none
  | .cdel => none

/-- R210, R221, R345: the operations that an engine issued to a record are done. -/
def Dev.auuSettle (d : Dev) (e ra : Nat) : Dev :=
  if d.flw.auuq.any (fun o => o.raddr == ra && o.kind.by == some e) then Dev.auuDrain ra d.flw.auuq.length d else d

/-! ## Acquiring (R215–R220) -/

/-- R216, R217: a request that does not wait receives BUSY unless it has been granted. -/
def Dev.notWaiting (d : Dev) (k : Nat) (w : QWait) (try_ : Bool) : Dev :=
  if (try_ || d.get R.FLW_QN_CFG [k] "WAIT_CYC" == 0) && d.flw.waits.contains w && !(d.owned w.e).contains w.raddr then
    (d.unwait w).qreturn w.e k w.tok 1
  else d

/-- R128, R216–R220: QACQ, or QTRY with `try_`. A request for a free quoin that others wait for competes with them. QTRY of a quoin that the engine has
itself finds it held. Where no copy of the slot's tag block passes, R217 names no status: it is a free value, and nothing is granted. -/
def Dev.qacq (d : Dev) (e ra tok : Nat) (wi try_ : Bool) : Dev :=
  let k := e / 48
  let w : QWait := ⟨e, ra, wi, tok⟩
  let d := d.pmc e 0x09 1
  if d.claims e ≥ 4 then d.qreturn e k tok 3
  else if !try_ && (d.owned e).any (fun r => decide (ra ≤ r)) then d.qreturn e k tok 2
  else if !raOk ra || raDie ra != k then d.qreturn e k tok 6
  else
    match d.tagUse ra with
    | (d, false) => let (v, d) := d.fresh 16; d.complete e tok [v]
    | (d, true) =>
    let (d, torn) := d.meet ra
    if torn || (d.slot ra).st == .torn then d.qreturn e k tok 5
    else if (d.slot ra).st == .empty then d.qreturn e k tok 6
    else
      let join := fun (d : Dev) => { d with flw := { d.flw with waits := d.flw.waits ++ [w] } }
      if try_ && (d.owned e).contains ra then d.qreturn e k tok 1
      else if (d.quoin ra).isSome then (join d).notWaiting k w try_
      else
        let (d, torn) := d.needWay ra
        if torn then d.qreturn e k tok 5
        else if (d.wayList ra).length ≥ 4 then d.qreturn e k tok 4
        else if d.flw.waits.any (fun x => x.raddr == ra) then ((join d).grantWaiter ra).notWaiting k w try_
        else d.grant e ra tok wi

/-- R219, R220, R230: QUOIN_GRANT: a granted quoin whose packets have left returns OK; else a free or stale quoin goes to one waiter; an engine whose request
tears a record for want of a way receives TORN. -/
def Dev.quoinGrant (d : Dev) (ra : Nat) : Dev :=
  match d.meet ra with
  | (d, true) => d
  | (d, false) =>
    match d.quoin ra with
    | some q =>
      if q.settling && !d.inFlight ra then
        let d := d.setQuoin ra { q with settling := false }
        match d.flw.waits.find? (fun w => w.raddr == ra && w.e == q.owner) with
        | some w => (d.unwait w).qreturn w.e (raDie ra) w.tok 0
        | none => d
      else d
    | none =>
      if !d.flw.waits.any (fun w => w.raddr == ra) then d else
      let (d, torn) := d.needWay ra
      if (d.wayList ra).length ≥ 4 then d else
      match bestWait d.flw.rot (d.flw.waits.filter (fun w => w.raddr == ra)) with
      | some w => if torn && w.e != 96 then (d.unwait w).qreturn w.e (raDie ra) w.tok 5 else d.grantWaiter ra
      | none => d

/-- R219: a waiting engine is not served in time. -/
def Dev.quoinTimeout (d : Dev) (e : Nat) : Dev :=
  match d.flw.waits.find? (fun w => w.e == e && (match d.quoin w.raddr with | some q => q.owner != e | none => true)) with
  | none => d
  | some w => if e < 96 then (d.unwait w).qreturn e (e / 48) w.tok 1 else d

/-- R230: the sweeper visits a quoin. -/
def Dev.quoinSweep (d : Dev) (ra : Nat) : Dev := (d.meet ra).1

/-! ## Reading, writing and releasing (R216, R221) -/

/-- R221, R616: an engine's quoin released: its operations on the record done, the entry freed, the packets held behind write intent released. An armed FLW_TORN
injection finds it stale. -/
def Dev.freeHeld (d : Dev) (e ra : Nat) : Dev :=
  match d.quoin ra with
  | none => d
  | some q =>
    let k := raDie ra
    let d := d.auuSettle e ra
    if q.wi && d.injArmed k 0x11 0 && d.injAddr k == e then (d.injPlanted k).reclaim ra true
    else
      let d := d.freeQuoin ra
      if q.wi then d.releaseHold ra else d

/-- R216, R221: QREL: whether it succeeds, its status. -/
def Dev.qrel (d : Dev) (e ra tok : Nat) : Dev :=
  if (d.heldQuoins e).contains ra then (d.freeHeld e ra).qreturn e (e / 48) tok 0 else d.qreturn e (e / 48) tok 8

/-- R125, R210, R216: QREAD, behind the engine's own operations on the record: the status and the record as eight registers. A record that fails in
every copy is reported, and its data are as read; R216 names no status for it, and it is that of the slot's state: DESIGN CHOICE, log 149. -/
def Dev.qread (d : Dev) (e ra tok : Nat) : Dev :=
  let k := e / 48
  if !raOk ra || raDie ra != k then d.complete e tok (6 :: List.replicate 8 0)
  else
    let d := d.auuSettle e ra
    let s := d.slot ra
    let st := if s.st = .torn then 5 else if s.st = .empty then 6 else 0
    let d := if s.st = .empty then (d.tagUse ra).1 else (d.recUse ra).1
    let (bs, d) := d.slotRaw ra
    d.complete e tok (st :: (List.range 8).map (fun i => leAt bs (8 * i) 8))

/-- R349: the QWRITE mask as the byte mask of bytes 40 to 61. -/
def qwMask (m : Nat) : Nat :=
  [(0, 0), (1, 1), (2, 2), (3, 18), (4, 19), (5, 20), (6, 21)].foldl (fun a x => if hasBit m x.1 then a + 2 ^ x.2 else a) 0

/-- R216, R217: QWRITE of the control bytes of a record image. -/
def Dev.qwrite (d : Dev) (e ra tok m : Nat) (img : List Byte) : Dev :=
  if !(d.heldQuoins e).contains ra then d.qreturn e (e / 48) tok 8
  else match d.quoin ra with
    | some q => if q.wi then d.auuIssue ra (.cwrite e tok (qwMask m) (img.drop 40)) else d.qreturn e (e / 48) tok 9
    | none => d

/-! ## Repair (R232, R234) -/

/-- R168, R232: a repair command ends with a CODE. -/
def Dev.rcmdDone (d : Dev) (k code : Nat) : Dev := d.put R.FLW_QN_RSTAT [k] "CODE" code

/-- The slot that FLW_QN_RLOC names. -/
def Dev.rloc (d : Dev) (k : Nat) : Nat := d.get R.FLW_QN_RLOC [k] "RADDR"

/-- A slot copied to FLW_HREC. -/
def Dev.hrecPut (d : Dev) (k ra : Nat) : Dev := let (bs, d) := d.slotRaw ra; d.putBytes R.FLW_HREC [k] bs 16

/-- The 64 bytes of FLW_HREC. -/
def Dev.hrec (d : Dev) (k : Nat) : List Byte := (List.range 16).flatMap (fun w => leBytes 4 (d.getW R.FLW_HREC [k, w]))

/-- R124, R125, R232: READ copies the slot, whatever its state; CHECK is tested and a failure reported, and CODE follows the state alone. -/
def Dev.tornReadCmd (d : Dev) (k : Nat) : Dev :=
  let ra := d.rloc k
  let s := d.slot ra
  let d := if s.st = .empty then (d.tagUse ra).1 else (d.recUse ra).1
  (d.hrecPut k ra).rcmdDone k (if s.st = .torn && raDie ra == k then 0 else 1)

/-- R232, R234: RESTORE writes the control fields and makes a TORN slot VALID, still diverted. One that fails in every copy ends with CHECK and changes
nothing: DEDUCED, log 56. -/
def Dev.tornRestoreCmd (d : Dev) (k : Nat) : Dev :=
  let ra := d.rloc k
  let s := d.slot ra
  if s.st != .torn || raDie ra != k then d.rcmdDone k 1
  else match d.recUse ra with
  | (d, false) => d.rcmdDone k 2
  | (d, true) =>
    let h := Rec.ofBytes (d.hrec k)
    let r := { s.body with action := h.action, tcpst := h.tcpst, aux := h.aux,
                           flags := withBit (withBit (withBit s.body.flags fDiverted true) fValid true) fPending false }
    (((d.updSlot ra (fun s => { s with st := .valid })).auuStore ra r).tagWritten ra).rcmdDone k 0

/-- R128, R232: EMPTY deletes a TORN slot with reason HOST; where no copy of its tag block passes it ends with CHECK: DEDUCED, log 56. -/
def Dev.tornEmptyCmd (d : Dev) (k : Nat) : Dev :=
  let ra := d.rloc k
  if raDie ra != k then d.rcmdDone k 1 else
  match d.tagUse ra with
  | (d, false) => d.rcmdDone k 2
  | (d, true) => if (d.slot ra).st != .torn then d.rcmdDone k 1 else (d.deleteRec ra rHost).rcmdDone k 0

/-- R234: a read of FLW_QN_TORN_LOG pops the oldest entry. -/
def Dev.tornPop (d : Dev) (p : Path) (k : Nat) : Dev :=
  let ovf := 2 ^ 30 * b2n (d.flw.tornOvf.get k)
  let d' := { d with flw := { d.flw with tornOvf := d.flw.tornOvf.set k false } }
  match d.flw.tornLog.get k with
  | [] => d'.ret p ovf
  | ra :: rest => { d' with flw := { d'.flw with tornLog := d'.flw.tornLog.set k rest } }.ret p (2 ^ 31 + ovf + ra)

end Sys2Proof.Machine
end

