-- ==== Sys2Proof/Machine/FlowHost.lean ====
section
/-! DEFINITION. The flow table's own visits and commands: the aging sweep (R159–R164), the export walk (R338, R339), the host commands of R166–R168 and their
engine forms, and the divert commands of R614. -/

namespace Sys2Proof.Machine

/-! ## Sweep and export walk -/

/-- R169: ACTIVE and PASSES as a visit of a slot leaves them: the last slot of the die ends a pass. A pass that SWEEP_EN = 0 stops in its middle stays
shown as active: DESIGN CHOICE, log 118. -/
def Dev.sweepShow (d : Dev) (k ra : Nat) : Dev :=
  if ra = raddrOf (3 * k + 2) (2 ^ 23 - 1) 6 then (d.put R.FLW_SWEEP_STATUS [k] "ACTIVE" 0).bump R.FLW_SWEEP_STATUS [k] "PASSES" 1
  else d.put R.FLW_SWEEP_STATUS [k] "ACTIVE" 1

/-- R74, R80: sweeps and the export walk run in RUN and DRAIN. -/
def Dev.walks (d : Dev) : Bool := d.glb.mode == .run || d.glb.mode == .drain

/-- R520: a double-bit error has met the sweeper's or the walker's read of a slot: this visit passes over it. -/
def Dev.passes (d : Dev) (req ra : Nat) : Bool := d.flw.pass.contains (req, ra)

/-- R520: a slot has been passed over. -/
def Dev.passed (d : Dev) (req ra : Nat) : Dev := { d with flw := { d.flw with pass := d.flw.pass.filter (· != (req, ra)) } }

/-- R125, R159, R163, R164, R520: the sweeper visits a slot: the idle ceiling and the clearing of hit marks at once, the compare-and-set or
compare-and-delete as an operation of the update unit. A slot that fails every check is reported and passed over. -/
def Dev.sweepVisit (d : Dev) (ra : Nat) : Dev :=
  let k := raDie ra
  if !d.bit R.FLW_CTL [k] "SWEEP_EN" || !d.walks then d else
  if d.passes 4 ra then (d.sweepShow k ra).passed 4 ra else
  let s := d.slot ra
  match (d.sweepShow k ra).tagUse ra, s.st == .valid with
  | (d, false), _ => d
  | (d, true), false => d
  | (d, true), true =>
  match d.bodyUse ra with
  | (d, false) => d
  | (d, true) =>
    let r := saturateIdle s.body (d.tick k)
    let d := if r = s.body then d else d.auuStore ra r
    if r.diverted || hasBit r.age aNoage then d
    else if r.hit then d.auuStore ra { r with age := withBit (withBit (withBit r.age aHitI false) aHitR false) aClr false }
    else if !hasBit r.age aClr then d.auuIssue ra .cset
    else if d.expFull k && d.exports k r then d.expStall k
    else d.auuIssue ra .cdel

/-- R335: PERIOD_S of the active TELEM section. -/
def Dev.expPeriod (d : Dev) : Nat := match d.body 0x0F with | none => 0 | some b => leAt b 2 2

/-- R335: the event timers of die k that the TELEM section claims, in the order of its claims. -/
def Dev.telemTimers (d : Dev) (k : Nat) : List Nat :=
  match d.glb.active.find? (·.typ == 0x0F) with
  | none => []
  | some s => (s.claims.filter (fun c => c.1 == 2 && c.2.1 == k)).flatMap (fun c => (List.range c.2.2.2).map (c.2.2.1 + ·))

/-- R335: the walker of a die changed. -/
def Dev.setWalk (d : Dev) (k : Nat) (f : Walk → Walk) : Dev := { d with flw := { d.flw with walk := d.flw.walk.upd k f } }

/-- R335, R338: the walker of a die runs, its pacing timer has let it make a visit, and it has not visited the slot in this period. -/
def Dev.walkMay (d : Dev) (ra : Nat) : Bool :=
  let k := raDie ra
  d.expPeriod != 0 && decide (2 ≤ (d.telemTimers k).length) && d.walks && decide (0 < (d.flw.walk.get k).due) && !(d.flw.walk.get k).seen.contains ra

/-- R335, R338: a visit made. -/
def Dev.walkMade (d : Dev) (ra : Nat) : Dev := d.setWalk (raDie ra) (fun w => ⟨w.due - 1, w.seen ++ [ra]⟩)

/-- R74, R125, R335, R338, R339, R520: the periodic walker visits a slot; it runs on a die whose TELEM section claims two of its event timers, and as those let it. -/
def Dev.exportVisit (d : Dev) (ra : Nat) : Dev :=
  let k := raDie ra
  let s := d.slot ra
  if !d.walkMay ra then d else
  if d.passes 5 ra then (d.passed 5 ra).walkMade ra else
  match d.tagUse ra, s.st == .valid with
  | (d, false), _ => d.walkMade ra
  | (d, true), false => d.walkMade ra
  | (d, true), true =>
    match d.bodyUse ra with
    | (d, false) => d.walkMade ra
    | (d, true) => if !d.exports k s.body then d.walkMade ra else if d.expFull k then d.expStall k else (d.expItem k 2 s.body).walkMade ra

/-! ## The commands of R166 -/

/-- What a flow command finds: its CODE (R167), the swap bit of the key as written, the slot, whether it lies in bucket B, and whether a slot was found. -/
structure FlowRes where
  code : Nat
  swap : Bool
  ra : Nat
  alt : Bool
  found : Bool
  deriving DecidableEq, Repr

/-- R166: the key inputs that 40 bytes of record layout hold. -/
def hostKeyIn (key : List Byte) : KeyIn :=
  ⟨leAt key 1 2, byteAt key 3, beAt key 8 16, beAt key 24 16, beAt key 4 2, beAt key 6 2⟩

/-- R166, R167: a key located on die k: FORM, DIE, BUSY, CHECK or NOTFOUND, or OK with the slot. A FORM byte of 16 or more names no key form: it ends with
FORM, and SWAP is that of form FORM mod 16: DESIGN CHOICE, log 147. -/
def Dev.flowFind (d : Dev) (k : Nat) (key : List Byte) : Dev × FlowRes × List Byte × Nat :=
  let f := byteAt key 0
  let (c, swap) := canonKey d k (f % 16) (hostKeyIn key)
  let h := d.hashKey k c
  let alt := fun ra => candB h == (raStack ra, raBucket ra)
  if f ≥ 16 || !d.bit R.FLW_KFORM [k, f] "EN" then (d, ⟨7, swap, 0, false, false⟩, c, h)
  else if homeDie h != k then (d, ⟨8, swap, 0, false, false⟩, c, h)
  else match (d.flw.pend.get k).find? (fun e => e.key == c) with
  | some e => (d, ⟨5, swap, e.raddr.getD 0, alt (e.raddr.getD 0), e.raddr.isSome⟩, c, h)
  | none =>
    let r := d.lookup c h none
    let d := d.lookupFix c h none
    match r with
    | .miss => (d, ⟨1, swap, 0, false, false⟩, c, h)
    | .bad ra typ => (d, ⟨6, swap, ra, alt ra, typ == 1⟩, c, h)
    | .hit ra =>
      let s := d.slot ra
      (d, ⟨if s.st != .valid || s.body.diverted then 5 else 0, swap, ra, alt ra, true⟩, c, h)

/-- R166: the record that an INSERT writes: bytes 40 to 61 of an image, the key canonical, FLAGS as the part sets them. -/
def Dev.insRec (d : Dev) (key : List Byte) (swap : Bool) (img : List Byte) : Rec :=
  { Rec.ofBytes (sliceB img 0 64) with key := key, flags := 1 + d.mirFlag + 16 * b2n (!swap) }

/-- R165: an insertion by host or engine under its pending-table entry, which stands until the record does; the packets that it holds are released. The
insertion is one command of the model, so that no packet joins in its course. R167 has no CODE for a pending table without a free entry: the record is then
inserted without one: DESIGN CHOICE, log 147. -/
def Dev.underEntry (d : Dev) (k : Nat) (key : List Byte) (h : Nat) (ins : Dev → Dev) : Dev :=
  if !d.pendRoom k then ins d else
  let d := ins (d.addPend k key h .host (2 * k + h % 2) none [])
  match (d.flw.pend.get k).find? (fun e => e.kind == .host && e.key == key) with
  | none => d
  | some e => (Dev.releaseList k (d.delPend k e.idx) e.pkts).pump

/-- R150, R165, R166, R167: INSERT of an image under a key. One that ends with LIMIT or FULL counts nowhere: R151 counts packets: DESIGN CHOICE, log 147. -/
def Dev.flowIns (d : Dev) (k : Nat) (key img : List Byte) : Dev × FlowRes :=
  let (d, r, c, h) := d.flowFind k key
  if r.code = 0 then (d, { r with code := if d.heldBy r.ra then 5 else 2 })
  else if r.code != 1 then (d, r)
  else if d.atLimit k then (d, { r with code := 4 })
  else match d.choose h with
    | none => (d, { r with code := 3 })
    | some (ra, alt) => (d.underEntry k c h (fun d => d.occupy ra h alt .valid (d.insRec c r.swap img)), ⟨0, r.swap, ra, alt, true⟩)

/-- R169: the place of a record shown in FLW_HSTAT and FLW_HLOC. -/
def Dev.flowPlace (d : Dev) (k stack slot alt bucket : Nat) : Dev :=
  (((d.put R.FLW_HSTAT [k] "STACK" stack).put R.FLW_HSTAT [k] "SLOT" slot).put R.FLW_HSTAT [k] "ALT" alt).put R.FLW_HLOC [k] "BUCKET" bucket

/-- R169: FLW_HSTAT and FLW_HLOC after a command. The spec gives the place of a record only where there is one; elsewhere it is a free value. -/
def Dev.flowDone (d : Dev) (k : Nat) (r : FlowRes) : Dev :=
  let d := (d.put R.FLW_HSTAT [k] "CODE" r.code).put R.FLW_HSTAT [k] "SWAP" (b2n r.swap)
  if r.found then d.flowPlace k (raStack r.ra) (raSlot r.ra) (b2n r.alt) (raBucket r.ra)
  else
    let (a, d) := d.fresh 6
    let (b, d) := d.fresh 7
    let (c, d) := d.fresh 2
    let (e, d) := d.fresh (2 ^ 23)
    d.flowPlace k a b c e

/-- The 40 bytes of FLW_HKEY. -/
def Dev.hkey (d : Dev) (k : Nat) : List Byte := (List.range 10).flatMap (fun w => leBytes 4 (d.getW R.FLW_HKEY [k, w]))

/-- R166: LOOKUP copies the record to FLW_HREC. -/
def Dev.hostLookup (d : Dev) (k : Nat) : Dev :=
  let (d, r, _, _) := d.flowFind k (d.hkey k)
  (if r.code = 0 then d.hrecPut k r.ra else d).flowDone k r

/-- R166, R158, R226: DELETE with reason HOST. -/
def Dev.hostDelete (d : Dev) (k : Nat) : Dev :=
  let (d, r, _, _) := d.flowFind k (d.hkey k)
  let r := if r.code = 0 && d.heldBy r.ra then { r with code := 5 } else r
  (if r.code = 0 then d.deleteRec r.ra rHost else d).flowDone k r

/-- R166: INSERT from FLW_HKEY and FLW_HREC. -/
def Dev.hostInsert (d : Dev) (k : Nat) : Dev :=
  let (d, r) := d.flowIns k (d.hkey k) (d.hrec k)
  d.flowDone k r

/-- R125, R128, R158, R349: RDEL: the code of R167. -/
def Dev.engDelete (d : Dev) (k ra : Nat) : Dev × Nat :=
  if !raOk ra then (d, 1)
  else if raDie ra != k then (d, 8)
  else
    let s := d.slot ra
    match d.tagUse ra with
    | (d, false) => (d, 6)
    | (d, true) =>
    if s.st = .empty then (d, 1)
    else if s.st != .valid || s.body.diverted then (d, 5)
    else match d.bodyUse ra with
      | (d, false) => (d, 6)
      | (d, true) => (d.deleteRec ra rEngine, 0)

/-! ## Divert commands (R614) -/

/-- R614, R621: a divert command ends with a CODE. -/
def Dev.divDone (d : Dev) (k code : Nat) : Dev := d.put R.FLW_DIV_STAT [k] "CODE" code

/-- R614: a divert command on the slot that FLW_DIV_LOC names, as one operation of its update unit, behind the older ones of the record (R165). It is
refused with NOTDIV, TORN or BUSY; a slot whose tag block fails in every copy shows neither its state nor DIVERTED. The flag says that the tag block passes. -/
def Dev.divCmd (d : Dev) (k : Nat) (f : Dev → Nat → Bool → Dev) : Dev :=
  let ra := d.get R.FLW_DIV_LOC [k] "RADDR"
  if raDie ra != k then d.divDone k 1 else
  let d := Dev.auuDrain ra d.flw.auuq.length d
  let (d, ok) := d.tagUse ra
  let s := d.slot ra
  if !(ok && s.st != .empty && s.body.diverted) && !d.remembered k ra 1 && !d.remembered k (ra / 8 * 8) 2 then d.divDone k 1
  else if ok && s.st == .torn then d.divDone k 3
  else if (ok && s.st == .pending) || d.heldBy ra then d.divDone k 4
  else f d ra ok

/-- R612: a record's divert ends. -/
def Dev.undivert (d : Dev) (ra : Nat) : Dev := { d with flw := { d.flw with divSrc := SMap.del d.flw.divSrc ra } }

/-- R613, R614: RELEASE clears DIVERTED in every copy. -/
def Dev.divRelease (d : Dev) (k : Nat) : Dev :=
  d.divCmd k (fun d ra ok =>
    match if ok then d.bodyUse ra else (d, false) with
    | (d, false) => d.divDone k 2
    | (d, true) =>
      let s := d.slot ra
      let d := if s.st = .empty then d else d.auuStore ra { s.body with flags := withBit s.body.flags fDiverted false }
      ((d.undivert ra).forget k ra 1).divDone k 0)

/-- R613, R614: PURGE deletes the slot with reason HOST, whatever DIVERTED and CHECK hold; the tag block is written again. -/
def Dev.divPurge (d : Dev) (k : Nat) : Dev :=
  d.divCmd k (fun d ra _ =>
    let d := (if (d.slot ra).st = .empty then d else d.deleteRec ra rHost).healTag ra
    (((d.undivert ra).forget k ra 1).forget k (ra / 8 * 8) 2).divDone k 0)

end Sys2Proof.Machine
end

