-- ==== Sys2Proof/Machine/Engines.lean ====
section
/-! DEFINITION. The Kosen engines (chapter 10): microwords, the control store, the ALU, the operands of a word, and the operations of the memory slot. -/

namespace Sys2Proof.Machine

/-! ## Microwords and the control store (R346, R347, R355) -/

/-- R346: the fields of a microword. -/
structure UW where
  aop : Nat
  dst : Nat
  srca : Nat
  srcb : Nat
  immEn : Bool
  width : Nat
  sh : Nat
  imm : Nat
  mop : Nat
  mdst : Nat
  maddr : Nat
  msrc : Nat
  size : Nat
  mask : Nat
  mimm : Nat
  bop : Nat
  breg : Nat
  cond : Nat
  bit : Nat
  target : Nat
  cimm : Nat
  rsv : Nat
  deriving DecidableEq, Repr

/-- R346: the fields of a 192-bit word. -/
def UW.of (w : Nat) : UW :=
  { aop := bitsOf w 191 184, dst := bitsOf w 183 179, srca := bitsOf w 178 174, srcb := bitsOf w 173 169, immEn := hasBit w 168,
    width := bitsOf w 167 166, sh := bitsOf w 165 160, imm := bitsOf w 159 128,
    mop := bitsOf w 127 122, mdst := bitsOf w 121 117, maddr := bitsOf w 116 112, msrc := bitsOf w 111 107, size := bitsOf w 106 104,
    mask := bitsOf w 103 96, mimm := bitsOf w 95 64,
    bop := bitsOf w 63 58, breg := bitsOf w 57 53, cond := bitsOf w 52 50, bit := bitsOf w 49 44, target := bitsOf w 43 30,
    cimm := bitsOf w 29 14, rsv := bitsOf w 13 0 }

/-- The number of 1 bits among the low n. -/
def popc (n v : Nat) : Nat := ((List.range n).filter (fun i => hasBit v i)).length

/-- R347: the six parity bits of a word. -/
def parityOf (w : Nat) : Nat := ((List.range 6).map (fun n => popc 32 (bitsOf w (32 * n + 31) (32 * n)) % 2 * 2 ^ n)).sum

/-- R355: a word whose branch slot is FAULT. -/
def faultWord : Nat := 0x0F * 2 ^ 58

/-- R353, R354: an address of the customer area. -/
def inCust (a : Nat) : Bool := decide (a ≥ 0x3000)

/-- R355: what a word that nothing has loaded holds: FAULT in the customer area. The vendor area's words come with boot images whose contents the
spec does not give; the model holds them as words of zeros. -/
def blankWord (a : Nat) : Nat := if inCust a then faultWord else 0

/-- The word at an address of the control store with its parity. -/
def Dev.csWord (d : Dev) (a : Nat) : Nat × Nat := SMap.get d.eng.cs a (blankWord a, parityOf (blankWord a))

/-- R347: whether a word of cluster k passes parity. -/
def Dev.csGood (d : Dev) (k a : Nat) : Bool := let w := d.csWord a; parityOf w.1 == w.2 && !d.eng.csBad.contains (k, a)

/-- R25: a word written to all twelve clusters, with its parity. -/
def Dev.csPut (d : Dev) (a w : Nat) : Dev :=
  { d with eng := { d.eng with cs := SMap.put d.eng.cs a (w, parityOf w), csBad := d.eng.csBad.filter (fun x => x.2 != a) } }

/-- R355: the customer area is empty. -/
def Dev.custEmpty (d : Dev) : Bool := !d.eng.cs.any (fun x => inCust x.1)

/-! ## The ALU (R348) -/

/-- R346: the number of bits of a WIDTH. -/
def uwBits (u : UW) : Nat := 64 / 2 ^ u.width

/-- R346: a 32-bit field sign-extended to 64 bits. -/
def sext32 (v : Nat) : Nat := unsgn 64 (sgn 32 v)

/-- Leading zeros of an n-bit value. -/
def clz (n v : Nat) : Nat := ((List.range n).takeWhile (fun i => !hasBit v (n - 1 - i))).length

/-- R348: the result of the ALU slot on registers as they stood at issue. -/
def aluResult (u : UW) (rd : Nat → Nat) : Nat :=
  let n := uwBits u
  let m := 2 ^ n
  let a := rd u.srca % m
  let b := (if u.immEn then sext32 u.imm else rd u.srcb) % m
  let s := if u.sh = 0 then b % 64 else u.sh
  let l := u.imm % 64 + 1
  let r := match u.aop with
    | 0x01 => a + b
    | 0x02 => a + m - b
    | 0x03 => Nat.land a b
    | 0x04 => Nat.lor a b
    | 0x05 => Nat.xor a b
    | 0x06 => a * 2 ^ s
    | 0x07 => a / 2 ^ s
    | 0x08 => unsgn 64 (sgn n a / (2 ^ s : Nat))
    | 0x09 => a / 2 ^ (s % n) + a * 2 ^ (n - s % n)
    | 0x0A => b
    | 0x0B => rd u.srca % 2 ^ 32 + u.imm * 2 ^ 32
    | 0x0C => a / 2 ^ u.sh % 2 ^ l
    | 0x0D => setBits (rd u.dst % m) (u.sh + l - 1) u.sh a
    | 0x0E => b2n (a == b)
    | 0x0F => b2n (decide (a < b))
    | 0x10 => b2n (decide (sgn n a < sgn n b))
    | 0x11 => min a b
    | 0x12 => max a b
    | 0x13 => a * b
    | 0x14 => a * b / 2 ^ 64
    | 0x15 => popc n a
    | 0x16 => clz n a
    | 0x17 => beNat (leBytes (n / 8) a)
    | 0x18 => crc64 (rd u.srca) (beBytes (n / 8) b)
    | 0x19 => crc32cT (rd u.srca % 2 ^ 32) (beBytes (n / 8) b)
    | _ => 0
  if u.aop = 0x18 || u.aop = 0x19 then r else r % m

/-! ## The operands of a word (R342, R343, R346) -/

/-- R346: bytes of a SIZE. -/
def sizeBytes (s : Nat) : Nat := 2 ^ s

/-- R346: registers of a SIZE. -/
def sizeRegs (s : Nat) : Nat := max 1 (sizeBytes s / 8)

/-- Memory opcodes whose transfer takes its length from SIZE. -/
def UW.sized (u : UW) : Bool := [1, 2, 3, 4, 7, 8, 0x14].contains u.mop

/-- The registers that the memory slot writes: first and count. -/
def UW.mw (u : UW) : Nat × Nat :=
  match u.mop with
  | 0x01 | 0x03 | 0x07 | 0x14 => (u.mdst, sizeRegs u.size)
  | 0x0B => (u.mdst, 9)
  | 0x10 | 0x11 => (u.mdst, 2)
  | 0x13 => (u.mdst, 5)
  | 0x05 | 0x06 | 0x09 | 0x0A | 0x0C | 0x0D | 0x0E | 0x0F | 0x12 | 0x15 | 0x16 => (u.mdst, 1)
  | _ => (0, 0)

/-- The data registers that the memory slot reads: first and count. -/
def UW.mr (u : UW) : Nat × Nat :=
  match u.mop with
  | 0x02 | 0x04 | 0x08 => (u.msrc, sizeRegs u.size)
  | 0x05 | 0x06 | 0x15 => (u.msrc, 1)
  | 0x0C => (u.msrc, 8)
  | 0x0E => (u.msrc, 2)
  | _ => (0, 0)

/-- The registers that the ALU slot reads. -/
def UW.ar (u : UW) : List Nat :=
  let b := if u.immEn then [] else [u.srcb]
  match u.aop with
  | 0x00 => []
  | 0x0A => b
  | 0x0B | 0x0C | 0x15 | 0x16 | 0x17 => [u.srca]
  | 0x0D => [u.srca, u.dst]
  | 0x06 | 0x07 | 0x08 | 0x09 => u.srca :: (if u.sh = 0 then b else [])
  | _ => u.srca :: b

/-- Branch opcodes that read BREG. -/
def UW.readsBreg (u : UW) : Bool := [2, 3, 4, 7, 8, 0x0B, 0x0C, 0x0D].contains u.bop

/-- R343: every register that a word reads or writes. -/
def UW.regs (u : UW) : List Nat :=
  let m := u.mw
  let s := u.mr
  u.ar ++ (if u.aop = 0 then [] else [u.dst]) ++ (List.range m.2).map (· + m.1) ++ (List.range s.2).map (· + s.1)
    ++ (if u.mop = 0 || u.mop = 0x16 then [] else [u.maddr]) ++ (if u.mop = 5 then [u.mdst] else [])
    ++ (if u.readsBreg then [u.breg] else [])

/-- R342, R366: the registers of an engine that are pending; under a handler the routine's w24 to w31 are its own. -/
def Eng.pending (g : Eng) : List Nat :=
  g.infl.flatMap (fun i => ((List.range i.n).map (· + i.dst)).filter (fun r =>
    r != 0 && (match g.handler with | some h => !(decide (i.tok < h.mark) && decide (r ≥ 24)) | none => true)))

/-- R343: the word waits on a pending register; a word that ends its thread's or item's turn waits for every result. -/
def Eng.stalled (g : Eng) (u : UW) : Bool :=
  (u.regs.any (fun r => g.pending.contains r)) || ([0x0B, 0x0C, 0x0D].contains u.bop && !g.infl.isEmpty)
    || (u.bop == 0x0E && (match g.handler with | some h => g.infl.any (fun i => decide (i.tok ≥ h.mark)) | none => false))

/-- R341: a working register. -/
def Eng.rd (g : Eng) (r : Nat) : Nat := if r = 0 then 0 else g.ctx.w.getD r 0

/-- R341: a write of a working register; w0 discards it. -/
def Eng.wr (g : Eng) (r v : Nat) : Eng := if r = 0 then g else { g with ctx := { g.ctx with w := setAt g.ctx.w r (v % 2 ^ 64) } }

/-- R349: the effective address. -/
def UW.ea (u : UW) (g : Eng) : Nat := (g.rd u.maddr + sext32 u.mimm) % 2 ^ 64

/-- R349: the RADDR of a record operation. -/
def UW.ra (u : UW) (g : Eng) : Nat := g.rd u.maddr % 2 ^ 29

/-- The bytes that a store takes from its registers. -/
def UW.storeBytes (u : UW) (g : Eng) : List Byte :=
  ((List.range (sizeRegs u.size)).flatMap (fun i => leBytes 8 (g.rd (u.msrc + i)))).take (sizeBytes u.size)

/-- Bytes as registers, lowest first. -/
def toRegs (n : Nat) (bs : List Byte) : List Nat := (List.range n).map (fun i => leAt bs (8 * i) 8)

/-! ## Machine-check causes of a word (R350, R353, R354, R359, R369, R375) -/

/-- R368: the word runs inside an atomic window, the ATOM word included. -/
def inWin (g : Eng) (u : UW) : Bool := g.win.isSome || u.bop == 9

/-- R368: the memory operation goes to the journal. -/
def UW.journaled (u : UW) : Bool := [2, 4, 8, 0x0C, 0x0E, 0x0F].contains u.mop

/-- R369: bytes of scratch stores in a journal. -/
def scrBytes (j : List Jent) : Nat := (j.map (fun e => match e with | .sts _ bs => bs.length | _ => 0)).sum

/-- R350, R351: whether a conditional branch is taken. -/
def UW.taken (u : UW) (g : Eng) : Bool :=
  let v := g.rd u.breg
  match u.bop with
  | 0x01 | 0x05 => true
  | 0x02 => match u.cond with
    | 0 => v == u.cimm
    | 1 => v != u.cimm
    | 2 => decide (v < u.cimm)
    | 3 => decide (v ≥ u.cimm)
    | 4 => decide (sgn 64 v < (u.cimm : Int))
    | 5 => decide (sgn 64 v ≥ (u.cimm : Int))
    | 6 => Nat.land v u.cimm != 0
    | _ => Nat.land v u.cimm == 0
  | 0x03 => hasBit v u.bit
  | 0x04 => !hasBit v u.bit
  | _ => false

/-- R350: an untaken word that goes on at the next address. -/
def UW.fallsOn (u : UW) : Bool := !([0x06, 0x08, 0x0D, 0x0E, 0x0F].contains u.bop)

/-- R354: an address that the word's area may not reach, or that its memory has not. -/
def Dev.outOfBounds (d : Dev) (e : Nat) (g : Eng) (u : UW) (cust : Bool) : Bool :=
  let a := u.ea g
  let n := sizeBytes u.size
  let scr := fun len => decide (a + len > 0x40000) || (cust && decide (a < 0x20000))
  match u.mop with
  | 0x01 | 0x02 => decide (a + n > 0x10000) || a % n != 0
  | 0x03 | 0x04 => scr n || a % n != 0
  | 0x05 | 0x06 => scr 8 || a % 8 != 0
  | 0x07 | 0x08 => (d.eaMap (e / 48) a).isNone || (cust && decide (a < 0x100000000)) || a % n != 0
  | 0x10 => decide (a + 40 > 0x10000)
  | 0x11 => decide (a + 64 > 0x10000)
  | 0x14 => a % n != 0
  | 0x15 => scr (g.rd u.msrc % 2 ^ 14)
  | _ => false

/-- R359: a DCALL to an entry that is not valid, fails parity, or is not for customer code. -/
def Dev.badDcall (d : Dev) (k op : Nat) (cust : Bool) : Bool :=
  let e := d.dispEntry k op
  !hasBit e 31 || d.eng.dispBad.contains (k, op) || (cust && decide (op < 0x80) && !hasBit e 30)

/-- R346, R375: a reserved opcode, a reserved field that is not 0, a register range past w31. -/
def UW.illegal (u : UW) (thread : Bool) : Bool :=
  decide (u.aop > 0x19) || decide (u.mop > 0x16) || decide (u.bop > 0x0F) || u.rsv != 0 || (u.sized && u.size == 7)
    || (u.mop == 0x0C && hasBit u.mask 7) || decide (u.mw.1 + u.mw.2 > 32) || decide (u.mr.1 + u.mr.2 > 32) || (u.bop == 0x0D && thread)

/-- R353, R375: the causes that a word raises before any effect, lowest first. A customer word at the last address that does not branch would run on into
the vendor area: XFER. DEDUCED, log 119. -/
def Dev.causes (d : Dev) (e : Nat) (g : Eng) (u : UW) : List Nat :=
  let k := e / 8
  let upc := g.ctx.upc
  let cust := inCust upc
  let thread := d.bit R.KSN_ENG_STAT (engIx e) "ROLE_ACT"
  let win := inWin g u
  let j := match g.win with | some w => w.journal | none => []
  let jump := if u.bop = 7 then some (g.rd u.breg % 2 ^ 14) else if u.taken g then some u.target
    else if u.fallsOn && upc == 2 ^ 14 - 1 then some 0 else none
  [ (2, u.illegal thread),
    (3, cust && (match jump with | some t => !inCust t | none => false)),
    (4, d.outOfBounds e g u cust),
    (5, win && ([5, 6, 0x11, 0x12, 0x15].contains u.mop || [0x0B, 0x0C, 0x0D].contains u.bop) || (g.win.isSome && u.bop == 9)),
    (7, win && u.journaled && (decide (j.length ≥ 64) || (u.mop == 4 && decide (scrBytes j + sizeBytes u.size > 1024)))),
    (8, ((u.bop == 5 || u.bop == 8) && decide (g.ctx.stack.length ≥ 8)) || (u.bop == 6 && g.ctx.stack.isEmpty)),
    (9, u.bop == 0x0F),
    (0x0A, u.bop == 8 && d.badDcall k (g.rd u.breg % 256) cust) ].filterMap (fun c => if c.2 then some c.1 else none)

/-! ## Memories (R341, R345, R349, R368) -/

/-- One byte of an engine's local memory. -/
def Eng.lbyte (g : Eng) (a : Nat) : Byte := SMap.get g.lmem a 0#8

/-- Bytes of local memory. -/
def Eng.lread (g : Eng) (a n : Nat) : List Byte := (List.range n).map (fun i => g.lbyte (a + i))

/-- A byte table with bytes written from an address on. -/
def putAll (m : SMap Byte) (a : Nat) : List Byte → SMap Byte
  | [] => m
  | b :: bs => putAll (SMap.set m a b 0#8) (a + 1) bs

/-- Bytes of an engine's local memory written. -/
def Dev.lwrite (d : Dev) (e a : Nat) (bs : List Byte) : Dev := d.updEng e (fun g => { g with lmem := putAll g.lmem a bs })

/-- Bytes of a cluster's scratch. -/
def Dev.sread (d : Dev) (k a n : Nat) : List Byte := (List.range n).map (fun i => SMap.get d.eng.scr (k * 2 ^ 18 + a + i) 0#8)

/-- Bytes of a cluster's scratch written. -/
def Dev.swrite (d : Dev) (k a : Nat) (bs : List Byte) : Dev := { d with eng := { d.eng with scr := putAll d.eng.scr (k * 2 ^ 18 + a) bs } }

/-- R368: a window's own journaled bytes over what a load reads. -/
def overlay (scr : Bool) (a : Nat) (j : List Jent) (bs : List Byte) : List Byte :=
  j.foldl (fun bs e =>
    match e, scr with
    | .stl b new, false | .sts b new, true =>
      (bs.zip (List.range bs.length)).map (fun x => if b ≤ a + x.2 && decide (a + x.2 < b + new.length) then new.getD (a + x.2 - b) 0#8 else x.1)
    | _, _ => bs) bs

/-- R368: an operation joins the journal of an engine's window. -/
def Dev.journal (d : Dev) (e : Nat) (j : Jent) : Dev :=
  d.updEng e (fun g => { g with win := g.win.map (fun w => { w with journal := w.journal ++ [j] }) })

/-- R342: a memory operation of a word: the part and its token; the registers it will write are pending, with their values when known. -/
def Dev.memIssue (d : Dev) (e : Nat) (u : UW) (vals : Option (List Nat)) : Dev × Nat :=
  let t := d.eng.tok
  let d := { d with eng := { d.eng with tok := t + 1 } }
  (d.updEng e (fun g => { g with infl := g.infl ++ [⟨t, u.mw.1, u.mw.2, vals, if u.mop = 7 then some (u.ea g, sizeBytes u.size) else none⟩],
                                 win := g.win.map (fun w => { w with toks := w.toks ++ [t] }) }), t)

/-- R349: 32 bytes of a table entry; none for an entry that no table has. -/
def Dev.ldt (d : Dev) (k tbl i : Nat) : Option (List Byte) :=
  if tbl = 0 && decide (i < 2 ^ 18) then some (d.actEnt k i)
  else if tbl = 1 && decide (i < 2 ^ 16) then some (sliceB (leBytes 4 (d.getW R.CP_ENT_W0 [k, i]) ++ leBytes 4 (d.getW R.CP_ENT_W1 [k, i])) 0 32)
  else if tbl = 2 && decide (i < 4096) then some (sliceB (leBytes 4 (d.grp k i).1 ++ leBytes 4 (d.grp k i).2) 0 32)
  else if tbl = 3 && decide (i < 65536) then some (sliceB ((d.bkw k i).flatMap (leBytes 4)) 0 32)
  else if tbl = 4 && decide (i < 2 ^ 20) then some (sliceB (leBytes 4 (SMap.get d.act.pool (k * 2 ^ 20 + i) 0)) 0 32)
  else none

/-- R349: LDT. The status and data of an entry that no table has are free. -/
def Dev.ldtVals (d : Dev) (k : Nat) (v : Nat) : Dev × List Nat :=
  match d.ldt k (bitsOf v 63 56) (bitsOf v 23 0) with
  | some bs => (d, 0 :: toRegs 4 bs)
  | none => (List.range 5).foldl (fun x _ => let (v, d) := x.1.fresh (2 ^ 64); (d, x.2 ++ [v])) (d, [])

/-- R77: the work item that an engine holds existed when a FLUSH came. -/
def Eng.flushed (g : Eng) : Bool := match g.item with | some it => it.flush | none => false

/-- R349, R428, R436, R583: PKTSEND: the status. The part adds the FCS; what a receive descriptor says of such a frame's ingress is free. A frame that an
item sends after a FLUSH is discarded (R77). Outside RUN and DRAIN no packet moves (R60): PORT, DESIGN CHOICE, log entry 150. -/
def Dev.pktSend (d : Dev) (e : Nat) (fr : List Byte) (v : Nat) : Dev × Nat :=
  let k := e / 48
  let g := e / 24
  let port := bitsOf v 22 16
  let ag := 2 + e / 8 % 6
  let fr := fr ++ fcsBytes fr
  if port > 64 || d.flushed port || !d.running then (d, 3)
  else match d.allocFrame k ag 16 fr.length none with
    | (d, .error .nocell) => (d, 1)
    | (d, .error .quota) => (d, 2)
    | (d, .ok head) =>
      if (d.engOf e).flushed then ((d.releaseRef head ag).bump R.GLB_FLUSH_CNT [] "FRAMES" 1, 0) else
      let (pin, d) := d.fresh 128
      let (zone, d) := d.fresh 65536
      let (rx, d) := d.fresh (2 ^ 96)
      let n := d.pk.next
      let d := { d with pk := { d.pk with next := n + 1 } }
      let info : RxInfo := ⟨4, 0, pin, 0, zone, none, (rx : Int)⟩
      let ent : QEnt := ⟨n, head, cellsOf fr.length, ag, 16, none, fr, true, false, false, d.now k,
        if hasBit v 63 then some (bitsOf v 47 32) else none, none, info, false⟩
      match d.enq g (8 * port + bitsOf v 26 24) ent with
      | some d => (d.releaseRef head ag, 0)
      | none => ((d.releaseRef head ag).refused k ag .quota, 2)

/-- R393: PMCRD. -/
def Dev.pmcrd (d : Dev) (e m : Nat) (cust : Bool) : Nat :=
  if cust && !d.bit R.PMC_USER_EN (clIx (e / 8)) "EN" then 0
  else if hasBit m 3 then d.getW R.PMC_CYCLE (clIx (e / 8)) else d.get R.PMC_CTR (clIx (e / 8) ++ [m % 8]) "COUNT"

/-- R166, R349: RLOOK and RINS results: the code of R167 and the RADDR. -/
def flowVals (r : FlowRes) : List Nat := [r.code, r.ra]

/-- R209: ADD or STAMP issued to the update unit of its record; a RADDR that names no slot of the engine's die has no VALID record: NOREC. -/
def Dev.auuSend (d : Dev) (e t ra : Nat) (k : AuuKind) : Dev :=
  if raDie ra = e / 48 && raOk ra then d.auuIssue ra k else d.complete e t [6]

/-- R349, R368: the effect of the memory slot of a word; `g` is the engine at issue. -/
def Dev.memOp (d : Dev) (e : Nat) (g : Eng) (u : UW) : Dev :=
  let k := e / 48
  let cl := e / 8
  let a := u.ea g
  let ra := u.ra g
  let n := sizeBytes u.size
  let win := inWin g u
  let j := match g.win with | some w => w.journal | none => []
  let done := fun (d : Dev) vals => (d.memIssue e u (some vals)).1
  let st := u.storeBytes g
  match u.mop with
  | 0x01 => done d (toRegs (sizeRegs u.size) (overlay false a j (g.lread a n)))
  | 0x02 => if win then d.journal e (.stl a st) else d.lwrite e a st
  | 0x03 => done (d.pmc e 6 1) (toRegs (sizeRegs u.size) (overlay true a j (d.sread cl a n)))
  | 0x04 => if win then (d.pmc e 6 1).journal e (.sts a st) else (d.pmc e 6 1).swrite cl a st
  | 0x05 =>
    let old := leNat (d.sread cl a 8)
    let d := d.pmc e 6 1
    done (if old = g.rd u.mdst then d.swrite cl a (leBytes 8 (g.rd u.msrc)) else d) [old]
  | 0x06 =>
    let old := leNat (d.sread cl a 8)
    done ((d.pmc e 6 1).swrite cl a (leBytes 8 (old + g.rd u.msrc))) [old]
  | 0x07 => done (d.pmc e 7 1) (toRegs (sizeRegs u.size) (d.eaRead k a n))
  | 0x08 => if win then (d.pmc e 7 1).journal e (.sth a st) else (d.pmc e 7 1).eaWrite k a st
  | 0x09 | 0x0A =>
    if win then done d [7] else
    let (d, t) := d.memIssue e u none
    d.qacq e ra t (hasBit u.mask 0) (u.mop == 0x0A)
  | 0x0B => let (d, t) := d.memIssue e u none; d.qread e ra t
  | 0x0C =>
    let img := (List.range 8).flatMap (fun i => leBytes 8 (g.rd (u.msrc + i)))
    let (d, t) := d.memIssue e u none
    if win then d.journal e (.qwrite ra u.mask img t) else d.qwrite e ra t u.mask img
  | 0x0D => if win then done d [7] else (let (d, t) := d.memIssue e u none; d.qrel e ra t)
  | 0x0E =>
    let (d, t) := d.memIssue e u none
    let dp := g.rd u.msrc % 2 ^ 40
    let doct := g.rd (u.msrc + 1) % 2 ^ 48
    if win then d.journal e (.radd ra dp doct t) else d.auuSend e t ra (.add e t dp doct)
  | 0x0F =>
    let (d, t) := d.memIssue e u none
    if win then d.journal e (.rstamp ra t) else d.auuSend e t ra (.stamp e t)
  | 0x10 => let (d, r, _, _) := d.flowFind k (overlay false a j (g.lread a 40)); done d (flowVals r)
  | 0x11 => let img := g.lread a 64; let (d, r) := d.flowIns k (img.take 40) img; done d (flowVals r)
  | 0x12 => let (d, c) := (d.auuSettle e ra).engDelete k ra; done d [c]
  | 0x13 => let (d, vs) := d.ldtVals k (g.rd u.maddr); done d vs
  | 0x14 =>
    let fr := match g.item with | some it => (match d.pkt it.pkt with | some p => p.bytes | none => []) | none => []
    done d (toRegs (sizeRegs u.size) (sliceB fr a n))
  | 0x15 => let v := g.rd u.msrc; let (d, c) := d.pktSend e (d.sread cl a (v % 2 ^ 14)) v; done d [c]
  | 0x16 => done d [d.pmcrd e u.mimm (inCust g.ctx.upc)]
  | _ => d

/-! ## Results (R342, R344, R366, R372) -/

/-- A register of the routine or handler that issued an operation: under a handler the routine's w24 to w31 are saved. -/
def Eng.deliver (g : Eng) (tok r v : Nat) : Eng :=
  if r = 0 then g
  else
    let cp := fun (g : Eng) => { g with win := g.win.map (fun w => if w.toks.contains tok then w else { w with w := setAt w.w r v }) }
    match g.handler with
    | some h => if tok < h.mark && decide (r ≥ 24) then { g with handler := some { h with hi := setAt h.hi (r - 24) v } } else cp (g.wr r v)
    | none => cp (g.wr r v)

/-- R342: the values of an operation written to its registers. -/
def Eng.land (g : Eng) (i : Infl) (vs : List Nat) : Eng :=
  let g := { g with infl := g.infl.filter (fun x => x.tok != i.tok) }
  (vs.zip (List.range i.n)).foldl (fun g x => g.deliver i.tok (i.dst + x.2) x.1) g

/-- R342: MEMORY_RESULT_RETURN: the oldest operation of an engine that is done returns. -/
def Dev.memReturn (d : Dev) (e : Nat) : Dev :=
  match (d.engOf e).infl.find? (fun i => i.vals.isSome) with
  | none => d
  | some i => d.updEng e (fun g => g.land i (i.vals.getD []))

/-- Every operation of an engine that is done returns. -/
def Eng.landAll (g : Eng) : Eng := g.infl.foldl (fun g i => match i.vals with | some vs => g.land i vs | none => g) g

/-! ## The window's end (R370–R374) -/

/-- R370: the journal applied in entry order: local stores, scratch stores, then the rest issued in order. -/
def Dev.applyJournal (d : Dev) (e : Nat) (j : List Jent) : Dev :=
  let k := e / 48
  let d := j.foldl (fun d x => match x with | .stl a bs => d.lwrite e a bs | _ => d) d
  let d := j.foldl (fun d x => match x with | .sts a bs => d.swrite (e / 8) a bs | _ => d) d
  j.foldl (fun d x =>
    match x with
    | .sth a bs => d.eaWrite k a bs
    | .qwrite ra m bs t => d.qwrite e ra t m bs
    | .radd ra dp doct t => d.auuSend e t ra (.add e t dp doct)
    | .rstamp ra t => d.auuSend e t ra (.stamp e t)
    | _ => d) d

/-- R372–R374: a window discarded with its journal and the operations issued inside it. -/
def Eng.dropWin (g : Eng) : Eng :=
  match g.win with
  | none => g
  | some w => { g with win := none, infl := g.infl.filter (fun i => !w.toks.contains i.tok) }

/-- R372, R373: the checkpoint restored. -/
def Eng.restoreWin (g : Eng) : Eng :=
  match g.win with
  | none => g
  | some w => { g.dropWin with ctx := ⟨w.w, w.at_, w.stack⟩ }

end Sys2Proof.Machine
end

