-- ==== Sys2Proof/Machine/Tasks.lean ====
section
/-! DEFINITION. The task schedulers (chapter 11): slots, ready lists, WAIT and YIELD, events and timers, preemption, watchdogs and host commands. -/

namespace Sys2Proof.Machine

/-! ## Slots (R395–R397) -/

/-- A slot that no thread has used. -/
def TSlot.zero : TSlot := ⟨⟨List.replicate 32 0, 0, []⟩, 0, 0, 0, false, 0, 0, 0, 0⟩

/-- Slot s of die k. -/
def Dev.tslot (d : Dev) (k s : Nat) : TSlot := SMap.get d.tsk.slots (512 * k + s) TSlot.zero

/-- A slot replaced. -/
def Dev.setTslot (d : Dev) (k s : Nat) (t : TSlot) : Dev := { d with tsk := { d.tsk with slots := SMap.set d.tsk.slots (512 * k + s) t TSlot.zero } }

/-- R396: STATE of a slot. -/
def Dev.tst (d : Dev) (k s : Nat) : Nat := d.get R.TSK_SLOT_ST [k, s] "STATE"

/-- R398: PRIO of a slot. -/
def Dev.tprio (d : Dev) (k s : Nat) : Nat := d.get R.TSK_SLOT_ST [k, s] "PRIO"

/-- R406: the event word of a slot. -/
def Dev.tevt (d : Dev) (k s : Nat) : Nat := d.getW R.TSK_SLOT_EVT [k, s]

/-- The indices of an engine in the TSK block. -/
def tskIx (e : Nat) : List Nat := [e / 48, e % 48]

/-- R419: the slot that an engine runs, if any. -/
def Dev.curSlot (d : Dev) (e : Nat) : Option Nat :=
  let s := d.get R.TSK_ENG_ST (tskIx e) "SLOT"
  if s < 512 && d.tst (e / 48) s == 2 && d.get R.TSK_SLOT_ST [e / 48, s] "ENGINE" == e then some s else none

/-- R394: STATE of an engine. -/
def Dev.engState (d : Dev) (e : Nat) : Nat := d.get R.KSN_ENG_STAT (engIx e) "STATE"

/-- An engine's STATE set. -/
def Dev.setEngState (d : Dev) (e v : Nat) : Dev := d.put R.KSN_ENG_STAT (engIx e) "STATE" v

/-- R364: the thread role is in force. -/
def Dev.threadRole (d : Dev) (e : Nat) : Bool := d.bit R.KSN_ENG_STAT (engIx e) "ROLE_ACT"

/-- R365: an interrupt source raised on an engine. -/
def Dev.raiseIrq (d : Dev) (e n : Nat) : Dev := d.updEng e (fun g => if g.irqs.contains n then g else { g with irqs := g.irqs ++ [n] })

/-- R676: a SCHED record of a thread: 1 dispatched, 2 switched out. -/
def Dev.tskTrace (d : Dev) (e s typ : Nat) (pre : Bool) : Dev :=
  d.trace (e / 48) 4 typ (leBytes 2 e ++ leBytes 2 s ++ leBytes 1 (d.tprio (e / 48) s) ++ leBytes 1 (b2n pre))

/-! ## Ready lists (R398, R399) -/

/-- A ready list. -/
def Dev.readyList (d : Dev) (k l : Nat) : List Nat := SMap.get d.tsk.ready (32 * k + l) []

/-- A ready list replaced. -/
def Dev.setReadyList (d : Dev) (k l : Nat) (q : List Nat) : Dev := { d with tsk := { d.tsk with ready := SMap.set d.tsk.ready (32 * k + l) q [] } }

/-- R398: a slot leaves its ready list. -/
def Dev.unready (d : Dev) (k s : Nat) : Dev :=
  let l := d.tprio k s
  (d.setReadyList k l ((d.readyList k l).filter (· != s))).put R.TSK_READY [k] "COUNT" (d.get R.TSK_READY [k] "COUNT" - 1)

/-- R398: a slot is READY at the tail or head of its level. -/
def Dev.makeReady (d : Dev) (k s : Nat) (head : Bool) : Dev :=
  let l := d.tprio k s
  let d := (d.put R.TSK_SLOT_ST [k, s] "STATE" 1).put R.TSK_SLOT_ST [k, s] "ENGINE" 0x7F
  let q := d.readyList k l
  (d.setReadyList k l (if head then s :: q else q ++ [s])).bump R.TSK_READY [k] "COUNT" 1

/-- R399: the head of the highest level that is not empty. -/
def Dev.topReady (d : Dev) (k : Nat) : Option Nat := (List.range 32).findSome? (fun l => (d.readyList k l).head?)

/-- R402: the status word of a CODE. -/
def tskStatus (code v : Nat) : Nat := code * 2 ^ 60 + v % 2 ^ 32

/-- R397, R402: the context that a slot starts or resumes with, and its event word: on first dispatch ENTRY with w1 = ARG, else its saved context
with the status in the register it named. -/
def Dev.resumeCtx (d : Dev) (k s : Nat) : Ctx × Nat :=
  let t := d.tslot k s
  let ev := d.tevt k s
  if t.how = 0 then (⟨setAt (List.replicate 32 0) 1 t.arg, t.entry, []⟩, ev)
  else
    let hit := Nat.land ev t.mask
    let st := if t.how = 2 then tskStatus 5 0 else if t.how = 3 then tskStatus 1 0 else tskStatus 0 hit
    (if t.breg = 0 then t.ctx else { t.ctx with w := setAt t.ctx.w t.breg st }, if t.how = 1 then ev - hit else ev)

/-- R366, R397: the context that an engine gives to what it runs next; no handler is left behind. -/
def Dev.loadCtx (d : Dev) (e : Nat) (c : Ctx) : Dev :=
  (d.updEng e (fun g => { g with ctx := c, handler := none })).put R.KSN_ENG_STAT (engIx e) "IMASK" 0

/-- R113: in QUIESCE an engine that takes up a thread is to reach a yield point outside the customer area only when the thread was suspended in it. -/
def Dev.quiesceTakes (d : Dev) (e upc : Nat) : Dev :=
  if d.glb.loader.state != 4 then d else
  let l := d.glb.loader.yields.filter (· != e)
  { d with glb := { d.glb with loader := { d.glb.loader with yields := if inCust upc then l ++ [e] else l } } }

/-- R392, R399: the head thread of a die dispatched to an engine; the cycles that the engine was blocked are free. -/
def Dev.dispatch (d : Dev) (e s : Nat) : Dev :=
  let k := e / 48
  let (idle, d) := d.fresh (2 ^ 16)
  let d := (if d.engState e = 3 then d.pmc e 0x11 idle else d).unready k s
  let (c, ev) := d.resumeCtx k s
  let d := (d.put R.TSK_SLOT_ST [k, s] "STATE" 2).put R.TSK_SLOT_ST [k, s] "ENGINE" e
  let d := (d.setW R.TSK_SLOT_EVT [k, s] ev).put R.TSK_ENG_ST (tskIx e) "SLOT" s
  let d := (d.loadCtx e c).quiesceTakes e c.upc
  let d := { d with tsk := { d.tsk with idle := d.tsk.idle.upd k (·.filter (· != e)) } }
  (d.setEngState e 1).tskTrace e s 1 false

/-- R399: the engine served drops to the lowest rank. -/
def Dev.served (d : Dev) (k e : Nat) : Dev := { d with tsk := { d.tsk with rot := d.tsk.rot.upd k (fun l => l.filter (· != e) ++ [e]) } }

/-- R399: an engine asks for a thread: the highest READY thread, or it stays blocked in WAIT. -/
def Dev.seek (d : Dev) (e : Nat) : Dev :=
  let k := e / 48
  match d.topReady k with
  | some s => (d.served k e).dispatch e s
  | none =>
    let d := d.put R.TSK_ENG_ST (tskIx e) "SLOT" 0x1FF
    { d.setEngState e 3 with tsk := { d.tsk with idle := d.tsk.idle.upd k (fun l => l.filter (· != e) ++ [e]) } }

/-! ## Preemption (R410–R413) -/

/-- The engines of a die that run a thread. -/
def Dev.runners (d : Dev) (k : Nat) : List (Nat × Nat) := (span (48 * k) (48 * k + 47)).filterMap (fun e => (d.curSlot e).map (fun s => (e, s)))

/-- R411: PREPEND of an engine. -/
def Dev.prepend (d : Dev) (e : Nat) : Bool := d.bit R.TSK_ENG_ST (tskIx e) "PREPEND"

/-- R411: the number of READY threads that outrank some running thread. -/
def Dev.needPre (d : Dev) (k : Nat) : Nat :=
  let top := (d.runners k).foldl (fun m x => max m (d.tprio k x.2)) 0
  ((List.range top).map (fun l => (d.readyList k l).length)).sum

/-- R411: the engine to mark for a READY thread: of the outranked running threads without a pending preemption, the one of greatest priority number, on
a tie on the highest engine. -/
def Dev.victim (d : Dev) (k s : Nat) : Option Nat :=
  ((d.runners k).filter (fun x => decide (d.tprio k x.2 > d.tprio k s) && !d.prepend x.1)).foldl (fun b x =>
    match b with
    | none => some x.1
    | some y => if d.tprio k x.2 ≥ (match d.curSlot y with | some t => d.tprio k t | none => 0) then some x.1 else b) none

/-- R411: a preemption marked and PREEMPT raised. -/
def Dev.markPre (d : Dev) (k s : Nat) : Dev :=
  match d.victim k s with
  | some e => (d.put R.TSK_ENG_ST (tskIx e) "PREPEND" 1).raiseIrq e 0
  | none => d

/-- R413: preemptions that are no longer needed are withdrawn, lowest priority number first. -/
def Dev.withdraw (k : Nat) : Nat → Dev → Dev
  | 0, d => d
  | n + 1, d =>
    let marked := (d.runners k).filter (fun x => d.prepend x.1)
    if marked.length ≤ d.needPre k then d
    else
      let low := marked.foldl (fun b x => match b with
        | none => some x
        | some y => if d.tprio k x.2 < d.tprio k y.2 then some x else b) (none : Option (Nat × Nat))
      match low with
      | none => d
      | some x => Dev.withdraw k n ((d.put R.TSK_ENG_ST (tskIx x.1) "PREPEND" 0).bump R.TSK_WITHDRAW_CNT [k] "COUNT" 1)

/-- R399, R411, R413: an engine asks for a thread, and preemptions that the thread it takes made unneeded are withdrawn. -/
def Dev.ask (d : Dev) (e : Nat) : Dev := Dev.withdraw (e / 48) 48 (d.seek e)

/-- R399: the engine blocked in WAIT that is served next: the first in the rotation of R399. -/
def Dev.idleEngine (d : Dev) (k : Nat) : Option Nat := (d.tsk.rot.get k).find? (fun e => (d.tsk.idle.get k).contains e)

/-- R398–R400, R411: a thread becomes READY: a waiting engine takes the highest thread, else a preemption is looked for. -/
def Dev.becomeReady (d : Dev) (k s : Nat) : Dev :=
  let d := d.makeReady k s false
  match d.idleEngine k, d.topReady k with
  | some e, some t => (d.served k e).dispatch e t
  | _, _ => d.markPre k s

/-! ## Events and timers (R406–R409) -/

/-- R406, R408, R409: event bits set in a slot: a running thread's engine gets MSG for newly set bits of INTMASK; a thread that waits for one becomes
READY, its timer running on. -/
def Dev.setEvents (d : Dev) (k s bits : Nat) : Dev :=
  let old := d.tevt k s
  let t := d.tslot k s
  let new := Nat.lor old bits
  let d := d.setW R.TSK_SLOT_EVT [k, s] new
  if d.tst k s = 2 then
    if Nat.land (Nat.xor new old) t.intm != 0 then d.raiseIrq (d.get R.TSK_SLOT_ST [k, s] "ENGINE") 2 else d
  else if d.tst k s = 3 && Nat.land new t.mask != 0 then
    (d.setTslot k s { t with how := 1, timed := false }).becomeReady k s
  else d

/-- R406, R408, R409, R402: a slot's timer expires. -/
def Dev.slotTimer (d : Dev) (k s : Nat) : Dev :=
  if !d.bit R.TSK_SLOT_ST [k, s] "TMR" then d else
  let d := d.put R.TSK_SLOT_ST [k, s] "TMR" 0
  let d := if d.tst k s = 2 then d.raiseIrq (d.get R.TSK_SLOT_ST [k, s] "ENGINE") 1 else d
  let timed := (d.tslot k s).timed
  let d := d.setEvents k s (2 ^ 31)
  if d.tst k s = 3 && timed then (d.setTslot k s { d.tslot k s with how := 3, timed := false }).becomeReady k s else d

/-- R407: an event line rises: a bound one sets its bit. -/
def Dev.lineRise (d : Dev) (k n : Nat) : Dev :=
  if d.bit R.TSK_LINE [k, n] "EN" then d.setEvents k (d.get R.TSK_LINE [k, n] "SLOT") (2 ^ d.get R.TSK_LINE [k, n] "BIT") else d

/-- R407: EVENT_LINE: the oldest rising edge of a line reaches its slot. The edges of lines 0 to 7 are the firings of R587, which raise them at once. -/
def Dev.eventLine (d : Dev) (k n : Nat) : Dev :=
  if (d.tsk.edges.get k).contains n then { d with tsk := { d.tsk with edges := d.tsk.edges.upd k (·.erase n) } }.lineRise k n else d

/-- R401, R403, R408: a slot's timer loaded, or disarmed with 0. -/
def Dev.loadTimer (d : Dev) (k s tmo : Nat) : Dev := (d.setTslot k s { d.tslot k s with tmo := tmo }).put R.TSK_SLOT_ST [k, s] "TMR" (b2n (tmo != 0))

/-! ## WAIT and YIELD (R401–R405, R412) -/

/-- A status written to the register that a WAIT or YIELD names. -/
def Dev.yStatus (d : Dev) (e breg v : Nat) : Dev := d.updEng e (fun g => g.wr breg v)

/-- R223, R404: a yield point that does nothing because the engine holds a quoin. -/
def Dev.qheld (d : Dev) (e breg : Nat) : Dev := (d.bump R.TSK_QHELD_CNT [e / 48] "COUNT" 1).yStatus e breg (tskStatus 2 0)

/-- R397: a running thread's context saved into its slot. -/
def Dev.saveCtx (d : Dev) (e s breg how mask : Nat) (timed : Bool) : Dev :=
  let k := e / 48
  let d := d.tskTrace e s 2 (d.prepend e)
  d.setTslot k s { d.tslot k s with ctx := (d.engOf e).ctx, breg := breg, how := how, mask := mask, timed := timed }

/-- R401, R408: the thread of slot s switched out by WAIT: READY at once, or BLOCKED; under a pending preemption a READY one goes to the head of its
level (R412). -/
def Dev.waitOut (d : Dev) (e s breg mask tmo : Nat) : Dev :=
  let k := e / 48
  let now := Nat.land (d.tevt k s) mask != 0 || (mask == 0 && tmo == 0)
  let d := d.saveCtx e s breg 1 mask (tmo != 0 && !now)
  let d := if tmo != 0 then d.loadTimer k s tmo else d
  if now then d.makeReady k s (d.prepend e) else (d.put R.TSK_SLOT_ST [k, s] "STATE" 3).put R.TSK_SLOT_ST [k, s] "ENGINE" 0x7F

/-- R401: the thread of slot s ends. -/
def Dev.threadExit (d : Dev) (e s : Nat) : Dev :=
  let k := e / 48
  let d := d.tskTrace e s 2 (d.prepend e)
  ((d.put R.TSK_SLOT_ST [k, s] "STATE" 0).put R.TSK_SLOT_ST [k, s] "ENGINE" 0x7F).put R.TSK_SLOT_ST [k, s] "TMR" 0

/-- R412, R413: the mark of an engine whose thread leaves it: a switch to the head of the level counts as one of R412, any other end of the need in
TSK_WITHDRAW_CNT. DEDUCED, log 120. -/
def Dev.unmark (d : Dev) (e : Nat) (switched : Bool) : Dev :=
  if !d.prepend e then d
  else (d.put R.TSK_ENG_ST (tskIx e) "PREPEND" 0).bump (if switched then R.TSK_PREEMPT_CNT else R.TSK_WITHDRAW_CNT) [e / 48] "COUNT" 1

/-- R113, R405: an engine reaches a yield point, its micro-PC at the next word. -/
def Dev.yieldPoint (d : Dev) (e : Nat) : Dev :=
  if inCust (((d.engOf e).ctx.upc + 2 ^ 14 - 1) % 2 ^ 14) then d
  else { d with glb := { d.glb with loader := { d.glb.loader with yields := d.glb.loader.yields.filter (· != e) } } }

/-- R401, R412, R413: WAIT on an engine; its micro-PC names the next word already. -/
def Dev.wait (d : Dev) (e breg req : Nat) : Dev :=
  let k := e / 48
  let d := d.yieldPoint e
  match d.curSlot e with
  | none => d.ask e
  | some s =>
    if !(d.heldQuoins e).isEmpty then d.qheld e breg
    else if bitsOf req 62 52 != 0 then d.yStatus e breg (tskStatus 3 0)
    else
      let d := if hasBit req 63 then d.threadExit e s else d.waitOut e s breg (req % 2 ^ 32) (bitsOf req 51 32)
      (d.unmark e (d.tst k s == 1)).ask e

/-- R403, R404, R412: YIELD on an engine; its micro-PC names the next word already. A packet-role engine has no thread to switch. -/
def Dev.yield_ (d : Dev) (e breg req : Nat) : Dev :=
  let k := e / 48
  let ps := bitsOf req 24 16
  let post := hasBit req 31
  let d := d.yieldPoint e
  if !(d.heldQuoins e).isEmpty then d.qheld e breg
  else if bitsOf req 61 52 != 0 || bitsOf req 30 25 != 0 || (post && d.tst k ps == 0) then d.yStatus e breg (tskStatus 3 0)
  else
    let d := if post then d.setEvents k ps (req % 2 ^ 16) else d
    match d.curSlot e with
    | none => d.yStatus e breg (tskStatus 4 0)
    | some s =>
      let d := if hasBit req 62 then d.loadTimer k s (bitsOf req 51 32) else d
      let same := hasBit req 63 && (match d.topReady k with | some t => decide (d.tprio k t ≤ d.tprio k s) | none => false)
      if d.prepend e && (d.topReady k).isSome then
        let d := (d.saveCtx e s breg 2 0 false).makeReady k s true
        (d.unmark e true).ask e
      else if same then
        let d := (d.saveCtx e s breg 2 0 false).makeReady k s false
        d.ask e
      else d.yStatus e breg (tskStatus 4 0)

/-! ## Engine resets and watchdogs (R24, R228, R415, R416) -/

/-- R24, R228: an engine's registers, micro-PC and local memory cleared, its waits ended, its epoch raised. -/
def Dev.engClear (d : Dev) (e : Nat) : Dev :=
  let eng := { d.eng with eng := SMap.del d.eng.eng e }
  let flw := { d.flw with waits := d.flw.waits.filter (fun w => w.e != e) }
  ({ d with eng := eng, flw := flw }.put R.FLW_QN_EPOCH [e / 48, e % 48] "EPOCH" (d.epoch e + 1)).showQuoins (e / 48)

/-- R388: the engine's hold of its cluster bus ended. -/
def Dev.busDrop (d : Dev) (e : Nat) : Dev :=
  if d.bit R.KSN_BUS_STAT (clIx (e / 8)) "BUSY" && d.get R.KSN_BUS_STAT (clIx (e / 8)) "OWNER" == e % 8 then
    d.put R.KSN_BUS_STAT (clIx (e / 8)) "BUSY" 0 else d

/-- The engine's registers of chapters 10 and 11 as a reset leaves them. -/
def Dev.engRegs (d : Dev) (e : Nat) : Dev :=
  let d := d.setW R.KSN_ENG_MCHK (engIx e) 0
  let d := d.put R.TSK_ENG_ST (tskIx e) "PREPEND" 0
  let d := d.put R.TSK_ENG_ST (tskIx e) "SLOT" 0x1FF
  d.put R.KSN_ENG_STAT (engIx e) "IMASK" 0

/-- An engine no longer waits for a thread. -/
def Dev.notIdle (d : Dev) (e : Nat) : Dev := { d with tsk := { d.tsk with idle := d.tsk.idle.upd (e / 48) (·.filter (· != e)) } }

/-- R364: an engine takes the role that KSN_ENG_CFG names. -/
def Dev.takeRole (d : Dev) (e : Nat) : Dev :=
  let role := d.get R.KSN_ENG_CFG (engIx e) "ROLE"
  let d := d.put R.KSN_ENG_STAT (engIx e) "ROLE_ACT" role
  if role = 1 then d.ask e else d.setEngState e 0

/-- R24, R228, R388: an engine reset: registers, micro-PC and local memory cleared, its epoch raised, its bus transfer and its waits ended; it takes the role
that KSN_ENG_CFG names. -/
def Dev.engReset (d : Dev) (e : Nat) : Dev := ((((d.engClear e).busDrop e).engRegs e).notIdle e).takeRole e

/-- R24, R396: an engine reset with the thread it ran: the thread's slot is FAULTED. -/
def Dev.engResetAll (d : Dev) (e : Nat) (bite : Bool) : Dev :=
  let k := e / 48
  match d.curSlot e with
  | none => d.engReset e
  | some s =>
    let d := ((d.put R.TSK_SLOT_ST [k, s] "STATE" 4).put R.TSK_SLOT_ST [k, s] "ENGINE" 0x7F)
    let d := if bite then d.bumpSat R.TSK_SLOT_ST [k, s] "FAULTS" 1 else d
    Dev.withdraw k 48 (d.engReset e)

/-- R417: a FAULTED slot restarts at ENTRY with w1 = ARG. -/
def Dev.restartSlot (d : Dev) (k s : Nat) : Dev := (d.setTslot k s { d.tslot k s with how := 0, timed := false }).becomeReady k s

/-- R415: the watchdog of an engine runs: it is enabled, and the engine is neither in reset nor blocked in WAIT. -/
def Dev.wdogRuns (d : Dev) (e : Nat) : Bool :=
  d.bit R.TSK_WDOG [e / 48, e % 48] "EN" && d.engState e != 6 && !(d.engState e == 3 && (d.curSlot e).isNone)

/-- R415, R416, R616: the watchdog of an engine bites. -/
def Dev.watchdogBite (d : Dev) (e : Nat) : Dev :=
  let k := e / 48
  let i := e % 48
  let inj := d.injArmed k 0x32 i
  if !inj && !d.wdogRuns e then d else
  let d := if inj then d.injPlanted k else d
  let slot := d.curSlot e
  let requeue := slot.isSome && d.armed k 0x32 0
  let det := leBytes 2 (slot.getD 0x1FF) ++ [BitVec.ofNat 8 (b2n (d.threadRole e))]
  let d := d.errEvent (mkEvent k 0x32 i 2 1 det) inj (if requeue then ⟨true, 0⟩ else noResp)
  let d := (d.bump R.TSK_BITE_CNT [k] "COUNT" 1).engResetAll e true
  match slot with
  | some s => if requeue then d.restartSlot k s else d
  | none => d

/-! ## Host commands (R417, R418) -/

/-- R418: a command ends with a CODE. -/
def Dev.tskDone (d : Dev) (k code : Nat) : Dev := d.put R.TSK_STAT [k] "CODE" code

/-- R397, R398, R417: a thread created in a slot, READY at the tail of its level. -/
def Dev.newThread (d : Dev) (k s entry prio intm arg : Nat) : Dev :=
  let d := d.setTslot k s { TSlot.zero with intm := intm, entry := entry, arg := arg }
  let d := ((d.setW R.TSK_SLOT_EVT [k, s] 0).put R.TSK_SLOT_ST [k, s] "TMR" 0).put R.TSK_SLOT_ST [k, s] "PRIO" prio
  d.becomeReady k s

/-- R395: a slot of the Stonal runtime created on entry to ENROL. What the vendor boot images give it is a free value. -/
def Dev.vendorThread (k : Nat) (d : Dev) (s : Nat) : Dev :=
  let (entry, d) := d.fresh 0x3000
  let (prio, d) := d.fresh 32
  let (intm, d) := d.fresh (2 ^ 32)
  let (arg, d) := d.fresh (2 ^ 64)
  d.newThread k s entry prio intm arg

/-- R395: slots 0 to 63 of both dies. -/
def Dev.vendorThreads (d : Dev) : Dev := (List.range 64).foldl (Dev.vendorThread 1) ((List.range 64).foldl (Dev.vendorThread 0) d)

/-- R417, R418: CREATE. -/
def Dev.tskCreate (d : Dev) (k s : Nat) : Dev :=
  if s > 511 || s < 64 then d.tskDone k 1
  else if d.tst k s != 0 then d.tskDone k 2
  else if !inCust (d.get R.TSK_SCFG [k] "ENTRY") || d.custEmpty then d.tskDone k 3
  else (d.newThread k s (d.get R.TSK_SCFG [k] "ENTRY") (d.get R.TSK_SCFG [k] "PRIO") (d.getW R.TSK_SINTM [k]) (d.getW R.TSK_SARG [k])).tskDone k 0

/-- R417, R418: KILL. -/
def Dev.tskKill (d : Dev) (k s : Nat) : Dev :=
  if s > 511 || s < 64 then d.tskDone k 1
  else
    let st := d.tst k s
    if st = 1 || st = 3 || st = 4 then
      let d := if st = 1 then d.unready k s else d
      let d := (d.put R.TSK_SLOT_ST [k, s] "STATE" 0).put R.TSK_SLOT_ST [k, s] "TMR" 0
      (Dev.withdraw k 48 d).tskDone k 0
    else d.tskDone k 2

/-- R417, R418: REQUEUE. -/
def Dev.tskRequeue (d : Dev) (k s : Nat) : Dev :=
  if s > 511 then d.tskDone k 1 else if d.tst k s != 4 then d.tskDone k 2 else (d.restartSlot k s).tskDone k 0

/-- R413: an engine's pending preemption withdrawn when no READY thread outranks its thread any longer. -/
def Dev.dropMark (d : Dev) (k e s : Nat) : Dev :=
  let need := match d.topReady k with | some t => decide (d.tprio k t < d.tprio k s) | none => false
  if d.prepend e && !need then (d.put R.TSK_ENG_ST (tskIx e) "PREPEND" 0).bump R.TSK_WITHDRAW_CNT [k] "COUNT" 1 else d

/-- R411: how many engines of a die have a pending preemption. -/
def Dev.marks (d : Dev) (k : Nat) : Nat := ((d.runners k).filter (fun x => d.prepend x.1)).length

/-- R410, R411, R413, R417: preemption looked at again after the priority of slot s has changed: a READY thread asks for an engine as one that becomes READY
does; under a running thread's new priority an unneeded mark goes, and the first READY thread that no mark serves asks. DEDUCED, log entry 152. -/
def Dev.reeval (d : Dev) (k s : Nat) : Dev :=
  match d.tst k s with
  | 1 => let d := Dev.withdraw k 48 d; if d.marks k < d.needPre k then d.markPre k s else d
  | 2 =>
    let d := Dev.withdraw k 48 (d.dropMark k (d.get R.TSK_SLOT_ST [k, s] "ENGINE") s)
    if d.marks k < d.needPre k then
      match ((List.range 32).flatMap (d.readyList k))[d.marks k]? with | some t => d.markPre k t | none => d
    else d
  | _ => d

/-- R411, R413, R417: SETPRIO; preemption is looked at again. -/
def Dev.tskSetprio (d : Dev) (k s : Nat) : Dev :=
  if s > 511 || s < 64 then d.tskDone k 1
  else
    let st := d.tst k s
    let pr := d.get R.TSK_SCFG [k] "PRIO"
    if st = 0 then d.tskDone k 2
    else
      let d := if st = 1 then ((d.unready k s).put R.TSK_SLOT_ST [k, s] "PRIO" pr).makeReady k s false
        else d.put R.TSK_SLOT_ST [k, s] "PRIO" pr
      (d.reeval k s).tskDone k 0

end Sys2Proof.Machine
end

