-- ==== Sys2Proof/Machine/Issue.lean ====
section
/-! DEFINITION. How an engine issues a microword (chapter 10): the three slots, machine checks and their responses, work items, DONE, interrupts, and the
cluster bus. -/

namespace Sys2Proof.Machine

/-- R676: an ENG record. -/
def Dev.engTrace (d : Dev) (e typ out : Nat) : Dev :=
  let g := d.engOf e
  let it := g.item
  let c := e / 8 % 6
  let k := e / 48
  d.trace k 2 typ (leBytes 1 e ++ leBytes 1 (d.engState e) ++ leBytes 2 g.ctx.upc ++ leBytes 1 (match it with | some i => i.op | none => 0)
    ++ leBytes 1 out ++ leBytes 2 ((d.curSlot e).getD 0x1FF) ++ leBytes 4 (match it with | some i => i.raddr | none => 0))
    (hasBit (d.get R.TRC_SRC_CFG [k, 2] "SEL") c)

/-! ## Machine checks (R374–R378, R604) -/

/-- R374, R376: the engine stops: a window's effects discarded, CAUSE and ADDR recorded. -/
def Dev.mchkStop (d : Dev) (e cause addr : Nat) : Dev :=
  let ix := engIx e
  let d := (d.updEng e Eng.dropWin).setEngState e 5
  let d := (d.put R.KSN_ENG_MCHK ix "CAUSE" cause).put R.KSN_ENG_MCHK ix "ADDR" addr
  (d.pmc e 0x12 1).engTrace e 4 cause

/-- R377: REPAIR of a word: whether some cluster's copy passes parity; the engine's copy is then that word. -/
def Dev.repairWord (d : Dev) (k a : Nat) : Dev × Bool :=
  if (List.range 12).any (fun c => d.csGood c a) then
    ({ d with eng := { d.eng with csBad := d.eng.csBad.filter (· != (k, a)) } }, true)
  else (d, false)

/-- R377: RESUME. -/
def Dev.resumeEng (d : Dev) (e : Nat) : Dev := (d.put R.KSN_ENG_MCHK (engIx e) "CAUSE" 0).setEngState e 1

/-- R377, R604: the armed response of a machine check. -/
def Dev.mchkRespond (d : Dev) (e cause addr : Nat) : Dev × Resp :=
  let k := e / 48
  let (d, fixed) := if cause = 1 && d.armed k 0x30 0 then d.repairWord (e / 8) addr else (d, false)
  if fixed && d.armed k 0x30 1 then (d.resumeEng e, ⟨true, 1⟩)
  else if d.armed k 0x30 2 then (d.engResetAll e false, ⟨true, 2⟩)
  else (d, if fixed then ⟨true, 0⟩ else noResp)

/-- R606: the DETAIL of a KSN_MCHK event. -/
def mchkDetail (cause addr : Nat) (it : Option Item) : List Byte :=
  [BitVec.ofNat 8 cause, 0#8] ++ leBytes 2 addr ++ leBytes 1 (match it with | some i => i.op | none => 0) ++ [0#8, 0#8, 0#8]
    ++ leBytes 4 (match it with | some i => i.raddr | none => 0)

/-- R378, R392: a parity failure of a word or a dispatch entry, met by an engine. -/
def Dev.parFail (d : Dev) (e : Nat) : Dev := (d.bump R.KSN_PAR_CNT (clIx (e / 8)) "COUNT" 1).pmc e 0x13 1

/-- R617: the parity fault of a word of control store, or of a dispatch entry, that an engine meets was injected. -/
def Dev.parInj (d : Dev) (e cause addr : Nat) (par : Bool) : Bool :=
  if cause = 1 then d.eng.csBad.contains (e / 8, addr) && d.isInj (e / 48) 0x30 (e / 8 * 2 ^ 14 + addr)
  else par && d.eng.dispBad.any (fun x => x.1 == e / 8 && d.isInj (e / 48) 0x31 (e / 8 * 256 + x.2))

/-- R375–R378: a machine check; `par` when a word or a dispatch entry failed parity. -/
def Dev.mcheck (d : Dev) (e cause addr : Nat) (par : Bool) : Dev :=
  let k := e / 48
  let it := (d.engOf e).item
  let d := d.mchkStop e cause addr
  let inj := d.parInj e cause addr par
  let d := if par then d.parFail e else d
  let (d, r) := d.mchkRespond e cause addr
  d.errEvent (mkEvent k 0x30 (e % 48) 2 1 (mchkDetail cause addr it)) inj r

/-! ## DONE (R149, R224, R362, R363) -/

/-- R363, R221: every quoin that an engine holds released in descending order, the implicit quoin last. -/
def Dev.releaseQuoins (d : Dev) (e : Nat) (last : Option Nat) : Dev :=
  let hs := (d.heldQuoins e).reverse
  (hs.filter (fun r => some r != last) ++ hs.filter (fun r => some r == last)).foldl (fun d r => d.freeHeld e r) d

/-- R77, R170: an item commits its packet, or drops it as a commit: behind the earlier packets of its flow; after a FLUSH its record is updated and the
packet discarded. -/
def Dev.itemOut (d : Dev) (n : Nat) (p : Pkt) (oc : Oc) : Dev :=
  if p.flush != 0 then (d.issueWb p (if oc == .commit then p.tcp else none)).flushOut n p else d.bringOut n p (homeDie (p.h.getD 0)) oc

/-- R125, R362: outcome COMMIT of an item that is not a setup: R312 steps 1 to 6 and 8 under the record as it stands; one that fails in every copy diverts
its packet. -/
def Dev.doneCommit (d : Dev) (n : Nat) (p : Pkt) (ra : Nat) : Dev :=
  let s := d.slot ra
  let p := { p with pred := false, replayed := false, snap := none, loc := some ra, gen := s.gen, img := some s.body, tcp := none }
  match d.recUse ra with
  | (d, false) => d.divertOut n (raDie ra) (checkSrc ra)
  | (d, true) =>
  match d.evaluate (raDie ra) s.body p true with
  | (d, .refuse) => d.itemOut n p .drop
  | (d, .dispatch _) => d.itemOut n p .commit
  | (d, .forward tcp) => d.itemOut n { p with tcp := tcp } .commit

/-- R200, R362: outcome DIVERT: the record is marked, its packet goes to the exception path. -/
def Dev.doneDivert (d : Dev) (n ra : Nat) : Dev := (d.auuFlag ra fDiverted true).divertOut n (raDie ra) 0

/-- R362: the end of an ENGINE, PATTERN or DOWN item. -/
def Dev.doneItem (d : Dev) (it : Item) (out : Nat) : Dev :=
  let d := d.linkThrough it.pkt
  match d.pkt it.pkt with
  | none => d
  | some p =>
    if p.stage != .engine then d else
    match out with
    | 0 => d.doneCommit it.pkt p it.raddr
    | 1 =>
      let s := d.slot it.raddr
      d.itemOut it.pkt { p with pred := false, snap := none, loc := some it.raddr, gen := s.gen, img := some s.body, tcp := none } .drop
    | 3 => if p.flush != 0 then d.flushOut it.pkt p else d.dropPkt it.pkt p
    | _ => d.doneDivert it.pkt it.raddr

/-- R149: the pending-table entry of a setup. -/
def Dev.setupEnt (d : Dev) (ra : Nat) : Option PEnt := (d.flw.pend.get (raDie ra)).find? (fun p => p.raddr == some ra && p.kind == .setup)

/-- R149, R122: the record that a setup COMMIT writes: bytes 40 to 61 from local 0xA8 to 0xBD, FLAGS as the part sets them. -/
def Dev.setupRec (d : Dev) (e ra : Nat) (ent : Option PEnt) : Rec :=
  let s := d.slot ra
  let first := ent.bind (fun x => x.pkts.head?.bind d.pkt)
  let cdir := match first with | some p => !p.swap | none => s.body.cdir
  let div := s.body.diverted || (match ent with | some x => x.diverted | none => false)
  let r := Rec.ofBytes (s.body.bytes.take 40 ++ (d.engOf e).lread 0xA8 22)
  { r with key := s.body.key, flags := 1 + d.mirFlag + 4 * b2n div + 16 * b2n cdir }

/-- R149: a rejected setup: the slot EMPTY again, its list dropped and counted, or sent to the exception path with a source. -/
def Dev.setupReject (d : Dev) (ra : Nat) (drop : Bool) (src : Nat) : Dev :=
  let k := raDie ra
  let ent := d.setupEnt ra
  let d := (d.updSlot ra (fun s => { s with st := .empty, gen := s.gen + 1 })).tagWritten ra
  let d := d.put R.FLW_COUNT [k] "COUNT" (d.get R.FLW_COUNT [k] "COUNT" - 1)
  match ent with
  | none => d
  | some x =>
    x.pkts.foldl (fun d n =>
      let d := d.linkThrough n
      match d.pkt n with
      | none => d
      | some p =>
        if drop then
          let d := d.bump R.FLW_SETUP_REJ [k] "COUNT" 1
          if p.flush != 0 then d.flushOut n p else d.dropPkt n p
        else d.divertOut n k src) (d.delPend k x.idx)

/-- R124, R149, R520, R612: setup COMMIT: the record written, then the tag VALID; a flow that an armed FLW_SETUP_TMO diverted keeps that source. A slot that
fails in every copy is not written: its packets go to the exception path and the slot is EMPTY again, as REJECT_DIVERT has it: DESIGN CHOICE, log 147. -/
def Dev.setupCommit (d : Dev) (e ra : Nat) : Dev :=
  let ent := d.setupEnt ra
  let r := d.setupRec e ra ent
  match d.recUse ra with
  | (d, false) => d.setupReject ra false (checkSrc ra)
  | (d, true) =>
    let d := ((d.updSlot ra (fun s => { s with st := .valid })).auuStore ra r).tagWritten ra
    let d := match ent with
      | some x => if x.diverted then { d with flw := { d.flw with divSrc := SMap.put d.flw.divSrc ra (srcId 2 0x12 (x.region % 2)) } } else d
      | none => d
    d.bump R.FLW_INS_ENG [raDie ra] "COUNT" 1

/-- R362: the end of a SETUP item. -/
def Dev.doneSetup (d : Dev) (e : Nat) (it : Item) (out : Nat) : Dev :=
  if (d.slot it.raddr).st != .pending then d
  else match out with
    | 0 => d.setupCommit e it.raddr
    | 1 => d.setupReject it.raddr true 0
    | _ => d.setupReject it.raddr false 0

/-- R379: a packet-role engine without an item; a change of role takes effect. -/
def Dev.engIdle (d : Dev) (e : Nat) : Dev :=
  let d := d.updEng e (fun g => { g with item := none, handler := none })
  (d.setEngState e 0).put R.KSN_ENG_STAT (engIx e) "IMASK" 0

/-- R342, R362, R363: DONE of an engine in the packet role, its micro-PC at the next word; `v` is w[BREG] at issue. -/
def Dev.done (d : Dev) (e v : Nat) : Dev :=
  match (d.engOf e).item with
  | none => d.engIdle e
  | some it =>
    let out := v % 16
    let bad := decide (out > 3)
    let d := if bad then d.bump R.KSN_BAD_DONE (clIx (e / 8)) "COUNT" 1 else d
    let d := (d.heldQuoins e).foldl (fun d r => d.auuSettle e r) d
    let d := if it.kind = 1 then d.doneSetup e it out else d.doneItem it out
    let d := d.releaseQuoins e (some it.raddr)
    let d := if it.kind = 1 && out == 0 && (d.setupEnt it.raddr).isSome then d.releaseHold it.raddr else d
    let d := d.pmc e (if out = 0 then 0x0F else 0x10) 1
    ((d.engTrace e 2 out).engIdle e).pump

/-! ## The branch slot (R350, R367, R368, R370) -/

/-- The micro-PC of an engine set. -/
def Dev.setUpc (d : Dev) (e a : Nat) : Dev := d.updEng e (fun g => { g with ctx := { g.ctx with upc := a % 2 ^ 14 } })

/-- R368: ATOM opens a window with its checkpoint. -/
def Dev.openWin (d : Dev) (e : Nat) (g : Eng) : Dev := d.updEng e (fun x => { x with win := some ⟨g.ctx.w, g.ctx.stack, g.ctx.upc, [], []⟩ })

/-- R370: ENDATOM applies the journal. -/
def Dev.endAtom (d : Dev) (e : Nat) : Dev :=
  match (d.engOf e).win with
  | none => d
  | some w => ((d.updEng e (fun g => { g with win := none })).applyJournal e w.journal).pmc e 0x0B 1

/-- R367: IRET restores the routine; the handler's w24 to w31 stay its own. -/
def Dev.iret (d : Dev) (e : Nat) : Dev :=
  match (d.engOf e).handler with
  | none => d
  | some h =>
    (d.updEng e (fun g => { g with handler := none, hw := g.ctx.w.drop 24, ctx := { g.ctx with w := g.ctx.w.take 24 ++ h.hi, upc := h.upc } })).put
      R.KSN_ENG_STAT (engIx e) "IMASK" 0

/-- R350: the return address pushed, the micro-PC set. -/
def Dev.call (d : Dev) (e next a : Nat) : Dev := (d.updEng e (fun g => { g with ctx := { g.ctx with stack := next :: g.ctx.stack } })).setUpc e a

/-- R350: RET. -/
def Dev.ret_ (d : Dev) (e : Nat) : Dev :=
  match (d.engOf e).ctx.stack with
  | [] => d
  | a :: s => (d.updEng e (fun g => { g with ctx := { g.ctx with stack := s } })).setUpc e a

/-- R223, R350, R401: WAIT; for an engine in the packet role that holds no quoin the spec gives no status: it is free. -/
def Dev.waitWord (d : Dev) (e breg req : Nat) : Dev :=
  if d.threadRole e then d.wait e breg req
  else if !(d.heldQuoins e).isEmpty then d.qheld e breg
  else let (v, d) := d.fresh (2 ^ 64); d.yStatus e breg v

/-- R350: the branch slot of a word that gives the engine's turn away; `v` is w[BREG] at issue. -/
def Dev.turnOver (d : Dev) (e : Nat) (u : UW) (v : Nat) : Dev :=
  match u.bop with
  | 0x0B => d.waitWord e u.breg v
  | 0x0C => d.yield_ e u.breg v
  | 0x0D => d.done e v
  | 0x0E => d.iret e
  | _ => d

/-- R350: the branch slot of a word; `g` is the engine at issue. -/
def Dev.branch (d : Dev) (e : Nat) (g : Eng) (u : UW) : Dev :=
  let next := (g.ctx.upc + 1) % 2 ^ 14
  let d := d.setUpc e next
  match u.bop with
  | 0x01 => d.setUpc e u.target
  | 0x02 | 0x03 | 0x04 => if u.taken g then d.setUpc e u.target else d
  | 0x05 => d.call e next u.target
  | 0x06 => d.ret_ e
  | 0x07 => d.setUpc e (g.rd u.breg)
  | 0x08 => d.call e next (d.dispEntry (e / 8) (g.rd u.breg % 256))
  | 0x0A => d.endAtom e
  | _ => d.turnOver e u (g.rd u.breg)

/-! ## Issue (R342–R346, R375) -/

/-- Words after which another thread, item or routine runs on the engine. -/
def UW.turns (u : UW) : Bool := [0x0B, 0x0C, 0x0D, 0x0E].contains u.bop

/-- The first token of the operations that the routine or handler now running has issued. -/
def Eng.turnMark (g : Eng) (u : UW) : Nat := match g.handler with | some h => (if u.bop = 0x0E then h.mark else 0) | none => 0

/-- R392: cycles with an LDH of an engine outstanding; how many is free. -/
def Dev.ldhTime (d : Dev) (e : Nat) : Dev := if (d.engOf e).infl.any (·.ldh.isSome) then (let (n, d) := d.fresh (2 ^ 16); d.pmc e 8 n) else d

/-- R344: the memory operation of such a word is done before the turn ends: operations of its record are applied, its registers written. A quoin
request that waits is left. -/
def Dev.settleMem (d : Dev) (e : Nat) (g : Eng) (u : UW) : Dev :=
  let mark := g.turnMark u
  let d := d.ldhTime e
  let d := if u.mop = 0x0C || u.mop = 0x0E || u.mop = 0x0F then Dev.auuDrain (u.ra g) d.flw.auuq.length d else d
  d.updEng e (fun x => x.infl.foldl (fun x i => match i.vals with | some vs => if i.tok ≥ mark then x.land i vs else x | none => x) x)

/-- R344, R349: a word that ends its turn has an operation outstanding: a quoin request that waits. -/
def Eng.turnWaits (g : Eng) (u : UW) : Bool := u.turns && g.infl.any (fun i => decide (i.tok ≥ g.turnMark u))

/-- R342: the effects of a word that raises no machine check. The turn of a word whose quoin request waits ends with the request. -/
def Dev.runWord (d : Dev) (e : Nat) (u : UW) (w : Nat) : Dev :=
  let g := d.engOf e
  let d := d.pmc e 1 1
  let d := if u.bop = 9 then d.openWin e g else d
  let d := d.memOp e g u
  let d := if u.aop = 0 then d else d.updEng e (fun x => x.wr u.dst (aluResult u g.rd))
  let d := if u.turns then d.settleMem e g u else d
  if (d.engOf e).turnWaits u then (d.setUpc e (g.ctx.upc + 1)).updEng e (fun x => { x with turn := some (w, g.rd u.breg) })
  else d.branch e g u

/-- R342, R344: MEMORY_RESULT_RETURN: the oldest operation of an engine that is done returns, and the turn that waits for it ends. -/
def Dev.memBack (d : Dev) (e : Nat) : Dev :=
  let d := (d.ldhTime e).memReturn e
  match (d.engOf e).turn with
  | none => d
  | some (w, v) =>
    let u := UW.of w
    if (d.engOf e).turnWaits u then d else (d.updEng e (fun x => { x with turn := none })).turnOver e u v

/-- R392: what time adds to an engine's counters as it issues: cycles of fetch stalls, of waiting for the bus and with an LDH outstanding. How many is
free. -/
def Dev.issueTime (d : Dev) (e : Nat) : Dev :=
  let (a, d) := d.fresh (2 ^ 16)
  let (b, d) := d.fresh (2 ^ 16)
  ((d.pmc e 3 a).pmc e 5 b).ldhTime e

/-- R343, R347, R375: one microword: its parity, the registers it waits for, its machine checks, its effects. -/
def Dev.issueWord (d : Dev) (e : Nat) : Dev :=
  let g := d.engOf e
  let a := g.ctx.upc
  if !d.csGood (e / 8) a then d.mcheck e 1 a true
  else
    let u := UW.of (d.csWord a).1
    if g.stalled u then (let (n, d) := d.fresh (2 ^ 16); d.pmc e 2 n)
    else match d.causes e g u with
      | c :: _ => d.mcheck e c a (c == 0x0A && d.eng.dispBad.contains (e / 8, g.rd u.breg % 256))
      | [] => (d.issueTime e).runWord e u (d.csWord a).1

/-- R379, R376, R519: whether an engine issues words: it runs, and is not suspended but for an open window. -/
def Dev.canIssue (d : Dev) (e : Nat) : Bool := d.engState e == 1 && (d.engOf e).turn.isNone && (!d.suspends || (d.engOf e).win.isSome)

/-- The word at an engine's micro-PC. -/
def Dev.nextWord (d : Dev) (e : Nat) : UW := UW.of (d.csWord (d.engOf e).ctx.upc).1

/-- A word whose slots name no operation of the command table: each is NOP, NEXT or a reserved opcode. -/
def UW.unnamed (u : UW) : Bool := (u.aop == 0 || decide (u.aop > 0x19)) && (u.mop == 0 || decide (u.mop > 0x16)) && (u.bop == 0 || decide (u.bop > 0x0F))

/-- Words that no command names issue ahead of the next word that one does. -/
def Dev.runUnnamed (e : Nat) : Nat → Dev → Dev
  | 0, d => d
  | n + 1, d => if d.canIssue e && (d.nextWord e).unnamed then Dev.runUnnamed e n (d.issueWord e) else d

/-- The issue of an engine's next word by a command that names one of its slots; any other word leaves the part as it is. -/
def Dev.kIssue (d : Dev) (e : Nat) (is : UW → Bool) : Dev :=
  let d' := Dev.runUnnamed e 16384 d
  if d'.canIssue e && is (d'.nextWord e) then d'.issueWord e else d

/-! ## Work items (R359–R361) -/

/-- R361: the 192 bytes that a take writes; what only a packet that is gone could give reads 0. -/
def Dev.itemBytes (d : Dev) (it : Item) : List Byte :=
  match d.pkt it.pkt with
  | none => leBytes 1 it.op ++ leBytes 1 it.kind ++ leBytes 2 0 ++ leBytes 4 it.raddr ++ leBytes 8 (d.hashKey (raDie it.raddr) (sliceB it.record 0 40))
      ++ List.replicate 112 0#8 ++ sliceB it.record 0 64
  | some p =>
    let h := p.h.getD 0
    let dir := !(Rec.ofBytes it.record).initiator p.swap
    leBytes 1 it.op ++ leBytes 1 it.kind ++ leBytes 1 p.port ++ leBytes 1 (p.g + 4 * b2n p.swap + 8 * b2n (dir && it.kind != 1))
      ++ leBytes 4 it.raddr ++ leBytes 8 h ++ leBytes 2 p.bytes.length ++ leBytes 2 0 ++ leBytes 4 p.head
      ++ leBytes 4 (pNs p.stamp) ++ leBytes 4 (pSec p.stamp) ++ sliceB p.md 0 32 ++ sliceB p.bytes 0 64 ++ sliceB it.record 0 64

/-- R359, R231: an item whose entry is not valid or fails parity is discarded, its flow diverted. -/
def Dev.badItem (d : Dev) (e : Nat) (it : Item) (par : Bool) : Dev :=
  let c := e / 8
  let k := e / 48
  let h := match d.pkt it.pkt with | some p => p.h.getD 0 | none => 0
  let inj := d.eng.dispBad.contains (c, it.op) && d.isInj k 0x31 (c * 256 + it.op)
  let d := if par then d.parFail e else d
  let d := d.errEvent (mkEvent k 0x31 (c % 6) 2 1 (leBytes 4 it.op ++ leBytes 8 h)) inj
  d.reclaim it.raddr false

/-- R214, R361: an engine takes an item: the quoin is its own, its local memory holds the item, its routine starts. -/
def Dev.takeItem (d : Dev) (e : Nat) (it : Item) : Dev :=
  let d := d.setQuoin it.raddr ⟨true, e, d.epoch e, false⟩
  let bs := d.itemBytes it
  let d := d.updEng e (fun g => { g with item := some it, lmem := putAll g.lmem 0 bs })
  let d := (d.setUpc e (d.dispEntry (e / 8) it.op)).setEngState e 1
  (d.pmc e 0x0E 1).engTrace e 1 0

/-- R113: an item that a quiesce holds. -/
def Dev.heldItem (d : Dev) (it : Item) : Bool := d.glb.loader.holds.contains it.op

/-- R360, R113: the item that an engine of a cluster takes next, with its queue and that queue without it: the first of the high-priority queue that
no quiesce holds, else of the low. -/
def Dev.nextItem (d : Dev) (c : Nat) : Option (Bool × Item) :=
  match (d.wq true c).find? (fun it => !d.heldItem it) with
  | some it => some (true, it)
  | none => ((d.wq false c).find? (fun it => !d.heldItem it)).map (fun it => (false, it))

/-- R360: an idle packet-role engine takes the next item of its cluster; an item whose flow has packets in flight waits for them (R220). -/
def Dev.itemTake (d : Dev) (e : Nat) : Dev :=
  let c := e / 8
  match d.nextItem c with
  | none => d
  | some (hi, it) =>
    if d.engState e != 0 || d.threadRole e || d.suspends || d.inFlight it.raddr then d
    else
      let d := d.linkThrough it.pkt
      let (c5, d) := d.fresh (2 ^ 16)
      let d := d.pmc e 0x11 c5
      let d := d.setWq hi c ((d.wq hi c).erase it)
      let ent := d.dispEntry c it.op
      let par := d.eng.dispBad.contains (c, it.op)
      let d := if !hasBit ent 31 || par then d.badItem e it par else d.takeItem e it
      d.placeWaiting (e / 24)

/-! ## Interrupts and windows (R365–R367, R371–R373) -/

/-- R365, R366: an interrupt taken: the routine suspended, the handler's first word named by entry 0x78 + n. -/
def Dev.takeIrq (d : Dev) (e n : Nat) : Dev :=
  let ent := d.dispEntry (e / 8) (0x78 + n)
  let g := d.engOf e
  let d := d.updEng e (fun g => { g with irqs := g.irqs.filter (· != n) })
  if !hasBit ent 31 || d.eng.dispBad.contains (e / 8, 0x78 + n) then d.mcheck e 0x0A g.ctx.upc (d.eng.dispBad.contains (e / 8, 0x78 + n))
  else
    let h : Handler := ⟨g.ctx.upc, g.ctx.w.drop 24, d.eng.tok⟩
    let d := d.updEng e (fun g => { g with handler := some h, ctx := { g.ctx with w := g.ctx.w.take 24 ++ g.hw, upc := ent % 2 ^ 14 } })
    (d.put R.KSN_ENG_STAT (engIx e) "IMASK" 1).pmc e 0x0D 1

/-- The lowest interrupt source that waits. -/
def lowIrq (l : List Nat) : Option Nat := (List.range 4).find? (fun n => l.contains n)

/-- R366, R372: an interrupt is taken at a boundary outside windows and handlers. -/
def Dev.engIrq (d : Dev) (e : Nat) : Dev :=
  let g := d.engOf e
  match lowIrq g.irqs with
  | some n => if d.canIssue e && g.handler.isNone && g.win.isNone then d.takeIrq e n else d
  | none => d

/-- R371–R373: the limit of an open window passes. -/
def Dev.winLimit (d : Dev) (e : Nat) : Dev :=
  let g := d.engOf e
  match g.win with
  | none => d
  | some w =>
    let d' := d.updEng e Eng.restoreWin
    match lowIrq g.irqs, g.handler with
    | some n, none => (d'.pmc e 0x0C 1).takeIrq e n
    | _, _ => d'.mcheck e 6 w.at_ false

/-! ## Roles (R364) -/

/-- R364: a write of ROLE; one that would leave the region no packet-role engine is refused. -/
def Dev.roleWrite (d : Dev) (p : Path) (e : Nat) (role : Bool) : Dev :=
  let others := (List.range 24).any (fun i => let f := e / 24 * 24 + i; f != e && !d.bit R.KSN_ENG_CFG (engIx f) "ROLE")
  if role && !others then d.hostAcc p 3 (R.KSN_ENG_CFG.addr (engIx e)) (2 * b2n role) true
  else d.put R.KSN_ENG_CFG (engIx e) "ROLE" (b2n role)

/-- R364: an engine at its idle point takes the role its register names. -/
def Dev.roleSwitch (d : Dev) (e : Nat) : Dev :=
  let role := d.bit R.KSN_ENG_CFG (engIx e) "ROLE"
  let idle := if d.threadRole e then d.engState e == 3 && (d.curSlot e).isNone else d.engState e == 0 && (d.engOf e).item.isNone
  if role == d.threadRole e || !idle then d else (d.notIdle e).takeRole e

/-! ## The cluster bus (R387–R389) -/

/-- R387: the rank of each requester of a cluster's bus, highest first: engines 0 to 7 and 8, the host aperture. -/
def Dev.busRank (d : Dev) (k : Nat) : List Nat := SMap.get d.eng.rank k (List.range 9)

/-- R387, R388: the arbiter of a cluster, at the end of a transfer, grants one of some beats to the requester of highest rank; with no request the bus
is idle. -/
def Dev.busGrant (d : Dev) (k : Nat) (req : List Nat) (beats : Nat) : Dev :=
  match (d.busRank k).find? (fun r => req.contains r) with
  | none => d.put R.KSN_BUS_STAT (clIx k) "BUSY" 0
  | some r =>
    let d := { d with eng := { d.eng with rank := SMap.set d.eng.rank k ((d.busRank k).filter (· != r) ++ [r]) (List.range 9) } }
    let ix := clIx k
    let d := ((d.put R.KSN_BUS_STAT ix "BUSY" 1).put R.KSN_BUS_STAT ix "OWNER" r).put R.KSN_BUS_STAT ix "BEATS" (min beats 65535)
    if r < 8 then d.pmc (8 * k + r) 4 1 else d

/-- R26: the scratch byte address that an aperture offset shows. -/
def Dev.aperture (d : Dev) (k off : Nat) : Nat := d.get R.KSN_SCR_PAGE (clIx k) "PAGE" * 0x20000 + off / 4 * 4 % 0x20000

/-- R26, R389: a host access through the scratch aperture. -/
def Dev.scrAccess (d : Dev) (p : Path) (k off : Nat) (wr : Option Word) : Dev :=
  let a := d.aperture k off
  match wr with
  | some v => d.swrite k a (leBytes 4 v.toNat)
  | none => d.ret p (leNat (d.sread k a 4))

/-- The BAR0 offset of a word of a cluster's aperture. -/
def apertureOff (k off : Nat) : Nat := R.KCS_PATCH_VER.addr (clIx k) + 0x20000 + off / 4 * 4 % 0x20000

/-- R389: an aperture access that is not granted in time: data 0 or the write discarded, and a host access error. -/
def Dev.scrTimeout (d : Dev) (p : Path) (k off : Nat) (wr : Option Word) : Dev :=
  match wr with
  | some v => d.hostAcc p 4 (apertureOff k off) v.toNat true
  | none => (d.ret p 0).hostAcc p 4 (apertureOff k off) 0 false

/-! ## Counters (R390, R391) -/

/-- R391: a write of PMC_EVSEL; a change of EVENT or ENGMASK clears the counter, a 1 in OVF clears it. -/
def Dev.evselWrite (d : Dev) (k n v : Nat) : Dev :=
  let ix := clIx k ++ [n]
  let same := d.get R.PMC_EVSEL ix "EVENT" == bitsOf v 7 0 && d.get R.PMC_EVSEL ix "ENGMASK" == bitsOf v 23 16
  let d := ((d.put R.PMC_EVSEL ix "EN" (bitsOf v 31 31)).put R.PMC_EVSEL ix "ENGMASK" (bitsOf v 23 16)).put R.PMC_EVSEL ix "EVENT" (bitsOf v 7 0)
  let d := if hasBit v 30 then d.put R.PMC_EVSEL ix "OVF" 0 else d
  if same then d else d.put R.PMC_CTR ix "COUNT" 0

/-- R679: a micro-PC sample. -/
def Dev.pcSample (d : Dev) (e : Nat) : Dev := d.engTrace e 3 0

end Sys2Proof.Machine
end

