-- ==== Sys2Proof/Machine/Hbm.lean ====
section
/-! DEFINITION. The HBM controllers (chapter 14): requests and their queues, accesses and their protection, drains, panic, refresh,
temperatures and eye tracking. -/

namespace Sys2Proof.Machine

/-! ## Requests (R496–R502) -/

/-- R496, R502: a request that the geometry has: its address lies in the pseudo-channel, its requester is assigned, and writers write. -/
def hbmReqOk (c u : Nat) (q : HbmReq) : Bool :=
  decide (q.sa < 2 ^ 34) && (saMap q.sa).chan == c % 16 && (saMap q.sa).pc == u && decide (q.req < 10) && decide (q.engine < 96)
    && (!([0, 4, 7].contains q.req) || !q.write) && (!([2, 3, 6].contains q.req) || q.write)

/-- R505: the operands of HBM_READ_COMPLETE describe a pseudo-channel and requests that it has. -/
def hbmReadOk (rd : HbmRead) : Bool := decide (rd.d < 2) && decide (rd.ch < 48) && decide (rd.u < 2) && rd.arr.all (hbmReqOk rd.ch rd.u)

/-- R507: the operands of PANIC_RAISE describe a pseudo-channel and requests that it has. -/
def panicOk (ch u : Nat) (arr : List HbmReq) : Bool := decide (ch < 96) && decide (u < 2) && arr.all (hbmReqOk ch u)

/-- R498, R499, R502, R522: a request lies in the window of its requester: readers of the flow table in a tag block or a slot of the copy that they
read, writers of it in their copy, the wadi in the pages used, engines in their area. -/
def Dev.reqOk (d : Dev) (c : Nat) (q : HbmReq) : Bool :=
  let reads := fun (m : Bool) => match flowAt (c / 16) q.sa with | some a => a.mir == (m && d.mirrorRd (raStack a.ra)) | none => false
  let engArea := decide (3 * 2 ^ 32 ≤ q.sa)
  match q.req with
  | 0 | 1 => reads true
  | 2 => d.mirrored && q.sa / 2 ^ 32 == 1
  | 3 => q.sa / 2 ^ 32 == 0
  | 4 => reads false
  | 5 => if q.write then engArea else reads false
  | 6 | 7 => decide (2 ^ 33 ≤ q.sa) && decide (q.sa < 2 ^ 33 + 2 ^ 28 * d.get R.BUF_WADI_SIZE [c / 48] "UNITS")
  | 8 => engArea || (!d.mirrored && q.sa / 2 ^ 32 == 1)
  | _ => true

/-! ## Trace and pseudo-channels (R513, R676) -/

/-- A pseudo-channel never used. -/
def PchS.zero : PchS := ⟨[], [], [], false, [], [], [], 0, 0⟩

/-- Pseudo-channel u of global channel c. -/
def Dev.pch (d : Dev) (c u : Nat) : PchS := SMap.get d.hbm.pch (2 * c + u) PchS.zero

/-- A pseudo-channel rewritten. -/
def Dev.updPch (d : Dev) (c u : Nat) (f : PchS → PchS) : Dev :=
  { d with hbm := { d.hbm with pch := SMap.set d.hbm.pch (2 * c + u) (f (d.pch c u)) PchS.zero } }

/-- R507: a flow-path read that has raised panic is at or past AGE_NS as it stands now. -/
def Dev.panicked (d : Dev) (c : Nat) (w : HbmWait) : Bool :=
  match w.issue with
  | some t => w.req.req == 0 && decide (((d.tim.raw.get (c / 48) : Nat) : Int) ≥ t + (d.get R.MEM_PANIC_CFG [c / 48] "AGE_NS" : Nat))
  | none => false

/-- R507, R508: the panic signal of a pseudo-channel: a flow-path read past its panic age waits, in the queue or for room in it, or the spill reader of the
die raises it. -/
def Dev.panicOn (d : Dev) (c u : Nat) : Bool :=
  ((d.pch c u).rq ++ (d.pch c u).held).any (d.panicked c) || d.srPanic (c / 48) (c % 48) u

/-- R676: a MEM record. -/
def Dev.memTrace (d : Dev) (c u typ bank req row col : Nat) : Dev :=
  let k := c / 48
  let sel := d.get R.TRC_SRC_CFG [k, 3] "SEL"
  d.trace k 3 typ (leBytes 1 (c % 48) ++ leBytes 1 (u + 2 * b2n (d.panicOn c u) + 4 * b2n (d.pch c u).drain) ++ leBytes 1 bank ++ leBytes 1 req
    ++ leBytes 2 row ++ leBytes 2 col) (hasBit sel 6 || sel % 64 == c % 48)

/-- R513: the rows beside a row. -/
def neighbours (row : Nat) : List Nat := (if row = 0 then [] else [row - 1]) ++ (if row = 16383 then [] else [row + 1])

/-- R513–R515: NEIGHBOUR_REFRESH_DRAW: an activation draws, and may queue a neighbour refresh. -/
def Dev.nrefDraw (d : Dev) (c u bank row : Nat) : Dev :=
  let k := c / 48
  if !d.bit R.MEM_CTL [k] "NR_EN" then d else
  let p := d.pch c u
  let v := Config.nrDraw (2 * c + u) d.hbm.seed p.draws
  let d := d.updPch c u (fun p => { p with draws := p.draws + 1 })
  if v % 2 ^ d.get R.MEM_CTL [k] "NRP" != 0 then d
  else if p.nref.length ≥ 8 then d.bump R.MEM_CH_NRDROP [k, c % 48, u] "COUNT" 1
  else d.updPch c u (fun p => { p with nref := p.nref ++ [(bank, row)] })

/-- R505: the row that stands open in a bank. -/
def PchS.openRow (p : PchS) (bank : Nat) : Option Nat := (p.opened.find? (fun x => x.1 == bank)).map (·.2)

/-- R505: a row opened in its bank, in place of the one before. -/
def PchS.opens (p : PchS) (bank row : Nat) : PchS := { p with opened := (bank, row) :: p.opened.filter (fun x => x.1 != bank) }

/-- R505, R676: a bank precharged. -/
def Dev.precharge (d : Dev) (c u bank : Nat) : Dev :=
  match (d.pch c u).openRow bank with
  | some r => (d.memTrace c u 4 bank 9 r 0).updPch c u (fun p => { p with opened := p.opened.filter (fun x => x.1 != bank) })
  | none => d

/-- R513: a neighbour refresh: an activate, which draws as every one does, and a precharge. -/
def Dev.nrefRow (d : Dev) (c u bank row : Nat) : Dev :=
  (((d.memTrace c u 1 bank 9 row 0).nrefDraw c u bank row).memTrace c u 4 bank 9 row 0).bump R.MEM_CH_NREF [c / 48, c % 48, u] "COUNT" 1

/-- R513, R514: the neighbour refreshes of a bank that are pending now performed, with the bank precharged before and after. -/
def Dev.nrefDo (d : Dev) (c u bank : Nat) : Dev :=
  let now := (d.pch c u).nref.filter (fun x => x.1 == bank)
  if now.isEmpty then d else
  let d := (d.updPch c u (fun p => { p with nref := p.nref.filter (fun x => x.1 != bank) })).precharge c u bank
  (now.flatMap (fun x => neighbours x.2)).foldl (fun d r => d.nrefRow c u bank r) d

/-- R513, R514: a row activated: pending neighbour refreshes of its bank come first. -/
def Dev.activate (d : Dev) (c u bank row req col : Nat) : Dev :=
  ((((d.nrefDo c u bank).precharge c u bank).memTrace c u 1 bank req row col).nrefDraw c u bank row).updPch c u (fun p => p.opens bank row)

/-! ## Errors of an access (R520, R523) -/

/-- R525: the error log of a channel. -/
def Dev.elast (d : Dev) (c : Nat) (q : HbmReq) (typ : Nat) : Dev :=
  let m := saMap q.sa
  let ix := [c / 48, c % 48]
  let d := d.setW R.MEM_CH_ELAST ix (2 ^ 31 + m.pc * 2 ^ 30 + m.bank * 2 ^ 25 + m.row * 2 ^ 10 + m.col)
  d.setW R.MEM_CH_ELAST_REQ ix ((if q.req = 8 then q.engine else 0) * 2 ^ 16 + typ * 2 ^ 8 + q.req)

/-- R523: an event of the channel with the log as its DETAIL. -/
def Dev.memEvent (d : Dev) (c : Nat) (q : HbmReq) (code cls typ : Nat) (inj : Bool) (r : Resp) : Dev :=
  let d := d.elast c q typ
  let ix := [c / 48, c % 48]
  d.errEvent (mkEvent (c / 48) code (c % 48) cls typ (leBytes 4 (d.getW R.MEM_CH_ELAST ix) ++ leBytes 4 (d.getW R.MEM_CH_ELAST_REQ ix))) inj r

/-- R520: the slots that a read of the sweeper or the walker covers are passed over in this visit. -/
def Dev.passOver (d : Dev) (c : Nat) (q : HbmReq) : Dev :=
  match flowAt (c / 16) q.sa with
  | none => d
  | some a =>
    let ras := if a.tag then (List.range 7).map (a.ra / 8 * 8 + ·) else [a.ra]
    { d with flw := { d.flw with pass := d.flw.pass ++ (ras.map (fun r => (q.req, r))).filter (fun x => !d.flw.pass.contains x) } }

/-- R453, R520: the page that a failed read of the spill reader, or a failed write of the spill writer, touches. -/
def Dev.pageFail (d : Dev) (c : Nat) (q : HbmReq) : Dev :=
  let hit := fun (p : Page) => if p.stack = c / 16 % 3 && p.n = (q.sa - 2 ^ 33) / 2048 then { p with bad := true } else p
  { d with buf := { d.buf with voq := SMap.mapv d.buf.voq (fun x v => if x / 1040 = c / 48 then { v with pages := v.pages.map hit, rd := v.rd.map hit } else v) } }

/-- R520: the data that an engine's load takes from a burst with a double-bit error are those read, whose bits are free values. -/
def Dev.loadSpoil (d : Dev) (c : Nat) (q : HbmReq) : Dev :=
  let k := q.engine / 48
  (d.engOf q.engine).infl.foldl (fun d i =>
    match i.ldh, i.vals with
    | some (ea, n), some vs =>
      let hit := fun (j : Nat) => match d.eaMap k (ea + 8 * j) with | some (s, sa) => s == c / 16 && sa / 32 == q.sa / 32 | none => false
      let (d, vs) := (vs.zip (List.range vs.length)).foldl (fun (x : Dev × List Nat) vj =>
        if hit vj.2 then (let (v, d) := x.1.fresh (2 ^ (8 * min 8 n)); (d, x.2 ++ [v])) else (x.1, x.2 ++ [vj.1])) (d, [])
      d.updEng q.engine (fun g => { g with infl := g.infl.map (fun y => if y.tok = i.tok then { y with vals := some vs } else y) })
    | _, _ => d) d

/-- R125, R128, R520: the tag block or record at the address of a read with a double-bit error: the copy read fails its check, and the mirror
copy too when it failed within the read. -/
def Dev.spoil (d : Dev) (c : Nat) (q : HbmReq) : Dev :=
  match flowAt (c / 16) q.sa with
  | none => d
  | some a =>
    let p := !a.mir
    let m := a.mir || q.mirrorErr
    if a.tag then
      let b := SMap.get d.flw.tagBad (a.ra / 8) (false, false)
      { d with flw := { d.flw with tagBad := SMap.put d.flw.tagBad (a.ra / 8) (b.1 || p, b.2 || m) } }
    else d.updSlot a.ra (fun s => { s with badP := s.badP || p, badM := s.badM || m })

/-- R520: whether the mirror copy repairs a double-bit error of a flow-path or update-unit read within the access. -/
def Dev.mirrorHeals (d : Dev) (q : HbmReq) : Bool := decide (q.req < 2) && d.mirrored && decide (q.sa < 2 ^ 32) && !q.mirrorErr

/-- R520, R523: a double-bit error. -/
def Dev.memDouble (d : Dev) (c u : Nat) (q : HbmReq) (inj : Bool) : Dev :=
  let d := d.bump R.MEM_CH_UE [c / 48, c % 48, u] "COUNT" 1
  let heal := d.mirrorHeals q
  let d := if [0, 1, 4, 5].contains q.req then d.spoil c q else d
  let d := if q.req = 4 || q.req = 5 then d.passOver c q else if q.req = 7 then d.pageFail c q else if q.req = 8 then d.loadSpoil c q else d
  if heal then d.memEvent c q 0x50 1 3 inj noResp
  else if q.req = 8 && d.armed (c / 48) 0x51 0 then (d.engResetAll q.engine false).memEvent c q 0x51 2 3 inj ⟨true, 0⟩
  else d.memEvent c q 0x51 2 3 inj noResp

/-- R520: a request completes with its data marked failed: the copy that it read or wrote, the page, or the load. -/
def Dev.markFailed (d : Dev) (c : Nat) (q : HbmReq) : Dev :=
  if q.req ≤ 3 then d.spoil c { q with mirrorErr := false }
  else if q.req ≤ 5 then d.passOver c q
  else if q.req ≤ 7 then d.pageFail c q
  else if q.req = 8 then d.loadSpoil c q else d

/-- R520: a corrected burst written back to the DRAM. Its requester code is that of the read: DESIGN CHOICE, log entry 160. -/
def Dev.writeBack (d : Dev) (c u : Nat) (q : HbmReq) : Dev :=
  let m := saMap q.sa
  (d.bump R.MEM_CH_BW [c / 48, c % 48, u] "BYTES" 32).memTrace c u 3 m.bank q.req m.row m.col

/-- R520: what an access finds. -/
def Dev.memErr (d : Dev) (c u : Nat) (q : HbmReq) (e : HbmErr) (inj : Bool) : Dev :=
  let ix := [c / 48, c % 48]
  match e with
  | .none => d
  | .onDie => (d.bump R.MEM_CH_ODE (ix ++ [u]) "COUNT" 1).memEvent c q 0x50 1 2 inj noResp
  | .single => ((d.bump R.MEM_CH_CE (ix ++ [u]) "COUNT" 1).memEvent c q 0x50 1 1 inj noResp).writeBack c u q
  | .parityRetried _ => (d.bump R.MEM_CH_LINK ix "COUNT" 1).memEvent c q 0x50 1 4 inj noResp
  | .parityFailed => (d.markFailed c q).memEvent c q 0x52 3 4 inj noResp
  | .double => d.memDouble c u q inj

/-- R502, R503: a request reads the DRAM: every read, and the update units' read-modify-writes. -/
def reqReads (q : HbmReq) : Bool := !q.write || q.req == 1

/-- R602, R616: the injection that an access meets; `rd` says whether it reads the DRAM. -/
def Dev.memInj (d : Dev) (c : Nat) (q : HbmReq) (rd : Bool) : Option HbmErr :=
  let k := c / 48
  if (d.injAt k 0x51 (c % 48) (q.sa / 32)).isSome && rd then some .double
  else if d.injArmed k 0x52 (c % 48) then some .parityFailed
  else if d.injArmed k 0x50 (c % 48) then
    (if d.get R.ERR_INJ [k] "KIND" = 1 then some (.parityRetried 1) else if rd then some .single else none)
  else none

/-- ECC errors are found on reads (R520). -/
def reqFound (q : HbmReq) (rd : Bool) : HbmErr :=
  match q.err with
  | .onDie | .single | .double => if rd then q.err else .none
  | e => e

/-- R618: an injected fault beside a natural one: the graver of the two is met, once. -/
def graver (a b : HbmErr) : HbmErr :=
  let r := fun (e : HbmErr) => match e with | .none => 0 | .onDie => 1 | .single => 2 | .parityRetried _ => 3 | .double => 4 | .parityFailed => 5
  if r a ≤ r b then b else a

/-- R520: what an access meets, by itself and by an injection. -/
def Dev.memCheck (d : Dev) (c u : Nat) (q : HbmReq) (rd : Bool) : Dev :=
  match d.memInj c q rd with
  | some e => (d.injPlanted (c / 48)).memErr c u q (graver e (reqFound q rd)) true
  | none => d.memErr c u q (reqFound q rd) false

/-! ## Queues (R503–R506) -/

/-- R506: a drain begins at MEM_WDRAIN.HI entries of the write queue and ends at LO. -/
def Dev.drainState (d : Dev) (c u : Nat) : Dev :=
  let hi := d.get R.MEM_WDRAIN [c / 48] "HI"
  let lo := d.get R.MEM_WDRAIN [c / 48] "LO"
  d.updPch c u (fun p => { p with drain := decide (hi ≤ p.wq.length) || (p.drain && decide (lo < p.wq.length)) })

/-- R503, R504: a request that comes to a pseudo-channel, not yet accepted. -/
def HbmWait.new (q : HbmReq) : HbmWait := ⟨q, none, 0, 0⟩

/-- R503, R504: the requests that wait at their requesters, oldest first, accepted into the queues of 64 while there is room. -/
def PchS.letIn (p : PchS) : PchS :=
  p.held.foldl (fun p w =>
    let mine := { w with seq := p.seq }
    if reqReads w.req then (if p.rq.length < 64 then { p with rq := p.rq ++ [mine], seq := p.seq + 1 } else { p with held := p.held ++ [w] })
    else if p.wq.length < 64 then { p with wq := p.wq ++ [mine], seq := p.seq + 1 } else { p with held := p.held ++ [w] }) { p with held := [] }

/-- R503: requests come to a pseudo-channel. -/
def Dev.accept (d : Dev) (c u : Nat) (arr : List HbmReq) : Dev :=
  (d.updPch c u (fun p => { p with held := p.held ++ arr.map HbmWait.new }.letIn)).drainState c u

/-- R503: a command slot while a write waits for room: the MCLKs that it waits are free, at least one. -/
def Dev.waitCount (d : Dev) (c u : Nat) : Dev :=
  if (d.pch c u).held.any (fun w => !reqReads w.req) then (let (n, d) := d.fresh (2 ^ 32); d.bump R.MEM_CH_WFULL [c / 48, c % 48, u] "COUNT" (n + 1)) else d

/-! ## Order of service (R505) -/

/-- R505: what a command slot is given to: a refresh of a bank, the read or write that stands at a place of its queue, the oldest pending neighbour
refresh, or nothing. -/
inductive Pick where
  | refresh (bank : Nat) | read (i : Nat) | write (i : Nat) | neighbour | nothing
  deriving DecidableEq, Repr

/-- R511: the bank whose refresh has been postponed for four intervals. -/
def PchS.overdue (p : PchS) : Option Nat := p.owed.find? (fun b => decide (4 < p.owed.count b))

/-- R505: a request whose row stands open. -/
def PchS.rowHit (p : PchS) (q : HbmReq) : Bool := p.openRow (saMap q.sa).bank == some (saMap q.sa).row

/-- R505, rank 5: a read that row hits have passed over 16 times, the oldest row hit, the oldest. -/
def PchS.otherRead (p : PchS) : Nat :=
  ((p.rq.findIdx? (fun w => decide (16 ≤ w.passed))).orElse (fun _ => p.rq.findIdx? (fun w => p.rowHit w.req))).getD 0

/-- R506: the write of the lowest row among the writes of a bank, the oldest of that row. -/
def PchS.writeOf (p : PchS) (bank : Nat) : Nat :=
  let mine := p.wq.filter (fun w => (saMap w.req.sa).bank == bank)
  let row := mine.foldl (fun r w => min r (saMap w.req.sa).row) 16383
  (p.wq.findIdx? (fun w => (saMap w.req.sa).bank == bank && (saMap w.req.sa).row == row)).getD 0

/-- R505, R506: a write: whose bank goes first is free, and within a bank the rows go in order. -/
def Dev.pickWrite (d : Dev) (c u : Nat) : Pick × Dev :=
  let p := d.pch c u
  let (n, d) := d.fresh p.wq.length
  (.write (p.writeOf (match p.wq[n]? with | some w => (saMap w.req.sa).bank | none => 0)), d)

/-- R505: the first class that has a request ready. A refresh that is not at its limit is postponed behind ranks 2 to 6 (R511). -/
def Dev.pick (d : Dev) (c u : Nat) : Pick × Dev :=
  let p := d.pch c u
  match p.overdue, p.rq.findIdx? (d.panicked c), if d.srPanic (c / 48) (c % 48) u then p.rq.findIdx? (fun w => w.req.req == 7) else none with
  | some b, _, _ => (.refresh b, d)
  | none, some i, _ => (.read i, d)
  | none, none, some i => (.read i, d)
  | none, none, none =>
    if p.drain && !p.wq.isEmpty then d.pickWrite c u
    else if !p.rq.isEmpty then (.read p.otherRead, d)
    else if !p.wq.isEmpty then d.pickWrite c u
    else match p.owed with
      | b :: _ => (.refresh b, d)
      | [] => (if p.nref.isEmpty then .nothing else .neighbour, d)

/-! ## Accesses (R503–R514, R520) -/

/-- R505: rows that the controller closed by itself before a slot: which is free. DESIGN CHOICE, log entry 126. -/
def Dev.shutRows (d : Dev) (c u : Nat) : Dev :=
  let (m, d) := d.fresh (2 ^ 32)
  (((d.pch c u).opened.map Prod.fst).filter (hasBit m)).foldl (fun d b => d.precharge c u b) d

/-- R520: an access to the DRAM, of which it reads when `rd`: its row is activated unless it stands open; an update unit's write follows its read in the same
activation (R503). -/
def Dev.access (d : Dev) (c u : Nat) (q : HbmReq) (rd : Bool) : Dev :=
  let m := saMap q.sa
  let d := if (d.pch c u).rowHit q then d else d.activate c u m.bank m.row q.req m.col
  let d := if rd then d.memTrace c u 2 m.bank q.req m.row m.col else d
  let d := if q.write then d.memTrace c u 3 m.bank q.req m.row m.col else d
  (d.bump R.MEM_CH_BW [c / 48, c % 48, u] "BYTES" (32 * (b2n rd + b2n q.write))).memCheck c u q rd

/-- R507, R509, R510: the age at which a flow-path read returns. One that raised no panic before its age reached AGE_NS raises it on the way. -/
def Dev.flowAge (d : Dev) (c u age : Nat) (w : HbmWait) : Dev :=
  if w.req.req != 0 then d else
  let ix := [c / 48, c % 48, u]
  let d := if age > 450 then d.bump R.MEM_CH_LATE ix "COUNT" 1 else d
  if w.issue.isNone && decide (d.get R.MEM_PANIC_CFG [c / 48] "AGE_NS" ≤ age) then d.bump R.MEM_CH_PANIC ix "COUNT" 1 else d

/-- R505: the read at place i leaves its queue; as a row hit it passes over the reads before it. -/
def PchS.took (p : PchS) (i : Nat) (hit : Bool) : PchS :=
  { p with rq := (p.rq.take i).map (fun w => if hit then { w with passed := w.passed + 1 } else w) ++ p.rq.drop (i + 1) }

/-- R504: the writes of the same bytes that were accepted before a read and still wait. -/
def PchS.earlier (p : PchS) (w : HbmWait) : List HbmWait := p.wq.filter (fun x => decide (x.seq < w.seq) && x.req.sa / 32 == w.req.sa / 32)

/-- R503, R504, R520: the read at place i is served, from the write queue where an earlier write of the same bytes waits there. Whether its bytes then count is
free: DESIGN CHOICE, log entry 126. An update unit's write does not enter the queue: those earlier writes go to the DRAM before it (DEDUCED, log entry 160). -/
def Dev.serveRead (d : Dev) (c u age i : Nat) : Dev :=
  let p := d.pch c u
  match p.rq[i]? with
  | none => d
  | some w =>
    let d := (d.updPch c u (fun p => p.took i (p.rowHit w.req))).flowAge c u age w
    let ws := p.earlier w
    if ws.isEmpty then d.access c u w.req true
    else
      let (n, d) := d.fresh 2
      let d := d.bump R.MEM_CH_BW [c / 48, c % 48, u] "BYTES" (32 * n)
      if !w.req.write then d
      else
        let d := d.updPch c u (fun p => { p with wq := p.wq.filter (fun x => !ws.contains x) })
        (ws.foldl (fun d x => d.access c u x.req false) d).access c u w.req false

/-- R511, R514: a refresh of a bank: its row closed, its pending neighbour refreshes performed. -/
def Dev.refreshBank (d : Dev) (c u bank : Nat) : Dev :=
  (((d.nrefDo c u bank).precharge c u bank).memTrace c u 5 bank 9 0 0).updPch c u (fun p => { p with owed := p.owed.erase bank })

/-- R505: what a slot was given to is served; room in the queues is taken. -/
def Dev.serve (d : Dev) (c u age : Nat) (x : Pick) : Dev :=
  let d := match x with
    | .refresh b => d.refreshBank c u b
    | .read i => d.serveRead c u age i
    | .write i => match (d.pch c u).wq[i]? with
      | some w => (d.updPch c u (fun p => { p with wq := p.wq.eraseIdx i })).access c u w.req false
      | none => d
    | .neighbour => match (d.pch c u).nref with
      | (b, _) :: _ => d.nrefDo c u b
      | [] => d
    | .nothing => d
  (d.waitCount c u).accept c u []

/-- R505: command slots until a read has been served; one slot where no read waits. -/
def Dev.slots (c u age : Nat) : Nat → Dev → Dev
  | 0, d => d
  | n + 1, d =>
    let (x, d) := (d.shutRows c u).pick c u
    let more := match x with | .read _ => false | _ => !(d.pch c u).rq.isEmpty
    let d := d.serve c u age x
    if more then Dev.slots c u age n d else d

/-- The slots after which a waiting read has been served: the refreshes owed and the writes can come before it. -/
def PchS.before (p : PchS) : Nat := p.owed.length + p.wq.length + p.held.length + 1

/-- A stack in self-refresh takes no request (R519). -/
def Dev.asleep (d : Dev) (c : Nat) : Bool := d.bit R.MEM_STACK_STAT [c / 48, c / 16 % 3] "SREF"

/-- R519: the requests that a controller accepts: none from the acceptance of a request for REST. -/
def Dev.admits (d : Dev) (arr : List HbmReq) : List HbmReq := if d.suspends then [] else arr

/-- R505, R520: HBM_READ_COMPLETE: the requests that came, and the service of the pseudo-channel up to the read that returns. -/
def Dev.hbmRead (d : Dev) (rd : HbmRead) : Dev :=
  let c := 48 * rd.d + rd.ch
  if d.asleep c then d else
  let d := d.accept c rd.u (d.admits rd.arr)
  Dev.slots c rd.u rd.ageNs (d.pch c rd.u).before d

/-- R507: a flow-path read reaches AGE_NS at the raw count `now`. -/
def HbmWait.ages (w : HbmWait) (now age : Nat) : HbmWait := { w with issue := some ((now : Int) - (age : Nat)) }

/-- R507, R509: the oldest flow-path read that has raised no panic, in the queue or waiting for room in it, reaches its panic age. -/
def Dev.panicRaise (d : Dev) (c u : Nat) (arr : List HbmReq) : Dev :=
  if d.asleep c then d else
  let d := d.accept c u (d.admits arr)
  let f := fun (w : HbmWait) => w.ages (d.tim.raw.get (c / 48)) (d.get R.MEM_PANIC_CFG [c / 48] "AGE_NS")
  let new := fun (w : HbmWait) => w.req.req == 0 && w.issue.isNone
  let ix := [c / 48, c % 48, u]
  match (d.pch c u).rq.findIdx? new, (d.pch c u).held.findIdx? new with
  | some i, _ => (d.updPch c u (fun p => { p with rq := p.rq.modify i f })).bump R.MEM_CH_PANIC ix "COUNT" 1
  | none, some i => (d.updPch c u (fun p => { p with held := p.held.modify i f })).bump R.MEM_CH_PANIC ix "COUNT" 1
  | none, none => d

/-- R511: a bank's refresh falls due: performed at once when it is at its limit or when nothing that may go before it waits. -/
def Dev.refreshDue (d : Dev) (c u bank : Nat) : Dev :=
  if d.asleep c then d else
  let d := d.updPch c u (fun p => { p with owed := p.owed ++ [bank] })
  let p := d.pch c u
  if (p.rq.isEmpty && p.wq.isEmpty) || decide (4 < p.owed.count bank) then d.refreshBank c u bank else d

/-! ## Self-refresh (R519) -/

/-- R519, R210: the operations that wait at the update units are applied. -/
def Dev.auuFinish (d : Dev) : Dev := (d.flw.auuq.map (·.raddr)).foldl (fun d ra => Dev.auuDrain ra d.flw.auuq.length d) d

/-- R519: the outstanding loads of the engines complete. -/
def Dev.loadsEnd (d : Dev) : Dev :=
  (d.eng.eng.map Prod.fst).foldl (fun d e => (d.ldhTime e).updEng e (fun g =>
    g.infl.foldl (fun g i => match i.ldh, i.vals with | some _, some vs => g.land i vs | _, _ => g) g)) d

/-- R519: the queues of a pseudo-channel emptied, slot by slot. -/
def Dev.emptyPch (c u : Nat) : Nat → Dev → Dev
  | 0, d => d
  | n + 1, d =>
    let p := d.pch c u
    if p.rq.isEmpty && p.wq.isEmpty then d else let (x, d) := (d.shutRows c u).pick c u; Dev.emptyPch c u n (d.serve c u 0 x)

/-- R519: steps 2 and 3: the update units' operations applied, the queues of every pseudo-channel empty, outstanding loads complete, banks precharged, pending neighbour refreshes discarded. -/
def Dev.quiesceHbm (d : Dev) : Dev :=
  let d := d.auuFinish
  let d := (d.hbm.pch.map Prod.fst).foldl (fun d x => Dev.emptyPch (x / 2) (x % 2) ((d.pch (x / 2) (x % 2)).before + (d.pch (x / 2) (x % 2)).rq.length) d) d
  let d := d.loadsEnd
  { d with hbm := { d.hbm with pch := SMap.mapv d.hbm.pch (fun _ (p : PchS) => { p with nref := [], owed := [], opened := [], drain := false }) } }

/-! ## Temperatures and tracking (R511, R512, R518) -/

/-- R511, R512: a temperature reading of a stack. -/
def Dev.stackTemp (d : Dev) (s : Nat) (t : Int) : Dev :=
  let k := s / 3
  let ix := [k, s % 3]
  if d.bit R.MEM_STACK_STAT ix "SREF" then d else
  let inj := d.injArmed k 0x54 (s % 3)
  let d := if inj then d.injPlanted k else d
  let t := if inj then 95 else t
  let d := d.put R.MEM_STACK_STAT ix "TEMP" (unsgn 8 t)
  let d := if t > 85 then d.put R.MEM_STACK_STAT ix "HOT" 1 else if t < 83 then d.put R.MEM_STACK_STAT ix "HOT" 0 else d
  if t ≥ 95 then (d.put R.MEM_STACK_STAT ix "OVERTEMP" 1).errEvent (mkEvent k 0x54 (s % 3) 3 1 (leBytes 1 (unsgn 8 t))) inj
  else if t < 93 then d.put R.MEM_STACK_STAT ix "OVERTEMP" 0 else d

/-- R524: MEM_TRAIN_STAT of a stack, a failed step, a CODE and a channel. -/
def trainWord (s step code chan : Nat) : Nat := step % 16 * 2 ^ 28 + code % 16 * 2 ^ 24 + s % 3 * 2 ^ 20 + chan % 16 * 2 ^ 16

/-- R523: a MEM_TRAIN record. -/
def Dev.trainRecord (d : Dev) (s w : Nat) (inj : Bool) : Dev := d.errEvent (mkEvent (s / 3) 0x53 (s % 3) 3 1 (leBytes 4 w)) inj

/-- R517, R518, R523: MEM_TRAIN reported for a stack. -/
def Dev.trainEvent (d : Dev) (s step code chan : Nat) : Dev :=
  (d.setW R.MEM_TRAIN_STAT [s / 3] (trainWord s step code chan)).trainRecord s (trainWord s step code chan) false

/-- R518: whether the read eyes of a die's stacks are tracked. -/
def Dev.tracks (d : Dev) (k : Nat) : Bool :=
  d.bit R.MEM_CTL [k] "TRACK_EN" && (match d.glb.mode with | .run | .drain | .proof => true | .load => d.bit R.GLB_BOOT_STATUS [] "TRAIN_DONE" | _ => false)

/-- R518: a read eye recentred; `edge` is the channel whose lane moved to the edge of its range. -/
def Dev.recentre (d : Dev) (s : Nat) (edge : Option Nat) : Dev :=
  match edge with
  | some c => if d.tracks (s / 3) then d.trainEvent s 0 6 c else d
  | none => d

end Sys2Proof.Machine
end

