-- ==== Sys2Proof/Machine/Err.lean ====
section
/-! DEFINITION. Error events that no other block raises, and fault injection (chapter 17). -/

namespace Sys2Proof.Machine

/-! ## Injection (R602, R616, R617) -/

/-- R596, R602: how many instances of a source die k has; package sources stand on die 0. -/
def instsOn (k code : Nat) : Nat := if !codes.contains code then 0 else if codeLevel code = 4 && k != 0 then 0 else codeInsts code

/-- R602: a row altered in the array only. The instance names a block of the die; which region window holds it is free. -/
def Dev.plantMism (d : Dev) (k b r : Nat) : Dev :=
  let (w, d) := d.fresh 2
  match d.rowOf (2 * k + w) b r with
  | none => d
  | some (p, i, j) =>
    let key := tKey (2 * k + w) p i
    let e := SMap.get d.mat.tcam key TEnt.blank
    let e := { e with val := Nat.xor e.val (2 ^ (160 * j)) }
    { d with mat := { d.mat with tcam := SMap.set d.mat.tcam key e TEnt.blank } }.markInj k 0x21 (rowKey (2 * k + w) b r)

/-- R602: two bits of a shadow altered. -/
def Dev.plantShadow (d : Dev) (k b r : Nat) : Dev :=
  let (w, d) := d.fresh 2
  match d.rowOf (2 * k + w) b r with
  | none => d
  | some _ => let key := rowKey (2 * k + w) b r; (d.markBad 0x22 key).markInj k 0x22 key

/-- R617: a synthesized record of a die. -/
def Dev.synth (d : Dev) (k code inst typ : Nat) : Dev := d.errEvent (mkEvent k code inst 2 typ []) true

/-- R602, R607: a flit of the die-to-die link fails its CRC: once, and its retry succeeds, or on all four tries, three of them retries. The link always
carries flits: DEDUCED, log entry 136. -/
def Dev.flitFault (d : Dev) (k kind : Nat) : Dev :=
  d.errEvent (mkEvent k 0x04 0 (if kind = 1 then 3 else 1) 1 [if kind = 1 then 3#8 else 1#8]) true

/-- R602, R617: what is planted or written at once when an injection is armed; every other fault waits for the access that meets it. -/
def Dev.plant (d : Dev) (k : Nat) : Dev :=
  let code := d.get R.ERR_INJ [k] "CODE"
  let inst := d.get R.ERR_INJ [k] "INST"
  let a := d.injAddr k
  match code with
  | 0x01 | 0x02 => (d.injPlanted k).synth k code inst (d.get R.ERR_INJ [k] "TYPE")
  | 0x03 => d.refLost
  | 0x04 => (d.injPlanted k).flitFault k (d.get R.ERR_INJ [k] "KIND")
  | 0x21 => (d.injPlanted k).plantMism k inst a
  | 0x22 => (d.injPlanted k).plantShadow k inst a
  | 0x30 =>
    let c := 6 * k + inst / 8
    let d := (d.injPlanted k).markInj k 0x30 (c * 2 ^ 14 + a % 2 ^ 14)
    { d with eng := { d.eng with csBad := d.eng.csBad ++ [(c, a % 2 ^ 14)] } }
  | 0x31 =>
    let c := 6 * k + inst
    let d := (d.injPlanted k).markInj k 0x31 (c * 256 + a % 256)
    { d with eng := { d.eng with dispBad := d.eng.dispBad ++ [(c, a % 256)] } }
  | 0x32 => d.watchdogBite (48 * k + inst)
  | 0x60 => d.pllLoss (32 * k + inst) false
  | 0x53 => let (c, d) := d.fresh 16; (d.injPlanted k).trainRecord (3 * k + inst) (trainWord (3 * k + inst) 0 6 c) true
  | _ => d

/-- The BAR0 offset of ERR_INJ of a die. -/
def injOff (k : Nat) : Nat := R.ERR_INJ.addr [k]

/-- The fields of ERR_INJ that a write sets. -/
def Dev.injFields (d : Dev) (k v : Nat) : Dev :=
  let d := (d.put R.ERR_INJ [k] "KIND" (bitsOf v 28 28)).put R.ERR_INJ [k] "CODE" (bitsOf v 22 16)
  (d.put R.ERR_INJ [k] "INST" (bitsOf v 13 8)).put R.ERR_INJ [k] "TYPE" (bitsOf v 7 0)

/-- R616: a write of ERR_INJ with GO = 1. -/
def Dev.injArm (d : Dev) (p : Path) (k v : Nat) : Dev :=
  if d.bit R.ERR_INJ [k] "GO" then d.hostAcc p 4 (injOff k) v true
  else if decide (bitsOf v 13 8 ≥ instsOn k (bitsOf v 22 16)) then d.hostAcc p 3 (injOff k) v true
  else ((d.injFields k v).put R.ERR_INJ [k] "GO" 1).plant k

/-- R616: a write of ERR_INJ with CANCEL = 1 withdraws a fault that has not been planted. -/
def Dev.injCancel (d : Dev) (k : Nat) : Dev := d.put R.ERR_INJ [k] "GO" 0

/-- R616: a write of ERR_INJ. -/
def Dev.injWrite (d : Dev) (p : Path) (k v : Nat) : Dev :=
  if hasBit v 30 then (d.injFields k v).injCancel k else if hasBit v 31 then d.injArm p k v else d.injFields k v

/-! ## Quiescing (R601) -/

/-- R601: a region holds no packet in its pipeline, commit window, VOQs or recirculation queue. -/
def Dev.regionEmpty (d : Dev) (g : Nat) : Bool :=
  d.pk.pkts.all (fun x => x.2.g != g) && d.buf.voq.all (fun x => x.1 / 520 != g || x.2.isEmpty)

/-- R601: IDLE of a die. -/
def Dev.quiesceIdle (d : Dev) (k : Nat) : Nat :=
  let r := d.get R.ERR_QUIESCE [k] "REGION"
  b2n (hasBit r 0 && d.regionEmpty (2 * k)) + 2 * b2n (hasBit r 1 && d.regionEmpty (2 * k + 1))

/-! ## Events without a row of their own (R595, R606, R608) -/

/-- R602: the classes that the events of a CODE take. -/
def codeClasses (code : Nat) : List Nat :=
  if code = 0x04 then [1, 3] else if [0x10, 0x20, 0x23, 0x41, 0x61].contains code then [1, 2] else if code = 0x50 then [1]
  else if [0x21, 0x22, 0x42, 0x52, 0x53, 0x54, 0x60].contains code then [3] else [2]

/-- R607: the highest TYPE of a CODE. -/
def codeTypes (code : Nat) : Nat :=
  if code = 0x01 then 6 else if code = 0x02 || code = 0x51 then 3 else if code = 0x50 || code = 0x52 then 4 else if code = 0x10 || code = 0x40 then 2 else 1

/-- R602: an event of the catalogue: its source, instance, level, class and die. -/
def evOk (ev : ErrEvent) : Bool :=
  decide (ev.d < 2) && decide (ev.inst < instsOn ev.d ev.code) && ev.level == codeLevel ev.code && (codeClasses ev.code).contains ev.cls
    && decide (1 ≤ ev.typ) && decide (ev.typ ≤ codeTypes ev.code)

/-- A field of an event's DETAIL, whose bytes count from byte 20 of the record (R606). -/
def evDet (ev : ErrEvent) (a n : Nat) : Nat := leAt ev.detail (a - 20) n

/-- R282: the mismatched row of a block that an event names, in the region window that has it. -/
def Dev.mismRow (d : Dev) (k b r : Nat) : Option (Nat × Nat × Nat) :=
  [2 * k, 2 * k + 1].findSome? (fun g => (d.rowOf g b r).bind (fun x =>
    let key := tKey g x.1 x.2.1
    if !d.mat.bad.contains (0x22, rowKey g b r) && (SMap.get d.mat.tcam key TEnt.blank).part x.2.2 != (SMap.get d.mat.shadow key TEnt.blank).part x.2.2 then
      some (g, key, x.2.2)
    else none))

/-- R448: the transfer whose lost cell an event names: all its cells have been sent, and the one has not arrived. -/
def Dev.lossOf (d : Dev) (ev : ErrEvent) : Option (Nat × Xfer) :=
  d.buf.xfer.find? (fun x =>
    let i := (evDet ev 24 2 + 65536 - x.2.seq) % 65536
    x.1 == xKey true (evDet ev 22 1) 0 (evDet ev 20 2) && eqRegion (d.voqTarget x.2.v) == 2 * ev.d + ev.inst && x.2.sent == x.2.total
      && decide (i < x.2.total) && !x.2.arrived.contains i)

/-- R567: a double-bit error in a FIFO of a port: the frame in it is stomped on transmit, made bad on receive. -/
def Dev.fifoFail (d : Dev) (p : Nat) (tx : Bool) : Dev :=
  if tx then d.updEgr p (fun g => { g with tx := g.tx.map (fun t =>
    match t.ent with | some e => { t with ent := some { e with stomp := true } } | none => { t with bytes := stompFcs t.bytes }) })
  else d.arrBad p

/-- R605, R608: an event of a source that can act, when what it names is in the part: the operation of the source, which records the event and carries the
armed response out. DEDUCED, log entry 153. -/
def Dev.eventOp (d : Dev) (ev : ErrEvent) : Option Dev :=
  let k := ev.d
  let e := 48 * k + ev.inst
  match ev.code with
  | 0x12 =>
    if (d.flw.pend.get k).any (fun x => x.idx == evDet ev 28 2 && x.region % 2 == ev.inst) && d.setupOver k (evDet ev 28 2) then some (d.setupTimeout k (evDet ev 28 2))
    else none
  | 0x21 => (d.mismRow k ev.inst (evDet ev 20 4)).map (fun x => d.tcamMism x.1 ev.inst (evDet ev 20 4) x.2.1 x.2.2)
  | 0x30 => if [1, 2].contains (d.engState e) then some (d.mcheck e (evDet ev 20 1) (evDet ev 22 2) (evDet ev 20 1 == 1)) else none
  | 0x32 => if d.wdogRuns e then some (d.watchdogBite e) else none
  | 0x41 =>
    match (d.egrOf (evDet ev 25 1)).tx.bind (·.ent) with
    | some t => if ev.cls = 2 && decide (evDet ev 25 1 < 64) && (d.chain t.n t.head).contains (k * 2 ^ 18 + evDet ev 20 3) then some (d.txEnd (evDet ev 25 1) true) else none
    | none => none
  | 0x61 =>
    if ev.cls = 2 then (d.portOfLane (32 * k + ev.inst)).map (fun p =>
      let inj := d.injArmed k 0x61 ev.inst
      (if inj then d.injPlanted k else d).fifoFail p (evDet ev 21 1 == 1) |>.errEvent ev inj) else none
  | 0x43 => (d.lossOf ev).map (fun x => (d.dropMid (evDet ev 22 1) x.2.v).reseqEnd (2 * k + ev.inst) x.1 x.2 false)
  | 0x51 =>
    if evDet ev 24 1 = 8 && evDet ev 26 2 / 48 == k && d.armed k 0x51 0 then some ((d.engResetAll (evDet ev 26 2) false).errEvent ev false ⟨true, 0⟩) else none
  | _ => none

/-- R605, R608, R616: an event is recorded, as injected when the armed injection of its die is of its source and instance. An armed response that has nothing to
act on does not complete: RESP 0xFF. -/
def Dev.recordEvent (d : Dev) (ev : ErrEvent) : Dev :=
  match d.eventOp ev with
  | some d => d
  | none => if d.injArmed ev.d ev.code ev.inst then (d.injPlanted ev.d).errEvent ev true else d.errEvent ev

end Sys2Proof.Machine
end

