-- ==== Sys2Proof/Machine/Sec.lean ====
section
/-! DEFINITION. Trace control (chapter 20) and the security domain (chapter 19): OTP, the measurement log, attestation, signed objects, vendor images. -/

namespace Sys2Proof.Machine

/-! ## Trace (R671, R681, R682) -/

/-- R671: a write of CLR. -/
def Dev.trcClear (d : Dev) (k : Nat) : Dev :=
  let d := { d with trc := d.trc.upd k (fun t => { t with buf := [], stored := 0, post := none }) }
  let d := d.put R.TRC_SEQ [k] "SEQ" 0
  d.setW R.TRC_STAT [k] 0

/-- R671, R681: a write of TRC_CTL. EN = 1 clears STOPPED, and capture continues. -/
def Dev.trcCtl (d : Dev) (k v : Nat) : Dev :=
  let d := d.trcSettle k
  let d := if hasBit v 29 then d.trcClear k else d
  let d := (d.put R.TRC_CTL [k] "EN" (bitsOf v 31 31)).put R.TRC_CTL [k] "MODE" (bitsOf v 30 30)
  if !hasBit v 31 then d else
  let d := d.put R.TRC_STAT [k] "STOPPED" 0
  { d with trc := d.trc.upd k (fun t => { t with post := if t.post = some 0 then none else t.post }) }

/-- R681: the records after the trigger are stored: capture stops. -/
def Dev.trcStop (d : Dev) (k : Nat) : Dev :=
  let d := d.trcSettle k
  if (d.trc.get k).post != some 0 then d else
  let d := (d.put R.TRC_STAT [k] "STOPPED" 1).put R.TRC_CTL [k] "EN" 0
  { d with trc := d.trc.upd k (fun t => { t with post := none }) }

/-- R676: a write of TRC_MARK. -/
def Dev.trcMark (d : Dev) (k v : Nat) : Dev := d.trace k 6 1 (leBytes 4 v)

/-- R682: RD_IDX of a path. -/
def Dev.trcIdx (d : Dev) (p : Path) (k : Nat) : Nat := match p with | .pcie => d.get R.TRC_RD_IDX [k] "INDEX" | .galley => (d.trc.get k).idxG

/-- R682: RD_IDX of a path set. -/
def Dev.setTrcIdx (d : Dev) (p : Path) (k v : Nat) : Dev :=
  match p with
  | .pcie => d.put R.TRC_RD_IDX [k] "INDEX" v
  | .galley => { d with trc := d.trc.upd k (fun t => { t with idxG := v % trcSize }) }

/-- R682: the record latched on a path. -/
def Dev.trcLatched (d : Dev) (p : Path) (k : Nat) : List Byte := match p with | .pcie => (d.trc.get k).latP | .galley => (d.trc.get k).latG

/-- R682: a read of TRC_RD_DATA[0] latches the record at RD_IDX and advances it. -/
def Dev.trcLatch (d : Dev) (p : Path) (k : Nat) : Dev :=
  let d := d.trcSettle k
  let i := d.trcIdx p k
  let r := SMap.get (d.trc.get k).buf i (List.replicate 32 0#8)
  let d := match p with
    | .pcie => { d with trc := d.trc.upd k (fun t => { t with latP := r }) }
    | .galley => { d with trc := d.trc.upd k (fun t => { t with latG := r }) }
  (d.setTrcIdx p k ((i + 1) % trcSize)).ret p (leAt r 0 4)

/-! ## Digests, roots and signed objects (R650–R652, R656) -/

/-- The 64-byte SHAKE256 output. -/
def shake64 (bs : List Byte) : List Byte := sliceB (Config.shake256 bs 64) 0 64

/-- The ASCII bytes of a string. -/
def ascii (s : String) : List Byte := s.toList.map (fun c => BitVec.ofNat 8 c.toNat)

/-- R656: the seeds of the imprint. -/
def SecS.seed (s : SecS) : List Byte := Config.shake256 (ascii "VT6400-IMPRINT" ++ s.dsecret) 96

/-- R657: the 16 bytes that name the imprint. -/
def SecS.imp16 (s : SecS) : List Byte := (shake64 s.pk).take 16

/-- R651: the active owner slot. -/
def SecS.slot (s : SecS) : Option Nat := if s.oroot.length = 0 then none else some (s.oroot.length - 1)

/-- R651: the active owner root. -/
def SecS.root (s : SecS) : Option (List Byte) := s.oroot.getLast?

/-- R87: bytes of a trailer. -/
def trailerLen : Nat := 29928

/-- R87: MAGIC, ALG and the reserved bytes of a trailer. -/
def trailerForm (t : List Byte) : Bool := t.take 4 == [0x56#8, 0x54#8, 0x43#8, 0x4C#8] && leAt t 4 2 == 1 && leAt t 6 2 == 0

/-- R87: PUBKEY. -/
def trailerKey (t : List Byte) : List Byte := sliceB t 8 64

/-- R87: DIGEST. -/
def trailerDigest (t : List Byte) : List Byte := sliceB t 72 64

/-- R87, R652: the digest and the signature of a trailer over a message. -/
def trailerSigned (msg t : List Byte) : Bool :=
  trailerDigest t == shake64 msg && Config.slhVerify (trailerKey t) (t.take 136) (sliceB t 136 29792)

/-- R652: a trailer under a root. -/
def trailerOk (root msg t : List Byte) : Bool := trailerForm t && t.length == trailerLen && shake64 (trailerKey t) == root && trailerSigned msg t

/-! ## The measurement log (R658–R660) -/

/-- R659, R660: an entry of the log. -/
def Dev.measure (d : Dev) (typ idx svn id : Nat) (digest : List Byte) : Dev :=
  let e := leBytes 1 typ ++ leBytes 1 idx ++ leBytes 2 svn ++ leBytes 4 0 ++ leBytes 8 d.tim.raw.d0 ++ leBytes 8 id ++ leBytes 8 0 ++ sliceB digest 0 64
  let s := d.sec
  let full := decide (s.log.length ≥ 256)
  let d := { d with sec := { s with mreg := shake64 (s.mreg ++ e), logn := s.logn + 1, log := if full then s.log else s.log ++ [e] } }
  let d := d.put R.SEC_LOG_STAT [] "COUNT" d.sec.log.length
  if full then (d.put R.SEC_LOG_STAT [] "OVF" 1).put R.SEC_STAT [] "LOG_OVF" 1 else d

/-- R658: the OTP as the log records it. -/
def SecS.otp (s : SecS) : List Byte :=
  s.vroot ++ (List.range 4).flatMap (fun i => sliceB (s.oroot.getD i []) 0 64) ++ s.impChk ++ leBytes 16 (2 ^ s.vsvn - 1) ++ leBytes 16 (2 ^ s.osvn - 1)

/-! ## The imprint (R656, R657) -/

/-- R656, R657, R67: the imprint derived and tested in ENROL. -/
def Dev.imprint (d : Dev) : Dev :=
  if d.glb.mode != .enrol || d.bit R.GLB_BOOT_STATUS [] "ENROL_DONE" then d else
  let pk := sliceB (Config.slhPublic d.sec.seed) 0 64
  let d := { d with sec := { d.sec with pk := pk } }
  if d.sec.imp16 = d.sec.impChk then d.put R.GLB_BOOT_STATUS [] "ENROL_DONE" 1 else d.put R.GLB_BOOT_STATUS [] "CODE" 4

/-! ## Owner root and floor commands (R665, R666) -/

/-- R665: a command ends with a CODE. -/
def Dev.otpDone (d : Dev) (code : Nat) : Dev := d.put R.SEC_OTP_STAT [] "CODE" code

/-- R665: the modes that run these commands. -/
def otpMode : Mode → Bool
  | .enrol | .load | .run | .drain => true
  | _ => false

/-- R666: whether a blob authorises a digest for a slot. -/
def SecS.authorised (s : SecS) (slot : Nat) (blob : List Byte) : Bool :=
  match s.root with
  | none => slot == 0
  | some r => trailerOk r (ascii "VTOWNER" ++ leBytes 1 slot ++ blob.take 64 ++ s.imp16) (sliceB blob 64 trailerLen)

/-- R665, R666, R669: PROG_OROOT; `blob` is what the DMA fetched. -/
def Dev.progOroot (d : Dev) (arg : Nat) (blob : Option (List Byte)) : Dev :=
  let s := d.sec
  if !otpMode d.glb.mode then d.otpDone 1
  else if d.bit R.SEC_STAT [] "MON" then d.otpDone 7
  else if s.oroot.length ≥ 4 then d.otpDone 3
  else if arg != s.oroot.length then d.otpDone 2
  else match (if d.dmaUp then blob else none) with
    | none => d.otpDone 6
    | some b =>
      if b.length < 64 || (arg != 0 && b.length < 29992) then d.otpDone 6
      else if !s.authorised arg b then d.otpDone 4
      else
        let dig := b.take 64
        let d := { d with sec := { s with oroot := s.oroot ++ [dig] } }
        (d.measure 7 arg 0 0 dig).otpDone 0

/-- R665: RAISE_OSVN. -/
def Dev.raiseOsvn (d : Dev) (arg : Nat) : Dev :=
  if !otpMode d.glb.mode then d.otpDone 1
  else if arg < d.sec.osvn || arg > 128 || arg > d.get R.GLB_FORME_INFO [] "SVN" then d.otpDone 5
  else ({ d with sec := { d.sec with osvn := arg } }.measure 8 1 0 arg []).otpDone 0

/-- R665: RAISE_VSVN. -/
def Dev.raiseVsvn (d : Dev) (arg : Nat) : Dev :=
  if !otpMode d.glb.mode then d.otpDone 1
  else if arg < d.sec.vsvn || arg > 128 || d.sec.vendorSvn.any (fun v => decide (arg > v)) then d.otpDone 5
  else ({ d with sec := { d.sec with vsvn := arg } }.measure 8 0 0 arg []).otpDone 0

/-! ## Attestation (R661–R664, R669) -/

/-- GLB_MODE.MODE of a mode (R53). -/
def Mode.code : Mode → Nat
  | .cold => 0 | .root => 1 | .enrol => 2 | .load => 3 | .run => 4 | .drain => 5 | .rest => 6 | .proof => 7

/-- R53: GLB_MODE. DIE1_DONE is 0: both dies complete a transition at one moment. -/
def GlbS.modeReg (g : GlbS) : Nat :=
  g.prev.code * 2 ^ 8 + b2n g.trans.isSome * 2 ^ 7 + (match g.trans with | some t => t.code | none => 0) * 2 ^ 3 + g.mode.code

/-- R664: attestation runs in the mode. -/
def Dev.attests (d : Dev) : Bool :=
  match d.glb.mode with
  | .enrol => d.bit R.GLB_BOOT_STATUS [] "ENROL_DONE"
  | .load | .run | .drain | .proof => true
  | _ => false

/-- R661: the statement. -/
def Dev.statement (d : Dev) : List Byte :=
  let s := d.sec
  [0x56#8, 0x54#8, 0x41#8, 0x54#8] ++ leBytes 2 1 ++ leBytes 1 d.gal.addr ++ leBytes 1 (s.slot.getD 0xFF) ++ leBytes 2 s.logn ++ leBytes 1 s.vsvn
    ++ leBytes 1 s.osvn ++ leBytes 4 d.glb.modeReg ++ leBytes 8 (d.getW R.GLB_FORME_ID []) ++ leBytes 4 (d.getW R.GLB_FORME_INFO [])
    ++ leBytes 4 (d.getW R.KCS_PATCH_VER [0, 0, 0]) ++ leBytes 8 d.tim.raw.d0 ++ s.mreg
    ++ (List.range 8).flatMap (fun i => leBytes 4 (d.getW R.SEC_ATT_NONCE [i])) ++ sliceB s.imp16 0 16 ++ leBytes 8 0

/-- The attestation ends with a CODE. -/
def Dev.attDone (d : Dev) (code : Nat) : Dev :=
  let d := { d with sec := { d.sec with stmt := none } }
  (d.put R.SEC_ATT_STAT [] "BUSY" 0).put R.SEC_ATT_STAT [] "CODE" code

/-- R661, R664, R669: a GO of SEC_ATT_CMD over PCIe. -/
def Dev.attStart (d : Dev) (p : Path) : Dev :=
  if d.bit R.SEC_ATT_STAT [] "BUSY" then d.hostAcc p 4 (R.SEC_ATT_CMD.addr []) 1 true
  else if !d.attests then d.hostAcc p 3 (R.SEC_ATT_CMD.addr []) 1 true
  else if d.bit R.SEC_STAT [] "MON" then d.attDone 2
  else
    let st := d.statement
    ({ d with sec := { d.sec with stmt := some st } }.put R.SEC_ATT_STAT [] "BUSY" 1).put R.SEC_ATT_STAT [] "LOGN" d.sec.logn

/-- R662, R663: the attestation in progress is signed and written to host memory. -/
def Dev.attComplete (d : Dev) (dmaOk : Bool) : Dev :=
  match d.sec.stmt with
  | none => d
  | some st =>
    if !dmaOk || !d.dmaUp then d.attDone 1
    else
      let sig := sliceB (Config.slhSign d.sec.seed st (ascii "VT6400-ATTEST")) 0 49856
      let a := d.get R.SEC_ATT_ADDR_LO [] "ADDR_LO" + d.get R.SEC_ATT_ADDR_HI [] "ADDR_HI" * 2 ^ 32
      (d.dma a (st ++ sig)).attDone 0

/-- R670: a read of SEC_MREG[0] latches the other words on its path. -/
def Dev.mregRead (d : Dev) (p : Path) : Dev :=
  let m := d.sec.mreg
  let d := match p with
    | .pcie => { d with sec := { d.sec with mregP := m } }
    | .galley => { d with sec := { d.sec with mregG := m } }
  d.ret p (leAt m 0 4)

/-! ## The test access port (R668) -/

/-- R668: BYPASS. -/
def Dev.tapBypass (d : Dev) : Dev := { d with sec := { d.sec with tapBypass := true } }

/-- R668: SAMPLE/PRELOAD: the boundary register holds the bits given. -/
def Dev.tapSample (d : Dev) (bits : List Bool) : Dev := { d with sec := { d.sec with tap := bits, tapBypass := false } }

/-- R668: EXTEST, which acts as BYPASS but in COLD. -/
def Dev.tapExtest (d : Dev) : Dev := if d.glb.mode = .cold then { d with sec := { d.sec with tapBypass := false } } else d.tapBypass

/-! ## Vendor images (R380, R381, R653–R655) -/

/-- R381: a record of a patch, boot image or CUCODE section: KIND, ADDR, and its words or entries. -/
structure URec where
  kind : Nat
  addr : Nat
  vals : List Nat
  deriving DecidableEq, Repr

/-- R381: bytes of one value of a KIND. -/
def recUnit (kind : Nat) : Nat := if kind = 1 then 24 else 4

/-- R381: bytes of a record with its padding. -/
def recLen (kind count : Nat) : Nat := 16 + (recUnit kind * count + 15) / 16 * 16

/-- R381: n records read from bytes, with what is left; none when the form is broken. -/
def readRecs : Nat → List Byte → Option (List URec × List Byte)
  | 0, bs => some ([], bs)
  | n + 1, bs =>
    let kind := byteAt bs 0
    let count := leAt bs 2 2
    let len := recLen kind count
    if bs.length < len || !(kind == 1 || kind == 2) || byteAt bs 1 != 0 || (sliceB bs 6 10).any (· != 0#8)
        || (sliceB bs (16 + recUnit kind * count) (len - 16 - recUnit kind * count)).any (· != 0#8) then none
    else
      let r : URec := ⟨kind, leAt bs 4 2, (List.range count).map (fun i => leAt bs (16 + recUnit kind * i) (recUnit kind))⟩
      (readRecs n (bs.drop len)).map (fun x => (r :: x.1, x.2))

/-- R381: the addresses or opcodes of a record, first and count. -/
def URec.span (r : URec) : Nat × Nat := (r.addr, r.vals.length)

/-- Two records name one word or one opcode. -/
def URec.overlaps (a b : URec) : Bool := a.kind == b.kind && decide (a.addr < b.addr + b.vals.length) && decide (b.addr < a.addr + a.vals.length)

/-- R380, R654: a record of vendor words or vendor entries. -/
def URec.vendor (r : URec) : Bool := decide (r.addr + r.vals.length ≤ (if r.kind = 1 then 0x3000 else 0x80))

/-- R380: the records of an image; none when the header or a record breaks the layout. A STEP that is not the part's is a matter of BASE (R383). -/
def imageRecs (magic : List Byte) (img : List Byte) : Option (List URec) :=
  if img.length < 64 + trailerLen || img.take 4 != magic || leAt img 4 2 != 1 || leAt img 6 2 = 0 || leAt img 6 2 > 256 || leAt img 8 4 != img.length
      || leAt img 20 4 != 0x6400 || (sliceB img 25 39).any (· != 0#8) || img.length > 524288 then none
  else match readRecs (leAt img 6 2) ((img.drop 64).take (img.length - 64 - trailerLen)) with
    | some (rs, []) => some rs
    | _ => none

/-- R87: the trailer of an image. -/
def imageTrailer (img : List Byte) : List Byte := img.drop (img.length - trailerLen)

/-- What a trailer covers. -/
def imageBody (img : List Byte) : List Byte := img.take (img.length - trailerLen)

/-- R356: a dispatch entry as the part holds it: CUST shows the area of ADDR. -/
def dispFix (v : Nat) : Nat := setBits v 28 14 (b2n (inCust (v % 2 ^ 14)) * 2 ^ 14)

/-- R25: a dispatch entry written to the twelve clusters. -/
def Dev.dispPut (d : Dev) (op v : Nat) : Dev :=
  let d := (List.range 12).foldl (fun d c => d.setW R.KCS_DISP (clIx c ++ [op]) v) d
  { d with eng := { d.eng with dispBad := d.eng.dispBad.filter (fun x => x.2 != op) } }

/-- R25: a record written to the twelve clusters. -/
def Dev.recPut (d : Dev) (r : URec) : Dev :=
  (r.vals.zip (List.range r.vals.length)).foldl (fun d x =>
    if r.kind = 1 then d.csPut (r.addr + x.2) x.1 else d.dispPut (r.addr + x.2) (dispFix x.1)) d

/-- KCS_PATCH_VER of every cluster. -/
def Dev.patchVer (d : Dev) (f : String) (v : Nat) : Dev := (List.range 12).foldl (fun d c => d.put R.KCS_PATCH_VER (clIx c) f v) d

/-! ### Boot (R653–R655) -/

/-- R654: MAGIC of a boot image. -/
def magicBoot : List Byte := [0x56#8, 0x54#8, 0x42#8, 0x49#8]

/-- R655: an image is valid on its own: its layout, its trailer, its floor. -/
def SecS.bootOk (s : SecS) (img : List Byte) : Bool :=
  (match imageRecs magicBoot img with | some rs => rs.all URec.vendor | none => false) && leAt img 14 2 == 0 && decide (byteAt img 24 ≤ 1)
    && trailerOk s.vroot (imageBody img) (imageTrailer img) && decide (leAt img 18 2 ≥ s.vsvn)

/-- R655: the directory index of the first image that is not valid: one that fails alone, differs in VER from the first, or overlaps another. -/
def SecS.bootFail (s : SecS) (is : List (Nat × List Byte)) : Option Nat :=
  (List.range is.length).find? (fun i =>
    let x : Nat × List Byte := is.getD i (0, [])
    !s.bootOk x.2 || leAt x.2 12 2 != leAt (is.getD 0 ((0 : Nat), ([] : List Byte))).2 12 2
      || (List.range is.length).any (fun j =>
        let y : Nat × List Byte := is.getD j (0, [])
        j != i && decide (x.1 < y.1 + y.2.length) && decide (y.1 < x.1 + x.2.length)))

/-- R67: a check in ROOT fails. -/
def Dev.bootStop (d : Dev) (code img : Nat) : Dev := (d.put R.GLB_BOOT_STATUS [] "CODE" code).put R.GLB_BOOT_STATUS [] "FAIL_IMAGE" img

/-- R654, R655: every image written to the control stores, its release shown, its measurement taken. -/
def Dev.bootWrite (d : Dev) (is : List (Nat × List Byte)) : Dev :=
  let d := is.foldl (fun d x => ((imageRecs magicBoot x.2).getD []).foldl Dev.recPut d) d
  let d := d.patchVer "BOOT_REL" (leAt (((is.head?).map Prod.snd).getD []) 12 2)
  let d := d.measure 1 0 0 Config.romRelease (shake64 Config.romImage)
  let d := (List.range is.length).foldl (fun d i =>
    let x : List Byte := (is.getD i (0, [])).2
    d.measure 2 i (leAt x 18 2) (leAt x 12 2) (trailerDigest (imageTrailer x))) d
  let d := d.measure 3 0 0 0 (shake64 d.sec.otp)
  let d := { d with sec := { d.sec with vendorSvn := is.map (fun (x : Nat × List Byte) => leAt x.2 18 2) } }
  d.put R.GLB_BOOT_STATUS [] "ROOT_DONE" 1

end Sys2Proof.Machine
end

