-- ==== Sys2Proof/Machine/Lookup.lean ====
section
/-! DEFINITION. From a BAR0 offset to the register that occupies it (R625). -/

namespace Sys2Proof.Machine

/-- The indices that an offset from a register's own stands for, and what is left over. -/
def decodeIx : List (Nat × Nat × Nat) → Nat → Option (List Nat × Nat)
  | [], rem => some ([], rem)
  | (lo, hi, st) :: ds, rem =>
    let i := min (rem / st) hi
    if i < lo then none else (decodeIx ds (rem - i * st)).map (fun x => (i :: x.1, x.2))

/-- A word of a register: its indices, and whether it is the high word of a 64-bit one. -/
structure Hit where
  r : RegSpec
  ix : List Nat
  high : Bool
  deriving DecidableEq, Repr

/-- The word of a register at an offset. -/
def RegSpec.hit (r : RegSpec) (off : Nat) : Option Hit :=
  if off < r.off then none else
  match decodeIx r.dims (off - r.off) with
  | some (ix, rem) => if rem = 0 then some ⟨r, ix, false⟩ else if rem = 4 && r.wide then some ⟨r, ix, true⟩ else none
  | none => none

/-- R438, R494: an instance of a register array that does not exist: egress queues 128–135 outside region 0 of die 0, queues 256–263 of
die 1. -/
def RegSpec.noInst (r : RegSpec) (ix : List Nat) : Bool :=
  (r.is R.TMG_EQ_PROF && decide (128 ≤ ix.getD 2 0) && ix.take 2 != [0, 0])
    || ([R.SCH_QUANTUM, R.SCH_DEFICIT, R.SCH_QSHP_W0, R.SCH_QSHP_W1, R.SCH_QSHP_TOK, R.SCH_QDEPTH, R.SCH_QPEAK, R.SCH_QDELAY,
        R.SCH_QDMAX].any (fun x => r.is x) && decide (256 ≤ ix.getD 1 0) && ix.getD 0 0 != 0)

/-- R626: the register word that occupies an offset; none where no register does. -/
def findReg (off : Nat) : Option Hit := R.all.findSome? (fun r => r.hit off)

end Sys2Proof.Machine
end

