-- ==== Sys2Proof/Machine/FormeImg.lean ====
section
/-! DEFINITION. Forme images (chapter 3): the header, the directory, the claims and the colophon, and the checks of R98 that rest on them. -/

namespace Sys2Proof.Machine

/-! ## Header and directory (R84–R87) -/

/-- R97: an outcome of a delivery: CAUSE, SECTION, OTHER, and RTYPE, DIE, INDEX of GLB_FORME_DETAIL. -/
structure FErr where
  cause : Nat
  sect : Nat
  other : Nat
  rtype : Nat
  die : Nat
  index : Nat
  deriving DecidableEq, Repr

/-- A cause that is tied to no section. -/
def FErr.plain (cause : Nat) : FErr := ⟨cause, 0xFF, 0xFF, 0, 0, 0⟩

/-- A cause tied to one section. -/
def FErr.at_ (cause sect : Nat) : FErr := ⟨cause, sect, 0xFF, 0, 0, 0⟩

/-- R84: MAGIC and KIND. -/
def fHead (img : List Byte) : Bool := img.take 4 == [0x56#8, 0x54#8, 0x46#8, 0x4D#8] && (byteAt img 6 == 1 || byteAt img 6 == 2)

/-- R84: a full forme. -/
def fFull (img : List Byte) : Bool := byteAt img 6 == 1

/-- R87: the colophon: the last 29,928 bytes. -/
def fColophon (img : List Byte) : List Byte := img.drop (img.length - trailerLen)

/-- R97: every other FORMAT test, of the header and the colophon; `len` is GLB_FORME_LEN. -/
def fFormat (img : List Byte) (len : Nat) : Bool :=
  leAt img 4 2 == 1 && leAt img 36 4 == 0x6400 && leAt img 12 4 == 0 && leAt img 34 2 == 0 && !(sliceB img 40 24).any (· != 0#8)
    && leAt img 16 8 != 0 && (leAt img 24 8 == 0) == fFull img && leAt img 8 4 == len && decide (len ≥ 30008) && decide (len ≤ 4194304) && img.length == len
    && trailerForm (fColophon img)

/-- R85: directory entry i. -/
def fDir (img : List Byte) (i : Nat) : List Byte := sliceB img (64 + 16 * i) 16
/-- R84: NSECT. -/
def fNsect (img : List Byte) : Nat := byteAt img 7
/-- R85: TYPE. -/
def eTyp (e : List Byte) : Nat := leAt e 0 2
/-- R85: NCLAIM. -/
def eNclaim (e : List Byte) : Nat := leAt e 2 2
/-- R85: OFFSET. -/
def eOff (e : List Byte) : Nat := leAt e 4 4
/-- R85: LENGTH. -/
def eLen (e : List Byte) : Nat := leAt e 8 4

/-- R86, R97: a directory entry at fault by itself. -/
def eBad (img e : List Byte) : Bool :=
  leAt e 12 4 != 0 || eTyp e == 0 || decide (eTyp e > 15) || eOff e % 64 != 0 || decide (eOff e < 64 + 16 * fNsect img)
    || decide (eOff e + eLen e > img.length - trailerLen) || decide (eNclaim e > 256) || decide (8 * eNclaim e > eLen e)

/-- R97: two entries at fault together: one TYPE, or overlapping sections. -/
def eClash (a b : List Byte) : Bool :=
  eTyp a == eTyp b || (decide (eOff a < eOff b + eLen b) && decide (eOff b < eOff a + eLen a))

/-- R98: the DIR fault with the lowest index. A number of entries out of range is tied to no entry. -/
def fDirFault (img : List Byte) : Option FErr :=
  let n := fNsect img
  if n = 0 || n > 32 || decide (64 + 16 * n > img.length - trailerLen) then some (FErr.plain 6) else
  (List.range n).findSome? (fun i =>
    if eBad img (fDir img i) then some (FErr.at_ 6 i) else
    ((span (i + 1) (n - 1)).find? (fun j => eClash (fDir img i) (fDir img j))).map (fun j => ⟨6, i, j, 0, 0, 0⟩))

/-- R91: a claim. -/
structure Claim where
  rtype : Nat
  die : Nat
  first : Nat
  count : Nat
  rsv : Nat
  deriving DecidableEq, Repr

/-- A section of an image, with its directory index. -/
structure FSec where
  i : Nat
  typ : Nat
  claims : List Claim
  body : List Byte
  deriving DecidableEq, Repr

/-- R86: a claim entry. -/
def Claim.of (c : List Byte) : Claim := ⟨byteAt c 0, byteAt c 1, leAt c 2 2, leAt c 4 2, leAt c 6 2⟩

/-- R86: the sections of an image, in directory order. -/
def fSecs (img : List Byte) : List FSec :=
  (List.range (fNsect img)).map (fun i =>
    let e := fDir img i
    let s := sliceB img (eOff e) (eLen e)
    ⟨i, eTyp e, (List.range (eNclaim e)).map (fun j => Claim.of (sliceB s (8 * j) 8)), s.drop (8 * eNclaim e)⟩)

/-- R88: the sections that an update may replace. -/
def inRun (typ : Nat) : Bool := [7, 8, 9, 0xA, 0xB, 0xC, 0xD, 0xF].contains typ

/-- R88: a full forme lacks a required section. -/
def fMissing (ss : List FSec) : Bool := !((span 1 8).all (fun t => ss.any (fun s => s.typ == t)))

/-! ## Claims (R91–R93) -/

/-- R91: the indices of a resource type, and the sections that may claim it. -/
def resource (rtype : Nat) : Option (Nat × Nat × List Nat) :=
  match rtype with
  | 1 => some (0, 3, [0xE])
  | 2 => some (0, 7, [0xE, 0xF, 5])
  | 3 => some (0, 15, [6, 0xF, 0xA])
  | 4 => some (0, 15, [3])
  | 5 => some (0, 63, [4])
  | 6 => some (0, 23, [2])
  | 7 => some (0, 2047, [0xB])
  | 8 => some (0x80, 0xFF, [0xD, 5])
  | 9 => some (0x3000, 0x3FFF, [0xD])
  | _ => none

/-- R91: the DIE values of a resource type. -/
def resDie (rtype die : Nat) : Bool := if rtype = 2 || rtype = 3 then die == 0 || die == 1 else die == 0xFF

/-- R97: RANGE of a claim: the index it reports. -/
def Claim.range (c : Claim) (typ : Nat) : Option Nat :=
  match resource c.rtype with
  | none => some c.first
  | some (lo, hi, by_) =>
    if !by_.contains typ || !resDie c.rtype c.die || c.count = 0 || c.rsv != 0 || c.first < lo || c.first > hi then some c.first
    else if c.first + c.count - 1 > hi then some (hi + 1) else none

/-- R92: the lowest index that two claims in conflict both name. -/
def Claim.meets (a b : Claim) : Option Nat :=
  if a.rtype = b.rtype && (a.die = b.die || a.die = 0xFF || b.die = 0xFF) && decide (a.first < b.first + b.count) && decide (b.first < a.first + a.count)
  then some (max a.first b.first) else none

/-- R93: whether claims cover an index of a resource. -/
def covers (cs : List Claim) (rtype die index : Nat) : Bool :=
  cs.any (fun c => c.rtype == rtype && (c.die == die || c.die == 0xFF) && decide (c.first ≤ index) && decide (index < c.first + c.count))

/-- R98: the first RANGE fault. Of several in one section the first in claim order is reported: DESIGN CHOICE, log entry 125. -/
def fRange (ss : List FSec) : Option FErr :=
  ss.findSome? (fun s => s.claims.findSome? (fun c => (c.range s.typ).map (fun i => ⟨9, s.i, 0xFF, c.rtype, c.die, i⟩)))

/-- The first conflict between the claims of two sections, the claim of the first named. -/
def clash (a b : List Claim) : Option (Claim × Nat) := a.findSome? (fun x => (b.findSome? (fun y => x.meets y)).map (fun i => (x, i)))

/-- The first conflict within the claims of one section. -/
def selfClash : List Claim → Option (Claim × Nat)
  | [] => none
  | c :: cs => match cs.findSome? (fun y => c.meets y) with | some i => some (c, i) | none => selfClash cs

/-- R98, R99: the first CONFLICT: the pair with the lowest index of the image, pairs of two of its sections before pairs with an active section,
those by TYPE. -/
def fConflict (ss : List FSec) (act : List Section) : Option FErr :=
  let err := fun (i o : Nat) (x : Claim × Nat) => (⟨0xA, i, o, x.1.rtype, x.1.die, x.2⟩ : FErr)
  ss.findSome? (fun s =>
    match selfClash s.claims with
    | some x => some (err s.i s.i x)
    | none =>
      match (ss.filter (fun t => decide (t.i > s.i))).findSome? (fun t => (clash s.claims t.claims).map (err s.i t.i)) with
      | some e => some e
      | none =>
        (span 1 15).findSome? (fun ty => (act.find? (fun a => a.typ == ty)).bind (fun a =>
          (clash s.claims (a.claims.map (fun c => ⟨c.1, c.2.1, c.2.2.1, c.2.2.2, 0⟩))).map (err s.i (0xC0 + ty)))))

/-- A resource that a body uses: RTYPE, DIE, index. -/
abbrev Use := Nat × Nat × Nat

/-- n fixed records of a size from an offset on, those that lie in the body. -/
def recsAt (b : List Byte) (o n sz : Nat) : List (List Byte) :=
  ((List.range n).filter (fun i => decide (o + sz * (i + 1) ≤ b.length))).map (fun i => sliceB b (o + sz * i) sz)

/-- R492: a register record: OFFSET, DIE, reserved bytes, VALUE. -/
structure RRec where
  off : Nat
  die : Nat
  rsv : Nat
  val : Nat
  deriving DecidableEq, Repr

/-- R492: the register records of a body. -/
def regRecs (b : List Byte) : List RRec := (recsAt b 0 (b.length / 16) 16).map (fun r => ⟨leAt r 0 4, byteAt r 4, leAt r 5 3, leAt r 8 8⟩)

/-- The register that a record names, within a die window. -/
def RRec.reg (r : RRec) : Option Hit := if r.off < 0x4000000 then findReg r.off else none

/-- R711: the owner opcode of a KCS_DISP record. -/
def RRec.dispOp (r : RRec) : Option Nat :=
  match r.reg with
  | some h => if h.r.is R.KCS_DISP && h.ix.take 4 == [0, 0, 0] ++ (h.ix.drop 3).take 1 && decide (h.ix.getD 3 0 ≥ 0x80) then some (h.ix.getD 3 0) else none
  | none => none

/-- R385: the records of a CUCODE body. -/
def cuRecs (b : List Byte) : Option (List URec) :=
  if b.length < 16 || leAt b 0 2 = 0 || leAt b 0 2 > 64 || (sliceB b 2 14).any (· != 0#8) then none else
  match readRecs (leAt b 0 2) (b.drop 16) with
  | some (rs, []) => some rs
  | _ => none

/-- R93: what a body uses of the resources. An index outside a resource is no resource; the section's own rules refuse it. -/
def bodyUses (typ : Nat) (b : List Byte) : List Use :=
  let us : List Use :=
    match typ with
    | 2 => (recsAt b 4 (byteAt b 0) 32).map (fun t => (6, 0xFF, byteAt t 0))
    | 3 => (recsAt b 4 (byteAt b 0) 96).flatMap (fun p => ((List.range 16).filter (fun i => hasBit (leAt p 2 2) i)).map (fun i => (4, 0xFF, i)))
    | 4 => (recsAt b 4 (byteAt b 0) 16).flatMap (fun t => (List.range (byteAt t 5)).map (fun i => (5, 0xFF, byteAt t 4 + i)))
    | 5 => (regRecs b).filterMap (fun r => r.dispOp.map (fun o => (8, 0xFF, o)))
    | 6 => (recsAt b 16 (byteAt b 1) 8).map (fun p => (3, byteAt p 0, byteAt p 1))
    | 0xB => (recsAt b 0 (b.length / 72) 72).map (fun p => (7, 0xFF, leAt p 0 2))
    | 0xD => ((cuRecs b).getD []).flatMap (fun r => (List.range r.vals.length).map (fun i => (if r.kind = 1 then 9 else 8, 0xFF, r.addr + i)))
    | 0xE => (recsAt b 4 (byteAt b 0) 8).map (fun p => (1, 0xFF, byteAt p 0))
        ++ ((recsAt b 4 (byteAt b 0) 8).filter (fun p => byteAt p 1 == 3)).map (fun p => (2, 0, byteAt p 3))
        ++ (recsAt b (4 + 8 * byteAt b 0) (byteAt b 1) 16).map (fun t => (2, byteAt t 1, byteAt t 0))
    | _ => []
  us.filter (fun u => match resource u.1 with
    | some (lo, hi, _) => decide (lo ≤ u.2.2) && decide (u.2.2 ≤ hi) && resDie u.1 u.2.1
    | none => false)

/-- The use with the lowest index, then the lowest RTYPE, then the lowest DIE. -/
def lowestUse : List Use → Option Use
  | [] => none
  | u :: us =>
    match lowestUse us with
    | none => some u
    | some v => if u.2.2 < v.2.2 || (u.2.2 = v.2.2 && (u.1 < v.1 || (u.1 = v.1 && u.2.1 ≤ v.2.1))) then some u else some v

/-- R93, R98: the first UNCLAIMED fault. -/
def fUnclaimed (ss : List FSec) : Option FErr :=
  ss.findSome? (fun s =>
    (lowestUse ((bodyUses s.typ s.body).filter (fun u => !covers s.claims u.1 u.2.1 u.2.2))).map (fun u => ⟨0xB, s.i, 0xFF, u.1, u.2.1, u.2.2⟩))

/-! ## Capabilities (R95) -/

/-- R711: the value that the last record naming a register gives. -/
def lastRec (rs : List RRec) (r : RegSpec) (ix : List Nat) : Option Nat :=
  (rs.filter (fun x => match x.reg with | some h => h.r.is r && h.ix == ix && !h.high | none => false)).getLast?.map (·.val)

/-- R95: a section requires a capability that the silicon lacks. A key form record with CELLPLAN = 1 counts whatever its EN: DESIGN CHOICE, log entry
125. -/
def capLacks (s : FSec) : Bool :=
  let rs := regRecs s.body
  match s.typ with
  | 5 => (!Config.capPresent 0x3 && hasBit ((lastRec rs R.FLW_CTL [0]).getD 0) 0)
      || (!Config.capPresent 0xA && (List.range 16).any (fun n => hasBit ((lastRec rs R.FLW_KFORM [0, n]).getD 0) 19))
  | 6 => !Config.capPresent 0x6 && byteAt s.body 0 == 1
  | 0xA => !Config.capPresent 0x5 && rs.any (fun r => match r.reg with
      | some h => h.r.is R.TSN_SF_W1 && (hasBit r.val 31 || hasBit r.val 30)
      | none => false)
  | 0xB => !Config.capPresent 0x4
  | 0xD => !Config.capPresent 0x7
  | _ => false

/-- R98: the first CAP fault. -/
def fCap (ss : List FSec) : Option FErr := (ss.find? capLacks).map (fun s => FErr.at_ 7 s.i)

end Sys2Proof.Machine
end

