-- ==== Sys2Proof/Machine/FormeBody.lean ====
section
/-! DEFINITION. The CAPACITY checks of section bodies (R86, R94, and the body rules of each section's own chapter). A field outside the range that its
layout gives, a reserved field that is not 0, and a body that its header does not measure are malformed. -/

namespace Sys2Proof.Machine

/-- Bytes o to o + n − 1 are 0. -/
def zeros (b : List Byte) (o n : Nat) : Bool := !(sliceB b o n).any (· != 0#8)

/-- No value twice. -/
def distinct (l : List Nat) : Bool := match l with | [] => true | x :: xs => !xs.contains x && distinct xs

/-! ## FLOW (R133, R321, R711) -/

/-- R711, R132: the key form n that a FLOW body leaves, as FLW_KFORM holds it. -/
def flowForm (b : List Byte) (n : Nat) : Nat := (lastRec (regRecs b) R.FLW_KFORM [0, n]).getD 0

/-- Whether a key form is defined. -/
def formEn (b : List Byte) (n : Nat) : Bool := hasBit (flowForm b n) 31

/-- R142: the largest FLW_LIMIT of a placement. -/
def maxLimit (mirrored : Bool) : Nat := if mirrored then 0x4000000 else 0x8000000

/-- R711: whether a FLOW record is one the section may hold. -/
def Dev.flowRecOk (d : Dev) (mirrored : Bool) (r : RRec) : Bool :=
  r.rsv == 0 && (match r.reg with
  | none => false
  | some h =>
    if h.high then false
    else if h.r.is R.FLW_CTL || h.r.is R.FLW_SEED || h.r.is R.FLW_KFORM || h.r.is R.FLW_TMPL then r.die == 0xFF
    else if h.r.is R.FLW_LIMIT then (r.die == 0xFF || r.die == 0 || r.die == 1) && decide (r.val % 2 ^ 28 ≤ maxLimit mirrored)
    else match r.dispOp with
      | some _ => r.die == 0xFF && decide (r.val % 256 < 0x80) && hasBit (d.dispEntry 0 (r.val % 256)) 30
      | none => false)

/-- R711: whether an opcode may be the SETUP_OP of a key form: a valid vendor entry, or an owner entry that the forme assigns. -/
def Dev.setupOpOk (d : Dev) (b : List Byte) (cu : Option (List Byte)) (op : Nat) : Bool :=
  if op < 0x80 then hasBit (d.dispEntry 0 op) 31
  else (regRecs b).any (fun r => r.dispOp == some op)
    || (((cu.bind cuRecs).getD []).any (fun r => r.kind == 2 && decide (r.addr ≤ op) && (match r.vals[op - r.addr]? with | some v => hasBit v 31 | none => false)))

/-- R132, R133, R321: the rules of one key form. -/
def Dev.formOk (d : Dev) (b : List Byte) (cu : Option (List Byte)) (n : Nat) : Bool :=
  let f := flowForm b n
  !hasBit f 31 || (bitsOf f 30 29 != 3 && bitsOf f 21 20 != 3 && hasBit f 24 == hasBit f 23 && hasBit f 26 == hasBit f 25
    && (!hasBit f 19 || bitsOf f 30 29 == 1) && (hasBit f 22 || d.setupOpOk b cu (bitsOf f 15 8)))

/-- R711: a FLOW body. -/
def Dev.flowOk (d : Dev) (b : List Byte) (cu : Option (List Byte)) : Bool :=
  let rs := regRecs b
  b.length % 16 == 0 && rs.all (d.flowRecOk (hasBit ((lastRec rs R.FLW_CTL [0]).getD 0) 0)) && (List.range 16).all (d.formOk b cu)

/-! ## PARSE (R240–R248) -/

/-- R241, R248: a state record, given the section's states, NTRANS and the FLOW body. -/
def stateOk (ids : List Nat) (ntrans : Nat) (flow s : List Byte) : Bool :=
  let tr := leAt s 14 2
  decide (byteAt s 0 < 128) && decide (byteAt s 1 < 0x0C) && decide (byteAt s 2 < 8) && decide (leAt s 10 2 < 512) && decide (byteAt s 12 ≤ 64)
    && decide (leAt s 10 2 + byteAt s 12 ≤ 512) && decide (bitsOf tr 9 0 + bitsOf tr 15 10 ≤ ntrans)
    && (!hasBit (byteAt s 2) 1 || (formEn flow (byteAt s 3 % 16) && decide (byteAt s 3 < 32)))
    && decide (byteAt s 13 + 2 ≤ byteAt s 9) && (byteAt s 7 == 0 || decide (byteAt s 6 + 1 ≤ byteAt s 9)) && ids.contains (byteAt s 0)

/-- R240, R243, R248: a PARSE body. -/
def parseOk (b flow : List Byte) : Bool :=
  let n := byteAt b 0
  let nt := leAt b 2 2
  let ss := recsAt b 16 n 16
  let ids := ss.map (byteAt · 0)
  decide (1 ≤ n) && decide (n ≤ 128) && byteAt b 1 == 0 && decide (nt ≤ 1024) && decide (64 ≤ leAt b 4 2) && decide (leAt b 4 2 ≤ 256) && zeros b 6 10
    && b.length == 16 + 16 * n + 8 * nt && distinct ids && ss.all (stateOk ids nt flow)
    && (recsAt b (16 + 16 * n) nt 8).all (fun t => (byteAt t 4 == 0xFF || ids.contains (byteAt t 4)) && zeros t 5 3)

/-! ## TABLES (R182, R249, R250, R253–R258, R292) -/

/-- R256: the stage time of a table after the FLOW slot, in CCLK. -/
def stageTime (t : List Byte) : Nat :=
  match dType t with
  | 0 => if dSize t = 4 then 20 else 16
  | 1 => 20
  | _ => 8

/-- R258, R710: the key bytes of a table. -/
def keyWidth (t : List Byte) : Nat :=
  match dType t with
  | 0 => 20 * dSize t
  | 1 => dSize t
  | 3 => if dHidx t then 0 else (dSize t + 7) / 8
  | _ => 0

/-- R253: SIZE of a TYPE. -/
def sizeOk (t : List Byte) : Bool :=
  match dType t with
  | 0 => [1, 2, 4].contains (dSize t)
  | 1 => decide (1 ≤ dSize t) && decide (dSize t ≤ 80)
  | 2 => dSize t == 0 && dRlen t == 0
  | _ => decide (1 ≤ dSize t) && decide (dSize t ≤ 20)

/-- R250: whether a result writes a metadata byte among those given. -/
def writesAny (t : List Byte) (bs : List Nat) : Bool := bs.any (fun b => decide (dRdst t ≤ b) && decide (b < dRdst t + dRlen t))

/-- R249: a pre-hash table, given all the descriptors and the FLOW body. -/
def preOk (ts : List (List Byte)) (flow t : List Byte) : Bool :=
  let s := dSlot t % 12
  dType t == 3 && !dHidx t && (s == 0 || (s == 1 && ts.any (fun u => dPre u && dSlot u == dSlot t - 1)))
    && !writesAny t (span 3 6 ++ span 8 31) && (List.range 16).all (fun n => !hasBit (leAt t 6 2) n || formEn flow n)

/-- R253, R258, R292: a descriptor. -/
def descOk (ts : List (List Byte)) (flow t : List Byte) : Bool :=
  decide (dSlot t < 24) && decide (dType t < 4) && decide (byteAt t 2 < 4) && (!dHidx t || dType t == 3) && sizeOk t
    && decide (dRlen t ≤ 8) && decide (dRdst t + dRlen t ≤ 32) && zeros t 28 4
    && (List.range 4).all (fun i => leAt t (12 + 4 * i) 4 % 2 ^ 24 / 1024 % 64 == 0 && byteAt t (15 + 4 * i) == 0)
    && (dSegs t).all (fun s => decide (s.1 ≤ 543) && decide (s.1 + s.2 ≤ 544))
    && decide (((dSegs t).map Prod.snd).sum ≤ keyWidth t)
    && (if dPre t then preOk ts flow t else leAt t 6 2 == 0 && !writesAny t [0, 1, 2, 12, 16, 17, 18])
    && (dType t != 1 || decide (dId t < 0x8000) || (dSize t == 8 && ((dId t == 0x8000 && decide (dRlen t ≤ 3)) || (dId t == 0x8001 && dRlen t == 0))))

/-- R255, R182: one pass: at most one FLOW table, and its action-dependent stages. -/
def passOk (ts : List (List Byte)) (pass : Nat) : Bool :=
  let ps := ts.filter (fun t => dSlot t / 12 == pass)
  let fs := ps.filter (fun t => dType t == 2)
  match fs with
  | [] => true
  | [f] => decide (((ps.filter (fun t => decide (dSlot t > dSlot f))).map stageTime).sum ≤ 64)
  | _ => false

/-- R253: the descriptors of a TABLES body. -/
def bodyDescs (b : List Byte) : List (List Byte) := recsAt b 4 (byteAt b 0) 32

/-- R253, R258: a TABLES body. -/
def tablesOk (b flow : List Byte) : Bool :=
  let n := byteAt b 0
  let ts := bodyDescs b
  decide (1 ≤ n) && decide (n ≤ 24) && zeros b 1 3 && b.length == 4 + 32 * n && distinct (ts.map dSlot) && ts.all (descOk ts flow) && passOk ts 0 && passOk ts 1

/-! ## TCAM and EXACT (R94, R268, R269, R285, R286) -/

/-- R94, R269: blocks form whole groups of w from a multiple of w. -/
def groupsOk (w blocks : Nat) : Bool :=
  (List.range 16).all (fun b => !hasBit blocks b || (List.range w).all (fun j => hasBit blocks (b / w * w + j)))

/-- R268, R269: a TCAM body against the TABLES body. -/
def tcamOk (b tables : List Byte) : Bool :=
  let n := byteAt b 0
  let ps := recsAt b 4 n 96
  decide (1 ≤ n) && decide (n ≤ 16) && zeros b 1 3 && b.length == 4 + 96 * n && distinct (ps.map (byteAt · 0))
    && ps.all (fun p => decide (byteAt p 0 < 16) && [1, 2, 4].contains (byteAt p 1) && groupsOk (byteAt p 1) (leAt p 2 2) && zeros p 4 12
      && zeros p (16 + 20 * byteAt p 1) (80 - 20 * byteAt p 1))
    && (List.range 16).all (fun k => decide ((ps.filter (fun p => hasBit (leAt p 2 2) k)).length ≤ 1))
    && (bodyDescs tables).all (fun t => dType t != 0 || ps.any (fun p => byteAt p 0 == dId t && byteAt p 1 == dSize t))

/-- R285, R286: a table record. -/
def xRecOk (t : List Byte) : Bool :=
  let sz := byteAt t 2
  let nb := byteAt t 5
  zeros t 3 1 && zeros t 6 2 && decide (1 ≤ nb) && decide (byteAt t 4 + nb ≤ 64) &&
    (if byteAt t 1 = 0 then decide (byteAt t 0 < 32) && decide (1 ≤ sz) && decide (sz ≤ 80) && nb % 2 == 0
     else byteAt t 1 == 1 && decide (64 ≤ byteAt t 0) && decide (byteAt t 0 < 96) && decide (1 ≤ sz) && decide (sz ≤ 20) && decide (8 * 2 ^ sz ≤ 65536 * nb))

/-- R285, R286: an EXACT body against the TABLES body. -/
def exactOk (b tables : List Byte) : Bool :=
  let n := byteAt b 0
  let rs := recsAt b 4 n 16
  decide (n ≤ 64) && zeros b 1 3 && b.length == 4 + 16 * n && distinct (rs.map (byteAt · 0)) && rs.all xRecOk
    && (List.range 64).all (fun k => decide ((rs.filter (fun r => decide (byteAt r 4 ≤ k) && decide (k < byteAt r 4 + byteAt r 5))).length ≤ 1))
    && (bodyDescs tables).all (fun t =>
      !(dType t == 1 && decide (dId t < 0x8000) || dType t == 3)
        || rs.any (fun r => byteAt r 0 == dId t && byteAt r 2 == dSize t && byteAt r 1 == (if dType t = 1 then 0 else 1)))

/-! ## QUEUE and QUOTA (R431, R432, R437) -/

/-- R431, R432: a QUEUE body. -/
def queueOk (b : List Byte) : Bool :=
  let n := byteAt b 1
  let ps := recsAt b 16 n 8
  let names := ps.map (fun p => 16 * byteAt p 0 + byteAt p 1)
  decide (byteAt b 0 < 2) && decide (1 ≤ n) && decide (n ≤ 32) && decide (byteAt b 3 < 8) && decide (byteAt b 4 ≤ 16) && zeros b 5 11
    && b.length == 16 + 8 * n + 16 && distinct names
    && ps.all (fun p => decide (byteAt p 0 < 2) && decide (byteAt p 1 < 16) && zeros p 2 2 && decide (256 ≤ leAt p 4 4))
    && (List.range 2).all (fun k => decide (((ps.filter (fun p => byteAt p 0 == k)).map (fun p => leAt p 4 4)).sum ≤ 258048))
    && (List.range 16).all (fun j => ps.any (fun p => byteAt p 0 == j / 8 && byteAt p 1 == byteAt b (16 + 8 * n + j)))

/-- R437, R438: a QUOTA record; egress queues 128–135 exist in region 0 (die 0) only. -/
def quotaRecOk (r : List Byte) : Bool :=
  let i := leAt r 2 2
  let v := leAt r 4 4
  (byteAt r 1 == 0xFF || decide (byteAt r 1 < 2)) &&
    (match byteAt r 0 with
     | 1 => decide (i ≤ 10) && decide (v < 2 ^ 19)
     | 2 => decide (i < 32) && decide (v < 2 ^ 19)
     | 3 => decide (i / 1024 < 2) && decide (i % 1024 < 520) && decide (v < 32)
     | 4 => decide (i / 256 < 2) && decide (i % 256 < 136) && (decide (i % 256 < 128) || (i / 256 == 0 && byteAt r 1 == 0)) && decide (v < 32)
     | _ => false)

/-- R437: a QUOTA body. -/
def quotaOk (b : List Byte) : Bool := b.length % 8 == 0 && (recsAt b 0 (b.length / 8) 8).all quotaRecOk

/-! ## SCHED, GATE and STREAM (R473, R476, R492) -/

/-- R492: the registers that a section's records may name. -/
def secRegs (typ : Nat) : List RegSpec :=
  match typ with
  | 8 => [R.SCH_PORT_CFG, R.SCH_PORT_OVH, R.SCH_PSHP_W0, R.SCH_PSHP_W1, R.SCH_QUANTUM, R.SCH_QSHP_W0, R.SCH_QSHP_W1,
      R.TSN_MTR_W0, R.TSN_MTR_W1, R.TSN_MTR_W2, R.TSN_MTR_W3]
  | 9 => [R.SCH_PORT_CFG, R.SCH_GATE_CTL, R.SCH_GATE_CYCLE, R.SCH_GATE_BASE_NS, R.SCH_GATE_BASE_SEC, R.SCH_GATE_LIST]
  | 0xA => [R.TSN_SID_W0, R.TSN_SID_W1, R.TSN_SID_W2, R.TSN_SF_W0, R.TSN_SF_W1, R.TSN_RCV_W0, R.TSN_RCV_W1]
  | _ => []

/-- R468, R473, R476, R94: the ranges of this chapter. The quantum of a host-port queue is tested against 9,216 (R469); that of any other against the
MAXFRM of its port, `mx`, as the section leaves it. -/
def recRangeOk (mx : Nat → Nat) (h : Hit) (v : Nat) : Bool :=
  if h.r.is R.SCH_QUANTUM then
    let q := h.ix.getD 1 0
    decide (v % 2 ^ 17 ≥ (if q ≥ 256 then 9216 else mx (q / 8)) + 63)
  else if h.r.is R.SCH_GATE_CTL then decide (bitsOf v 10 0 ≤ 1024)
  else if h.r.is R.SCH_GATE_CYCLE then decide (1000 ≤ bitsOf v 29 0) && decide (bitsOf v 29 0 ≤ 999999999)
  else if h.r.is R.SCH_GATE_BASE_NS then decide (bitsOf v 29 0 ≤ 999999999)
  else if h.r.is R.SCH_GATE_LIST then decide (16 ≤ bitsOf v 23 0)
  else if h.r.is R.TSN_RCV_W0 then decide (1 ≤ bitsOf v 26 16) && decide (bitsOf v 26 16 ≤ 1024)
  else if h.r.is R.TSN_RCV_W1 then decide (2 ≤ bitsOf v 31 28) && decide (bitsOf v 31 28 ≤ 8)
  else true

/-- R492: MAXFRM of a port of a die, as the records of a section leave it: its reset value where no record sets it. -/
def mxAfter (rs : List RRec) (k port : Nat) : Nat :=
  match (rs.filter (fun r => (r.die == 0xFF || r.die == k) && (match r.reg with
      | some h => h.r.is R.SCH_PORT_CFG && h.ix.getD 1 0 == port
      | none => false))).getLast? with
  | some r => r.val % 2 ^ 14
  | none => 0x2400

/-- R492: the records of a section: registers it may name, that exist on a die named, at values within their ranges. -/
def schedRecsOk (typ : Nat) (rs : List RRec) : Bool :=
  rs.all (fun r =>
    r.rsv == 0 && (r.die == 0xFF || decide (r.die < 2)) && (match r.reg with
      | none => false
      | some h => !h.high && (secRegs typ).any (fun x => h.r.is x)
          && (List.range 2).any (fun k => (r.die == 0xFF || r.die == k) && !h.r.noInst (k :: h.ix.drop 1))
          && (List.range 2).all (fun k => !(r.die == 0xFF || r.die == k) || recRangeOk (mxAfter rs k) h r.val)))

/-- R489: the instances that a STREAM body leaves with LED_EN = 1 have their LED_PATHS. -/
def ledOk (b : List Byte) : Bool :=
  let rs := regRecs b
  rs.all (fun r => match r.reg with
    | some h => !h.r.is R.TSN_RCV_W0 || !hasBit r.val 28 || (lastRec rs R.TSN_RCV_W1 h.ix).isSome
    | none => true)

/-- R492: a SCHED, GATE or STREAM body. -/
def schedOk (typ : Nat) (b : List Byte) : Bool :=
  b.length % 16 == 0 && schedRecsOk typ (regRecs b) && (typ != 0xA || ledOk b)

/-! ## PATTERN, MALF, PINS, TELEM and CUCODE (R260, R265, R333–R336, R385, R386, R590, R591) -/

/-- R260: a PATTERN body; a slot may be claimed and have no record: DESIGN CHOICE, log entry 148. -/
def patternOk (b : List Byte) : Bool :=
  let ps := recsAt b 0 (b.length / 72) 72
  b.length % 72 == 0 && distinct (ps.map (leAt · 0 2))
    && ps.all (fun p => decide (leAt p 0 2 < 2048) && decide (leAt p 2 2 < 512) && decide (1 ≤ byteAt p 4) && decide (byteAt p 4 ≤ 32)
      && decide (leAt p 2 2 + byteAt p 4 ≤ 512) && byteAt p 5 == 0 && leAt p 6 2 != 0)

/-- R265: the records of a MALF body. -/
def malfRecs (b : List Byte) : List (List Byte) := recsAt b 0 (b.length / 4) 4

/-- R265: a MALF body by itself. -/
def malfOk (b : List Byte) : Bool :=
  b.length % 4 == 0 && distinct ((malfRecs b).map (byteAt · 0))
    && (malfRecs b).all (fun r => decide (1 ≤ byteAt r 0) && decide (byteAt r 0 ≤ 0x1F) && decide (byteAt r 1 ≤ 2) && byteAt r 3 == 0)

/-- R333: the session records of a TELEM body. -/
def telemSess (b : List Byte) : List (List Byte) := recsAt b (16 + 72 * byteAt b 0) (byteAt b 1) 16

/-- R265: every MIRROR record names a session that a TELEM body defines. -/
def malfSessOk (malf telem : Option (List Byte)) : Bool :=
  ((malf.map malfRecs).getD []).all (fun r =>
    byteAt r 1 != 2 || ((telem.map telemSess).getD []).any (fun s => byteAt s 0 == byteAt r 2))

/-- R336: the length of an information element. -/
def ieLen (ie : Nat) : Option Nat :=
  if [1, 2, 85, 86, 153].contains ie then some 8
  else if [4, 136].contains ie then some 1
  else if [7, 11, 227].contains ie then some 2
  else if [8, 12, 225, 234].contains ie then some 4
  else if [27, 28].contains ie then some 16 else none

/-- R335: a template record. -/
def tmplOk (t : List Byte) : Bool :=
  decide (256 ≤ leAt t 0 2) && decide (1 ≤ byteAt t 2) && decide (byteAt t 2 ≤ 16) && byteAt t 3 == 0 && zeros t 68 4
    && (List.range (byteAt t 2)).all (fun i => ieLen (leAt t (4 + 4 * i) 2) == some (leAt t (6 + 4 * i) 2))

/-- R333: a session record. -/
def sessOk (s : List Byte) : Bool :=
  decide (byteAt s 0 < 16) && decide (byteAt s 1 < 2) && decide (byteAt s 2 ≤ 68) && decide (byteAt s 3 < 8)
    && (leAt s 4 2 == 0 || (decide (64 ≤ leAt s 4 2) && decide (leAt s 4 2 ≤ 9216))) && decide (byteAt s 6 ≤ 16) && zeros s 7 9

/-- R335: a TELEM body. -/
def telemOk (b : List Byte) : Bool :=
  let nt := byteAt b 0
  let ns := byteAt b 1
  let ts := recsAt b 16 nt 72
  decide (nt ≤ 8) && decide (ns ≤ 16) && decide (leAt b 2 2 ≤ 3600) && decide (16 ≤ byteAt b 8) && decide (byteAt b 8 ≤ 24) && zeros b 9 7
    && b.length == 16 + 72 * nt + 16 * ns && ts.all tmplOk && (telemSess b).all sessOk && distinct ((telemSess b).map (byteAt · 0))

/-- R590: the timer record of a die and timer. -/
def pinTimer (b : List Byte) (k n : Nat) : Option (List Byte) :=
  (recsAt b (4 + 8 * byteAt b 0) (byteAt b 1) 16).find? (fun t => byteAt t 0 == n && byteAt t 1 == k)

/-- R590, R591: a pin record. -/
def pinOk (b p : List Byte) : Bool :=
  decide (byteAt p 0 < 4) && decide (byteAt p 1 < 4) && decide (byteAt p 2 < 2)
    && (byteAt p 1 != 1 || decide (leAt p 4 4 < 999999999))
    && (byteAt p 1 != 3 || (match pinTimer b 0 (byteAt p 3) with | some t => decide (leAt p 4 4 < leAt t 10 6) | none => false))

/-- R587, R590, R591: a PINS body. -/
def pinsOk (b : List Byte) : Bool :=
  let np := byteAt b 0
  let nt := byteAt b 1
  let ps := recsAt b 4 np 8
  let ts := recsAt b (4 + 8 * np) nt 16
  decide (np ≤ 4) && decide (nt ≤ 8) && zeros b 2 2 && b.length == 4 + 8 * np + 16 * nt && distinct (ps.map (byteAt · 0))
    && distinct (ts.map (fun t => 8 * byteAt t 1 + byteAt t 0)) && ps.all (pinOk b)
    && ts.all (fun t => decide (byteAt t 0 < 8) && decide (byteAt t 1 < 2) && zeros t 2 2 && decide (1000 ≤ leAt t 10 6) && decide (leAt t 4 6 < leAt t 10 6))

/-- R386: a word of a CUCODE section. -/
def cuWordOk (w : Nat) : Bool :=
  let u := UW.of w
  !(decide (u.aop > 0x19) || decide (u.mop > 0x16) || decide (u.bop > 0x0F) || u.rsv != 0 || (u.mop == 0x0C && hasBit u.mask 7))
    && (!([1, 2, 3, 4, 5].contains u.bop) || inCust u.target)

/-- R386: a record of a CUCODE section. -/
def cuRecOk (r : URec) : Bool :=
  if r.kind = 1 then decide (0x3000 ≤ r.addr) && decide (r.addr + r.vals.length ≤ 0x4000) && r.vals.all cuWordOk
  else decide (0x80 ≤ r.addr) && decide (r.addr + r.vals.length ≤ 0x100) && r.vals.all (fun v => !hasBit v 31 || (!hasBit v 30 && inCust (v % 2 ^ 14)))

/-- R385, R386: a CUCODE body. -/
def cuOk (b : List Byte) : Bool := match cuRecs b with | some rs => rs.all cuRecOk | none => false

/-! ## The check over an image (R98, R99) -/

/-- R99: the body of a TYPE in the set that the check is made over: the image's, else an active section's when the image is an update. -/
def setBody (ss : List FSec) (act : List Section) (typ : Nat) : Option (List Byte) :=
  match ss.find? (fun s => s.typ == typ) with
  | some s => some s.body
  | none => (act.find? (fun a => a.typ == typ)).map (·.body)

/-- Whether the body of a section passes. -/
def Dev.bodyOk (d : Dev) (ss : List FSec) (act : List Section) (s : FSec) : Bool :=
  let of := fun (t : Nat) => (setBody ss act t).getD []
  match s.typ with
  | 1 => parseOk s.body (of 5)
  | 2 => tablesOk s.body (of 5)
  | 3 => tcamOk s.body (of 2)
  | 4 => exactOk s.body (of 2)
  | 5 => d.flowOk s.body (setBody ss act 0xD)
  | 6 => queueOk s.body
  | 7 => quotaOk s.body
  | 0xB => patternOk s.body
  | 0xC => malfOk s.body
  | 0xD => cuOk s.body
  | 0xE => pinsOk s.body
  | 0xF => telemOk s.body
  | t => schedOk t s.body

/-- R98, R99, R265: the first CAPACITY fault. A MIRROR record without its session is a fault of the MALF section of the image, or of its TELEM
section when the MALF section is active. -/
def Dev.fCapacity (d : Dev) (ss : List FSec) (act : List Section) : Option FErr :=
  let sess := malfSessOk (setBody ss act 0xC) (setBody ss act 0xF)
  let has := fun (t : Nat) => ss.any (fun s => s.typ == t)
  let other := fun (t : Nat) => if !has t && act.any (fun a => a.typ == t) then 0xC0 + t else 0xFF
  ss.findSome? (fun s =>
    if !d.bodyOk ss act s then some (FErr.at_ 0xC s.i)
    else if !sess && (s.typ == 0xC || (s.typ == 0xF && !has 0xC)) then some ⟨0xC, s.i, other (0xC + 0xF - s.typ), 0, 0, 0⟩
    else none)

/-- R97, R98 step 7: NOTRUN, then BASE, of an update. -/
def Dev.fUpdateBad (d : Dev) (img : List Byte) : Option FErr :=
  if fFull img then none
  else match (fSecs img).find? (fun s => !inRun s.typ) with
    | some s => some (FErr.at_ 0xD s.i)
    | none => if d.bit R.GLB_BOOT_STATUS [] "FORME_OK" && leAt img 24 8 == d.getW R.GLB_FORME_ID [] then none else some (FErr.plain 0xE)

/-- R98 steps 7 and 8, R99: NOTRUN, BASE, CAP, RANGE, CONFLICT, UNCLAIMED and CAPACITY, in that order. -/
def Dev.fValidate (d : Dev) (img : List Byte) : Option FErr :=
  let ss := fSecs img
  let act := if fFull img then [] else d.glb.active.filter (fun a => !ss.any (fun s => s.typ == a.typ))
  [d.fUpdateBad img, fCap ss, fRange ss, fConflict ss act, fUnclaimed ss, d.fCapacity ss act].findSome? id

end Sys2Proof.Machine
end

