-- ==== Sys2Proof/Machine/FormeSet.lean ====
section
/-! DEFINITION. What a forme sets and what discarding it clears (R17, R90, R101, R111, R490, R711). -/

namespace Sys2Proof.Machine

/-! ## Clearing -/

/-- Fields of registers returned to their reset values wherever a word is not at its own. -/
def Dev.resetFields (d : Dev) (fs : RegSpec → List RField) : Dev :=
  { d with regs := d.regs.filterMap (fun (x : Nat × Word) =>
      match findReg x.1 with
      | none => some x
      | some h =>
        let part := fun (n : Nat) => (if h.high then n / 2 ^ 32 else n) % 2 ^ 32
        let whole := if h.high then x.2.toNat * 2 ^ 32 else x.2.toNat
        let v := part ((fs h.r).foldl (fun w f => setBits w f.hi f.lo (bitsOf h.r.reset f.hi f.lo)) whole)
        if v = part h.r.reset then none else some (x.1, BitVec.ofNat 32 v)) }

/-- Registers returned to their reset values wherever a test on them holds. -/
def Dev.resetRegs (d : Dev) (is : Hit → Bool) : Dev :=
  { d with regs := d.regs.filter (fun (x : Nat × Word) => match findReg x.1 with | some h => !is h | none => true) }

/-- The fields marked forme. -/
def formeFields (r : RegSpec) : List RField := r.fields.filter (fun f => f.src == .forme)

/-- R101: the contents of every TCAM, exact, L2 and direct table, of the pattern store and of the customer control store cleared. -/
def Dev.clearTables (d : Dev) : Dev :=
  let counters := d.mat.bad.filter (fun x => x.1 == 0x20 && x.2 / 2 ^ 20 % 32 == 17)
  let mat := { d.mat with tcam := [], shadow := [], exact := [], direct := [], l2 := [], bad := counters, mism := [], twr := [], flush := ⟨none, none⟩ }
  let eng := { d.eng with cs := d.eng.cs.filter (fun (x : Nat × (Nat × Nat)) => !inCust x.1), csBad := d.eng.csBad.filter (fun x => !inCust x.2) }
  let d := { d with mat := mat, eng := eng }.resetRegs (fun h => h.r.is R.L2_COUNT)
  let d := (List.range 4).foldl (fun d g => d.put R.MAT_TCAM_STAT [g / 2, g % 2] "BUSY" 0) d
  (d.put R.L2_HSTAT [0] "BUSY" 0).put R.L2_HSTAT [1] "BUSY" 0

/-- R90: every owner opcode unassigned. -/
def Dev.clearOwner (d : Dev) (keep : List Nat) : Dev :=
  let d := d.resetRegs (fun h => h.r.is R.KCS_DISP && decide (h.ix.getD 3 0 ≥ 0x80) && !keep.contains (h.ix.getD 3 0))
  { d with eng := { d.eng with dispBad := d.eng.dispBad.filter (fun x => decide (x.2 < 0x80) || keep.contains x.2) } }

/-- R101: the gates follow no list. -/
def Dev.clearGates (d : Dev) : Dev :=
  let d := d.resetRegs (fun h => [R.SCH_GATE_CTL, R.SCH_GATE_OPER, R.SCH_GATE_OCYCLE, R.SCH_GATE_OLIST, R.SCH_GATE_CHG_SEC, R.SCH_GATE_CHG_NS].any (fun r => h.r.is r))
  { d with egr := { d.egr with ports := SMap.mapv d.egr.ports (fun _ g => { g with olen := 0, obase := 0 }) } }

/-- R589: timers that sections of the given types claim return to the host, at their reset values. -/
def Dev.clearTimers (d : Dev) (secs : List Section) : Dev :=
  let own := secs.flatMap (fun s => s.claims.filter (fun c => c.1 == 2))
  d.resetRegs (fun h => (h.r.is R.TIM_ETMR_CTL || h.r.is R.TIM_ETMR_PER || h.r.is R.TIM_ETMR_PH)
    && own.any (fun c => c.2.1 == h.ix.getD 0 0 && decide (c.2.2.1 ≤ h.ix.getD 1 0) && decide (h.ix.getD 1 0 < c.2.2.1 + c.2.2.2)))

/-- R90: every TIME_IO pin a high-impedance input. -/
def Dev.clearPins (d : Dev) : Dev := { d with tim := { d.tim with pins := d.tim.pins.map (fun p => { p with out := false }) } }

/-! ## Register records (R492, R711) -/

/-- R492, R711: the fields of a register that a record of a section sets. -/
def recFields (typ : Nat) (r : RegSpec) : List RField :=
  r.fields.filter (fun f => (f.src == .forme || (typ != 5 && f.acc == .rw))
    && (!r.is R.SCH_PORT_CFG || (if typ = 8 then f.name == "SP_MASK" || f.name == "MAXFRM" else f.name == "GATE_EN" || f.name == "GB_EN")))

/-- R492: the fields that a SCHED, GATE or STREAM section sets: those that no record names take their reset values. -/
def secFields (typ : Nat) (r : RegSpec) : List RField := if (secRegs typ).any (fun x => r.is x) then recFields typ r else []

/-- Fields of a register set from a value. -/
def Dev.setFields (d : Dev) (r : RegSpec) (ix : List Nat) (fs : List RField) (v : Nat) : Dev :=
  d.setW r ix (fs.foldl (fun w f => setBits w f.hi f.lo (bitsOf v f.hi f.lo)) (d.getW r ix))

/-- R492: the dies of a record. -/
def diesOf (die : Nat) : List Nat := if die = 0xFF then [0, 1] else [die]

/-- R492: a record written. -/
def Dev.recWrite (d : Dev) (typ : Nat) (r : RRec) : Dev :=
  match r.reg with
  | none => d
  | some h => ((diesOf r.die).filter (fun k => !h.r.noInst (k :: h.ix.drop 1))).foldl
      (fun d k => d.setFields h.r (k :: h.ix.drop 1) (recFields typ h.r) r.val) d

/-- Every record of a body written, in body order. -/
def Dev.recsWrite (d : Dev) (typ : Nat) (b : List Byte) : Dev := (regRecs b).foldl (fun d r => d.recWrite typ r) d

/-- R472: every bucket and meter brought up to now. -/
def Dev.accrueEvery (d : Dev) : Dev :=
  let d := (List.range 65).foldl Dev.accrueAll d
  d.egr.mtr.foldl (fun d (x : Nat × Meter) =>
    { d with egr := { d.egr with mtr := SMap.put d.egr.mtr x.1 (d.meterRefill (x.1 / 1024) (x.1 % 1024)) } }) d

/-- R472: the tokens of every meter clipped to its bursts. -/
def Dev.clipMeters (d : Dev) : Dev :=
  { d with egr := { d.egr with mtr := SMap.mapv d.egr.mtr (fun i m =>
      let ix := rw (i / 1024) ++ [i % 1024]
      { m with c := min m.c (tokUnit * d.get R.TSN_MTR_W2 ix "CBS"), e := min m.e (tokUnit * d.get R.TSN_MTR_W3 ix "EBS") }) } }

/-- R483: the meters, 1,024·region + m, of which a word is set. -/
def Dev.metersSet (d : Dev) : List Nat :=
  [0, 1, 2, 3].flatMap (fun g =>
    let b := R.TSN_MTR_W0.addr (rw g ++ [0])
    dedup (d.regs.filterMap (fun x => if decide (b ≤ x.1) && decide (x.1 < b + 16 * 1024) then some (1024 * g + (x.1 - b) / 16) else none)))

/-- R483: a meter that has been given its rates counts from now on. -/
def Dev.startMeters (d : Dev) : Dev :=
  d.metersSet.foldl (fun d i =>
    if (SMap.look d.egr.mtr i).isSome then d
    else { d with egr := { d.egr with mtr := SMap.put d.egr.mtr i ⟨0, 0, d.tim.raw.get (i / 2048)⟩ } }) d

/-- R472, R483: tokens beyond a new BURST clipped to it; a meter given its rates starts. -/
def Dev.clipEvery (d : Dev) : Dev := ((List.range 65).foldl Dev.accrueAll d).clipMeters.startMeters

/-- R471, R472: a register of the section's shapers and meters written between an accrual and a clip. -/
def Dev.shaped (d : Dev) (f : Dev → Dev) : Dev := (f d.accrueEvery).clipEvery

/-! ## Discarding -/

/-- R90: what holds where a full forme has no section for it: no gate control and every gate open, no stream filters, no patterns, the drop action of
every malformed cause, no customer area, every pin an input; R101: the tables empty. -/
def Dev.formeDefaults (d : Dev) : Dev :=
  let d := (((d.clearTables.clearOwner []).clearGates).clearPins).resetFields (fun r =>
    secFields 9 r ++ secFields 0xA r ++ (if [R.PRS_MALF_ACT, R.TIM_IO_CFG, R.TIM_IO_WIDTH].any (fun x => r.is x) then formeFields r else []))
  (d.resetRegs (fun h => h.r.is R.TSN_RCV_ST)).resetFields (fun r => if r.is R.TSN_SF_STAT then r.fields.filter (fun f => f.name == "SEQ") else [])

/-- R101: the active forme discarded. -/
def Dev.formeDiscard (d : Dev) : Dev :=
  let d := d.shaped (fun d => (d.clearTimers d.glb.active).resetFields (fun r => formeFields r ++ (if d.glb.active.isEmpty then [] else secFields 8 r)))
  let d := d.formeDefaults
  let d := { d with egr := { d.egr with hist := [], led := [] }, glb := { d.glb with active := [] } }
  ((d.setW R.GLB_FORME_ID [] 0).setW R.GLB_FORME_INFO [] 0).put R.GLB_BOOT_STATUS [] "FORME_OK" 0

/-! ## Sections written -/

/-- R711: a FLOW section. -/
def Dev.setFlow (d : Dev) (b : List Byte) : Dev :=
  let mirrored := hasBit ((lastRec (regRecs b) R.FLW_CTL [0]).getD 0) 0
  let d := [0, 1].foldl (fun d k => d.put R.FLW_LIMIT [k] "LIMIT" (maxLimit mirrored)) d
  (regRecs b).foldl (fun d r =>
    match r.dispOp with
    | some op => d.dispPut op (dispFix (2 ^ 31 + b2n (hasBit r.val 29) * 2 ^ 29 + d.dispEntry 0 (r.val % 256) % 2 ^ 14))
    | none => d.recWrite 5 r) d

/-- R253: the descriptors shown in every region. -/
def Dev.setTables (d : Dev) (b : List Byte) : Dev :=
  (List.range 4).foldl (fun d g => (List.range (byteAt b 0)).foldl (fun d n =>
    d.putBytes R.MAT_TDESC (rw g ++ [n]) (sliceB b (4 + 32 * n) 32) 8) d) d

/-- R268: the profiles of every region. -/
def Dev.setTcam (d : Dev) (b : List Byte) : Dev :=
  (List.range 4).foldl (fun d g => (recsAt b 4 (byteAt b 0) 96).foldl (fun d p =>
    let ix := rw g ++ [byteAt p 0]
    let d := (d.put R.MAT_TPROF ix "EN" 1).put R.MAT_TPROF ix "WIDTH" (byteAt p 1 / 2)
    (d.put R.MAT_TPROF ix "BLOCKS" (leAt p 2 2)).putBytes R.MAT_TPROF_GMASK ix (sliceB p 16 80) 20) d) d

/-- R285: the tables of every region. -/
def Dev.setExact (d : Dev) (b : List Byte) : Dev :=
  (List.range 4).foldl (fun d g => (recsAt b 4 (byteAt b 0) 16).foldl (fun d t =>
    let ix := rw g ++ [byteAt t 0]
    let d := (d.put R.MAT_EX_TBL ix "EN" 1).put R.MAT_EX_TBL ix "KIND" (byteAt t 1)
    ((d.put R.MAT_EX_TBL ix "SIZE" (byteAt t 2)).put R.MAT_EX_TBL ix "NBANK" (byteAt t 5)).put R.MAT_EX_TBL ix "FIRST" (byteAt t 4)) d) d

/-- R431: a QUEUE section. -/
def Dev.setQueue (d : Dev) (b : List Byte) : Dev :=
  let d := [0, 1].foldl (fun d k =>
    ((d.put R.BUF_WADI_SIZE [k] "UNITS" (byteAt b 4)).put R.TMG_CFG [k] "FABRIC" (byteAt b 0)).put R.TMG_CFG [k] "EXC_CLASS" (byteAt b 3)) d
  (recsAt b 16 (byteAt b 1) 8).foldl (fun d p => d.put R.BUF_PART_SIZE [byteAt p 0, byteAt p 1] "SIZE" (leAt p 4 4)) d

/-- R437: the registers that QUOTA records set. -/
def quotaRegs : List RegSpec := [R.BUF_AGQ, R.BUF_QPROF, R.TMG_VOQ_PROF, R.TMG_EQ_PROF]

/-- R437: a QUOTA section. -/
def Dev.setQuota (d : Dev) (b : List Byte) : Dev :=
  (recsAt b 0 (b.length / 8) 8).foldl (fun d r => (diesOf (byteAt r 1)).foldl (fun d k =>
    let i := leAt r 2 2
    let v := leAt r 4 4
    match byteAt r 0 with
    | 1 => d.put R.BUF_AGQ [k, i] "LIMIT" v
    | 2 => d.put R.BUF_QPROF [k, i] "LIMIT" v
    | 3 => d.put R.TMG_VOQ_PROF [k, i / 1024, i % 1024] "PROF" v
    | _ => d.put R.TMG_EQ_PROF [k, i / 256, i % 256] "PROF" v) d) d

/-- R265: a MALF section. -/
def Dev.setMalf (d : Dev) (b : List Byte) : Dev :=
  (List.range 4).foldl (fun d g => (malfRecs b).foldl (fun d r =>
    let ix := rw g ++ [byteAt r 0]
    (d.put R.PRS_MALF_ACT ix "SESS" (byteAt r 2)).put R.PRS_MALF_ACT ix "ACT" (byteAt r 1)) d) d

/-- R492: a SCHED, GATE or STREAM section: its records, and the reset value of every field of its registers that none of them sets. -/
def Dev.setRecs (d : Dev) (typ : Nat) (b : List Byte) : Dev := (d.resetFields (secFields typ)).recsWrite typ b

/-- R589: a timer set from a section. -/
def Dev.setTimer (d : Dev) (k n phase period : Nat) : Dev :=
  let d := (d.setW R.TIM_ETMR_PER [k, n] period).setW R.TIM_ETMR_PH [k, n] phase
  (d.put R.TIM_ETMR_CTL [k, n] "EN" 1).put R.TIM_ETMR_CTL [k, n] "FORME" 1

/-- R589: the timers that claims name, as die and number. -/
def timersOf (cs : List (Nat × Nat × Nat × Nat)) : List (Nat × Nat) :=
  (cs.filter (fun c => c.1 == 2)).flatMap (fun c => (List.range c.2.2.2).map (fun i => (c.2.1, c.2.2.1 + i)))

/-- R589: every timer that a section claims belongs to the forme. -/
def Dev.claimTimers (d : Dev) (s : Section) : Dev := (timersOf s.claims).foldl (fun d t => d.put R.TIM_ETMR_CTL [t.1, t.2] "FORME" 1) d

/-- R590: a PINS section. -/
def Dev.setPins (d : Dev) (b : List Byte) : Dev :=
  let d := (recsAt b 4 (byteAt b 0) 8).foldl (fun d p =>
    let k := byteAt p 0
    let d := (d.put R.TIM_IO_CFG [k] "FUNC" (byteAt p 1)).put R.TIM_IO_CFG [k] "POL" (byteAt p 2)
    (d.put R.TIM_IO_CFG [k] "TIMER" (byteAt p 3)).put R.TIM_IO_WIDTH [k] "NS" (leAt p 4 4)) d
  (recsAt b (4 + 8 * byteAt b 0) (byteAt b 1) 16).foldl (fun d t => d.setTimer (byteAt t 1) (byteAt t 0) (leAt t 4 6) (leAt t 10 6)) d

/-- R335: the timers of a TELEM section on a die: the first that it claims there paces the walker at a rate the spec does not give, the second marks the
period; their phases are free. With fewer than two, or with PERIOD_S = 0, no periodic export runs. -/
def Dev.setExport (d : Dev) (s : Section) (k : Nat) : Dev :=
  match ((timersOf s.claims).filter (fun t => t.1 == k)).map Prod.snd, leAt s.body 2 2 with
  | a :: b :: _, n + 1 =>
    let (x, d) := d.fresh (2 ^ 48 - 1000)
    let pace := x + 1000
    let (ph, d) := d.fresh pace
    let (ph', d) := d.fresh ((n + 1) * 1000000000)
    (d.setTimer k a ph pace).setTimer k b ph' ((n + 1) * 1000000000)
  | _, _ => d

/-- R386: a CUCODE section. -/
def Dev.setCu (d : Dev) (b : List Byte) : Dev :=
  ((cuRecs b).getD []).foldl (fun d r => if r.kind = 1 then d.recPut r
    else d.recPut { r with vals := r.vals.map (fun v => if hasBit v 31 then v else 0) }) d

/-- A section of a forme written. -/
def Dev.setSection (d : Dev) (s : Section) : Dev :=
  let d := d.claimTimers s
  match s.typ with
  | 2 => d.setTables s.body
  | 3 => d.setTcam s.body
  | 4 => d.setExact s.body
  | 5 => d.setFlow s.body
  | 6 => d.setQueue s.body
  | 7 => d.setQuota s.body
  | 8 => d.shaped (fun d => d.setRecs 8 s.body)
  | 9 => d.setRecs 9 s.body
  | 0xA => d.setRecs 0xA s.body
  | 0xC => d.setMalf s.body
  | 0xD => d.setCu s.body
  | 0xE => d.setPins s.body
  | 0xF => (d.setExport s 0).setExport s 1
  | _ => d

/-- A section of an image as the part holds it. -/
def FSec.keep (s : FSec) : Section := ⟨s.typ, s.claims.map (fun c => (c.rtype, c.die, c.first, c.count)), s.body⟩

/-- R90, R101: a full forme takes effect. The FLOW section is written before the CUCODE section; no entry belongs to both (R358). -/
def Dev.formeApply (d : Dev) (img : List Byte) : Dev :=
  let secs := (fSecs img).map FSec.keep
  let d := d.formeDefaults
  let d := { d with glb := { d.glb with active := secs } }
  let d := secs.foldl Dev.setSection d
  let d := (d.setW R.GLB_FORME_ID [] (leAt img 16 8)).setW R.GLB_FORME_INFO [] (leAt img 32 2)
  let d := d.measure 4 0 (leAt img 32 2) (leAt img 16 8) (trailerDigest (fColophon img))
  d.put R.GLB_BOOT_STATUS [] "FORME_OK" 1

/-! ## Updates (R111, R115, R490) -/

/-- R477: the ports of a GATE body whose CHANGE is to be performed, lowest first. -/
def gatePorts (b : List Byte) : List Nat :=
  (List.range 64).filter (fun p => (regRecs b).any (fun r => (r.die == 0xFF || r.die == p / 32) && hasBit r.val 31 && (match r.reg with
    | some h => h.r.is R.SCH_GATE_CTL && h.ix.getD 1 0 == p % 32
    | none => false)))

/-- R477: CHANGE performed for those ports; one that R476 refuses is not. -/
def Dev.gateChanges (d : Dev) : Dev :=
  match d.body 9 with
  | none => d
  | some b => (gatePorts b).foldl (fun d p => if d.gateBad p (d.get R.SCH_GATE_CTL (schP p) "ADMIN_LEN") then d else d.gateChange p) d

/-- R490: the instances and generators that an update does not keep; `old` is the register file before it. R489: a test period that begins or ends with
LED_EN counts from 0. -/
def Dev.frerKeep (d old : Dev) : Dev :=
  let d := (List.range 4).foldl (fun d g => (List.range 512).foldl (fun d r =>
    let ix := rw g ++ [r]
    let w := fun (x : Dev) => x.getW R.TSN_RCV_W0 ix
    if hasBit (w old) 31 && hasBit (w d) 31 && bitsOf (w old) 26 16 == bitsOf (w d) 26 16 then d
    else d.put R.TSN_RCV_ST ix "FRESH" 1) d) d
  let on := fun (x : Dev) (i : Nat) => x.bit R.TSN_RCV_W0 (rw (i / 512) ++ [i % 512]) "LED_EN"
  let d := { d with egr := { d.egr with led := d.egr.led.filter (fun x => on old x.1 && on d x.1) } }
  (List.range 4).foldl (fun d g => (List.range 1024).foldl (fun d h =>
    let ix := rw g ++ [h]
    if old.bit R.TSN_SF_W1 ix "REPL_EN" && d.bit R.TSN_SF_W1 ix "REPL_EN" then d else d.put R.TSN_SF_STAT ix "SEQ" 0) d) d

/-- R99: what the section that an update replaces had set is taken back before the new section is written; a SCHED, GATE or STREAM section sets every
field of its registers (DEDUCED, log 129). -/
def Dev.unsetSection (d : Dev) (s : Section) : Dev :=
  let drop := fun (rs : List RegSpec) => d.resetFields (fun r => if rs.any (fun x => r.is x) then formeFields r else [])
  match s.typ with
  | 7 => drop quotaRegs
  | 0xC => drop [R.PRS_MALF_ACT]
  | 0xD =>
    let keep := ((d.body 5).map (fun b => (regRecs b).filterMap RRec.dispOp)).getD []
    let eng := { d.eng with cs := d.eng.cs.filter (fun (x : Nat × (Nat × Nat)) => !inCust x.1), csBad := d.eng.csBad.filter (fun x => !inCust x.2) }
    { d with eng := eng }.clearOwner keep
  | 0xF => d.clearTimers [s]
  | _ => d

/-- R111, R115, R490: an update takes effect. -/
def Dev.formeUpdate (d : Dev) (img : List Byte) : Dev :=
  let secs := (fSecs img).map FSec.keep
  let old := d
  let d := (d.glb.active.filter (fun a => secs.any (fun s => s.typ == a.typ))).foldl Dev.unsetSection d
  let d := { d with glb := { d.glb with active := d.glb.active.filter (fun a => !secs.any (fun s => s.typ == a.typ)) ++ secs } }
  let d := secs.foldl Dev.setSection d
  let d := if secs.any (fun s => s.typ == 0xA) then d.frerKeep old else d
  let d := if secs.any (fun s => s.typ == 9) then d.gateChanges else d
  let n := d.get R.GLB_FORME_INFO [] "UPDATES" + 1
  let d := (d.put R.GLB_FORME_INFO [] "UPDATES" n).put R.GLB_FORME_INFO [] "SVN" (leAt img 32 2)
  d.measure 5 n (leAt img 32 2) (leAt img 16 8) (trailerDigest (fColophon img))

end Sys2Proof.Machine
end

