-- ==== Sys2Proof/Machine/Glb.lean ====
section
/-! DEFINITION. Modes, transitions, package resets, boot, DRAIN, heat, and the monitors of the security domain (R51–R83, R516, R519, R655, R669,
R693–R699). -/

namespace Sys2Proof.Machine

/-! ## Package-level resets (R61, R62, R65, R693, R696, R698) -/

/-- R61: the words of the register file that every reset but power-on keeps: the TCLK domain's increment and status. -/
def keptWords : List Nat := [0, 1].flatMap (fun k => [R.TIM_INC.addr [k], R.TIM_INC.addr [k] + 4, R.TIM_STAT.addr [k]])

/-- R61, R578, R650: the part as COLD leaves it. OTP is kept; of the time base a reset other than power-on keeps the raw counters, offset, increment, the
pending command and TIM_STAT, and resets event timers, staged values, CODE and captures (DESIGN CHOICE, log entry 114); it also keeps the galley address.
What the part has already sent and what stands in host memory is history. -/
def Dev.cleared (d : Dev) (power : Bool) : Dev :=
  let s := d.sec
  let ep := fun (e : Endpoint) => { Endpoint.reset with sent := e.sent }
  { Dev.reset with
    regs := if power then [] else d.regs.filter (fun (x : Nat × Word) => keptWords.contains x.1)
    free := d.free
    sec := { SecS.reset with vroot := s.vroot, oroot := s.oroot, dsecret := s.dsecret, impChk := s.impChk, vsvn := s.vsvn, osvn := s.osvn }
    tim := if power then TimS.reset
      else { TimS.reset with running := d.tim.running, raw := d.tim.raw, offset := d.tim.offset, inc := d.tim.inc, old := d.tim.old, cmd := d.tim.cmd }
    hif := { HifS.reset with mem := d.hif.mem, ep := d.hif.ep.both ep }
    gal := { GalS.reset with addr := if power then 0 else d.gal.addr, sent := d.gal.sent }
    egr := { EgrS.reset with sent := d.egr.sent } }.put R.TIM_CMD_STAT [] "PENDING" (b2n (!power && d.tim.cmd.isSome))

/-- R61, R62, R65: a package-level reset: the part enters COLD with a cause, at once, and reaches ROOT. -/
def Dev.packageReset (d : Dev) (cause : Nat) (power : Bool) : Dev :=
  let d := d.cleared power
  (d.put R.GLB_RESET_CAUSE [] "CAUSE" cause).put R.GAL_STAT [] "ADDR" d.gal.addr

/-- R696: the REF_SEL strap sampled. -/
def Dev.strap (d : Dev) (refSel : Bool) : Dev := [0, 1].foldl (fun d k => d.put R.TIM_STAT [k] "REF25" (b2n refSel)) d

/-- R68, R571: a power-on reset. -/
def Dev.powerOn (d : Dev) (refSel : Bool) : Dev := (d.packageReset 0 true).strap refSel

/-- R693: a rail has been low for 10 µs: COLD until every rail is back. A part that a thermal trip holds stays held by it. -/
def Dev.railLow (d : Dev) : Dev :=
  if d.glb.hold = .thermal then d else
  let c := d.cleared true
  { c with glb := { c.glb with mode := .cold, prev := d.glb.mode, hold := .rails }, tim := { c.tim with running := false } }

/-- R693: every rail is back. -/
def Dev.railBack (d : Dev) (refSel : Bool) : Dev := if d.glb.hold = .rails then d.powerOn refSel else d

/-- The last reading of a stack. -/
def Dev.stackT (d : Dev) (s : Nat) : Int := sgn 8 (d.get R.MEM_STACK_STAT [s / 3, s % 3] "TEMP")

/-- R698: a trip: the part enters COLD and is held there; the readings go on. -/
def Dev.thermalTrip (d : Dev) : Dev :=
  let c := d.packageReset 4 false
  let c := (List.range 6).foldl (fun c s => c.put R.MEM_STACK_STAT [s / 3, s % 3] "TEMP" (d.get R.MEM_STACK_STAT [s / 3, s % 3] "TEMP")) c
  { c with glb := { c.glb with mode := .cold, prev := d.glb.mode, hold := .thermal, trip := true, die0 := d.glb.die0, die1 := d.glb.die1 } }

/-- R698: the readings that let a thermal hold end. -/
def Dev.cool (d : Dev) : Bool :=
  decide (d.glb.die0 < 100) && decide (d.glb.die1 < 100) && (List.range 6).all (fun s => decide (d.stackT s < 90))

/-- R61, R698: PORESET_N asserted and released with the supplies up. -/
def Dev.pinReset (d : Dev) (refSel : Bool) : Dev :=
  match d.glb.hold with
  | .none => (d.packageReset 1 false).strap refSel
  | .rails => d
  | .thermal => if d.cool then (d.packageReset 4 false).strap refSel else d

/-- R64: a write of GLB_RESET. -/
def Dev.resetWrite (d : Dev) (p : Path) (v : Nat) : Dev :=
  if !hasBit v 0 then d
  else if bitsOf v 31 16 = 0x5A17 then d.packageReset 2 false
  else d.hostAcc p 3 (R.GLB_RESET.addr []) v true

/-! ## Heat (R698, R699) -/

/-- R699: THERM_ALERT_N after a reading. -/
def Dev.alertPin (d : Dev) : Dev :=
  let c : Int := d.get R.GLB_THERM_CFG [] "ALERT_C"
  let hot := (List.range 6).any (fun s => d.bit R.MEM_STACK_STAT [s / 3, s % 3] "OVERTEMP")
  if hot || decide (d.glb.die0 ≥ c) || decide (d.glb.die1 ≥ c) then d.put R.GLB_THERM_STAT [] "ALERT" 1
  else if decide (d.glb.die0 ≤ c - 3) && decide (d.glb.die1 ≤ c - 3) then d.put R.GLB_THERM_STAT [] "ALERT" 0
  else d

/-- R706: THERM_ALERT_N works in COLD; while a rail is low it keeps its state: DESIGN CHOICE, log entry 141. -/
def Dev.coldAlert (d : Dev) : Dev := if d.glb.hold = .rails then d else d.alertPin

/-- R698: a sample of the die sensors: the highest of each die. -/
def Dev.dieSample (d : Dev) (t0 t1 : Int) : Dev :=
  let d := { d with glb := { d.glb with die0 := t0, die1 := t1 } }
  if d.glb.mode = .cold then d.coldAlert
  else if t0 ≥ 115 || t1 ≥ 115 then d.thermalTrip
  else d.alertPin

/-- R511, R512, R698: a reading of a stack. -/
def Dev.stackReading (d : Dev) (s : Nat) (t : Int) : Dev :=
  if d.glb.mode = .cold then (d.put R.MEM_STACK_STAT [s / 3, s % 3] "TEMP" (unsgn 8 t)).coldAlert
  else
    let d := d.stackTemp s t
    if t ≥ 105 && !d.bit R.MEM_STACK_STAT [s / 3, s % 3] "SREF" then d.thermalTrip else d.alertPin

/-! ## Transitions (R53–R57, R107, R709) -/

/-- R53: the mode of a code. -/
def Mode.of (n : Nat) : Mode :=
  match n with | 0 => .cold | 1 => .root | 2 => .enrol | 3 => .load | 4 => .run | 5 => .drain | 6 => .rest | _ => .proof

/-- R56: the transitions that the host may request. The other rows of the table (COLD to ROOT, ROOT to ENROL, any to COLD) have a trigger other than a
host request; a host request for one of them is ILLEGAL: DESIGN CHOICE, log entry 113. -/
def permitted (a b : Mode) : Bool :=
  [(Mode.enrol, Mode.load), (.load, .run), (.load, .proof), (.proof, .load), (.run, .drain), (.drain, .run), (.drain, .load), (.drain, .rest),
    (.rest, .run)].contains (a, b)

/-- R82: a PROOF test runs: a lane's PRBS generator or checker, or its loopback, is on. -/
def Dev.testing (d : Dev) : Bool :=
  (List.range 64).any (fun l => d.bit R.SDS_PRBS_CTL (macIx l) "GEN_EN" || d.bit R.SDS_PRBS_CTL (macIx l) "CHK_EN" || d.get R.SDS_CTL (macIx l) "LOOP" != 0)

/-- A flag of GLB_BOOT_STATUS. -/
def Dev.boot (d : Dev) (f : String) : Bool := d.bit R.GLB_BOOT_STATUS [] f

/-- R56, R57: the STATUS of the first failed precondition of a permitted transition. -/
def Dev.refusal (d : Dev) (b : Mode) : Option Nat :=
  match d.glb.mode, b with
  | .enrol, _ => if d.boot "ENROL_DONE" then none else some 5
  | .load, .run => if !d.boot "FORME_OK" then some 6 else if !d.boot "TRAIN_DONE" then some 7 else none
  | .load, _ => if !d.boot "TRAIN_DONE" then some 7 else none
  | .proof, _ => if d.testing then some 5 else none
  | .drain, .load => if d.boot "DRAIN_DONE" then none else some 5
  | .drain, .rest => if d.boot "DRAIN_DONE" then none else some 5
  | _, _ => none

/-- R55: the outcome of a request. -/
def Dev.reqStatus (d : Dev) (s : Nat) : Dev := d.put R.GLB_MODE_REQ [] "STATUS" s

/-- R56, R57, R107: a request to enter a mode. -/
def Dev.request (d : Dev) (b : Mode) : Dev :=
  if d.glb.trans.isSome then d.reqStatus 3
  else if !permitted d.glb.mode b then d.reqStatus 4
  else match d.refusal b with
    | some s => d.reqStatus s
    | none => { d with glb := { d.glb with trans := some b, deferred := d.glb.loader.state != 0 } }.reqStatus 2

/-- R55, R709: a transition ends with a STATUS and signals it. -/
def Dev.endTrans (d : Dev) (s : Nat) : Dev := ({ d with glb := { d.glb with trans := none, deferred := false } }.reqStatus s).msix 0 57

/-- R107: the loader is idle again: the transition that waited starts, or is refused. -/
def Dev.startDeferred (d : Dev) : Dev :=
  match d.glb.trans with
  | none => d
  | some b =>
    if !d.glb.deferred || d.glb.loader.state != 0 then d
    else match d.refusal b with
      | some s => d.endTrans s
      | none => { d with glb := { d.glb with deferred := false } }

/-- R515: the random generators are seeded from a sample of the on-die oscillator, a free value. -/
def Dev.seed (d : Dev) : Dev := let (x, d) := d.fresh (2 ^ 64); { d with hbm := { d.hbm with seed := x } }

/-- R51, R66, R515, R709: the mode changes on both dies. -/
def Dev.enter (d : Dev) (b : Mode) : Dev :=
  let d := if d.glb.mode = .drain then
      (d.put R.GLB_BOOT_STATUS [] "DRAIN_DONE" 0).put R.GLB_BOOT_STATUS [] "DRAIN_STUCK" 0
    else d
  let d := if b = .load then d.seed else d
  { d with glb := { d.glb with mode := b, prev := d.glb.mode } }.endTrans 1

/-- The transition between two modes completes with an effect; nothing while it is not in progress. -/
def Dev.complete_ (d : Dev) (a b : Mode) (f : Dev → Dev) : Dev := if d.moving a b then f (d.enter b) else d

/-- R709: ENROL to LOAD. -/
def Dev.toLoad (d : Dev) : Dev := d.complete_ .enrol .load id

/-- R71, R130: the flow tables at entry to RUN from LOAD: every slot invalid, the hint caches invalid, the pending lists empty. -/
def Dev.clearFlows (d : Dev) : Dev :=
  let d := { d with flw := { d.flw with slots := [], tagBad := [], hint := [], divSrc := [], pass := [] } }
  ((d.setPend 0 []).setPend 1 []).resetRegs (fun h => h.r.is R.FLW_COUNT)

/-- R71, R533: every port with ADMIN = 1 begins its bring-up. -/
def Dev.startPorts (d : Dev) : Dev := (List.range 64).foldl Dev.portStart d

/-- R528, R536: every port OFF. -/
def Dev.stopPorts (d : Dev) : Dev := (List.range 64).foldl (fun d p => if d.linkState p = 0 && !d.bit R.MAC_LINK (macIx p) "HOLD" then d else d.portStop p) d

/-- R71, R477: LOAD to RUN. -/
def Dev.loadToRun (d : Dev) : Dev := d.complete_ .load .run (fun d => d.clearFlows.startPorts.gateChanges)

/-- R82: LOAD to PROOF. -/
def Dev.loadToProof (d : Dev) : Dev := d.complete_ .load .proof id

/-- R83, R709: PROOF to LOAD, which completes once every test has stopped. -/
def Dev.proofToLoad (d : Dev) : Dev := if d.testing then d else d.complete_ .proof .load Dev.formeDiscard

/-- R73, R76, R407: RUN to DRAIN. -/
def Dev.runToDrain (d : Dev) : Dev :=
  d.complete_ .run .drain (fun d =>
    let d := ({ d with glb := { d.glb with drainTmo := d.get R.GLB_DRAIN_CFG [] "TMO_MS" } }.lineEdge 0 11).lineEdge 1 11
    if d.bit R.GLB_DRAIN_CFG [] "PAUSE_EN" then d.pauseAll else d)

/-- R78: DRAIN to RUN. -/
def Dev.drainToRun (d : Dev) : Dev := d.complete_ .drain .run id

/-- R102, R516: DRAIN to LOAD. -/
def Dev.drainToLoad (d : Dev) : Dev := d.complete_ .drain .load Dev.stopPorts

/-- R80: the last accruals of every bucket moved to now: tokens do not accrue in REST. -/
def Dev.thaw (d : Dev) : Dev :=
  { d with egr := { d.egr with ports := SMap.mapv d.egr.ports (fun p g => { g with plast := d.rawOf p, qlast := g.qlast.map (fun _ => d.rawOf p) }) } }

/-- SREF of every stack. -/
def Dev.sref (d : Dev) (v : Nat) : Dev := (List.range 6).foldl (fun d s => d.put R.MEM_STACK_STAT [s / 3, s % 3] "SREF" v) d

/-- R519, R81, R676: a command of every pseudo-channel as the trace records it: 6 self-refresh entry, 7 exit. -/
def Dev.srefTrace (d : Dev) (typ : Nat) : Dev := (List.range 192).foldl (fun d x => d.memTrace (x / 2) (x % 2) typ 0 9 0 0) d

/-- R80, R519, R528: DRAIN to REST: pending neighbour refreshes discarded, the stacks in self-refresh, the ports off, the hint caches lost. -/
def Dev.drainToRest (d : Dev) : Dev :=
  (if d.moving .drain .rest then d.accrueEvery else d).complete_ .drain .rest (fun d =>
    let d := ((List.range 64).foldl Dev.lanesLost (d.stopPorts.quiesceHbm.srefTrace 6)).sref 1
    { d with flw := { d.flw with hint := [] } })

/-- R81: REST to RUN; `eyeFail` is a stack whose recentring failed: the part stays in REST. -/
def Dev.restToRun (d : Dev) (eyeFail : Option Nat) : Dev :=
  if !d.moving .rest .run then d else
  match eyeFail with
  | some s =>
    let (c, d) := d.fresh 16
    (d.trainEvent s 0 6 c).endTrans 8
  | none =>
    let d := ((d.enter .run).srefTrace 7).thaw.sref 0
    { d with flw := { d.flw with hint := [] } }.startPorts

/-! ## DRAIN (R73–R77) -/

/-- R75, R77: the conditions of DRAIN_DONE. A list that holds only packets whose frames are gone is empty: DEDUCED, log entry 121. -/
def Dev.drained (d : Dev) : Bool :=
  d.buf.eq.all (fun x => x.2.isEmpty) && d.buf.voq.all (fun x => x.2.isEmpty)
    && d.get R.BUF_WADI_STAT [0] "PAGES" == 0 && d.get R.BUF_WADI_STAT [1] "PAGES" == 0
    && (d.flw.pend.d0 ++ d.flw.pend.d1).all (fun e => e.pkts.all (fun n => match d.pkt n with | some p => p.flush == 2 | none => true))
    && (List.range 96).all (fun e => d.threadRole e || (d.engOf e).item.isNone)

/-- R75: DRAIN is complete. -/
def Dev.drainDone (d : Dev) : Dev := if d.glb.mode = .drain && d.drained then d.put R.GLB_BOOT_STATUS [] "DRAIN_DONE" 1 else d

/-- R76: TMO_MS has passed since DRAIN was entered. -/
def Dev.drainTimeout (d : Dev) : Dev :=
  if d.glb.mode = .drain && d.glb.drainTmo != 0 && !d.boot "DRAIN_DONE" && !d.boot "DRAIN_STUCK" then
    (d.put R.GLB_BOOT_STATUS [] "DRAIN_STUCK" 1).errEvent (mkEvent 0 0x02 0 2 1 [])
  else d

/-- R73: the PAUSE of DRAIN renewed. -/
def Dev.pauseRenew (d : Dev) : Dev := if d.glb.mode = .drain && d.bit R.GLB_DRAIN_CFG [] "PAUSE_EN" then d.pauseAll else d

/-- R77: the insertions, holds and work items that exist when a FLUSH comes. -/
def Dev.flushWork (d : Dev) : Dev :=
  let ents := fun (l : List PEnt) => l.map (fun e => { e with flush := true })
  let items := fun (l : List Item) => l.map (fun i => { i with flush := true })
  let q := fun (m : SMap (List Item)) => SMap.mapv m (fun _ l => items l)
  { d with
    flw := { d.flw with pend := ⟨ents d.flw.pend.d0, ents d.flw.pend.d1⟩ }
    eng := { d.eng with hi := q d.eng.hi, lo := q d.eng.lo, wait := q d.eng.wait, qitems := items d.eng.qitems,
                        eng := SMap.mapv d.eng.eng (fun _ (g : Eng) => { g with item := g.item.map (fun i => { i with flush := true }) }) } }

/-- R77: the frame of the first packet of an insertion discarded; the packet stays named until the insertion ends. -/
def Dev.flushFirst (d : Dev) (n : Nat) (p : Pkt) : Dev :=
  if p.flush = 2 then d else
  let (d, p) := d.voidSpec n p
  let d := (d.releaseRef p.head p.agent).bump R.GLB_FLUSH_CNT [] "FRAMES" 1
  (d.leaveWin p.g n).setPkt n { p with stage := .listed, pred := false, oc := none, ret := false, flush := 2 }

/-- R77: the packet of a work item, discarded where the item would let it go. -/
def Dev.flushItem (d : Dev) (n : Nat) (p : Pkt) : Dev :=
  let (d, p) := d.voidSpec n p
  (d.leaveWin p.g n).setPkt n { p with stage := .engine, pred := false, oc := none, ret := false, flush := max 1 p.flush }

/-- R77: a packet leaves the list that it waits on. -/
def Dev.unlist (d : Dev) (n : Nat) : Dev :=
  [0, 1].foldl (fun d k => d.setPend k ((d.flw.pend.get k).map (fun e => { e with pkts := e.pkts.filter (· != n) }))) d

/-- R77: a packet is the first of an insertion. -/
def Dev.leads (d : Dev) (n : Nat) : Bool :=
  (d.flw.pend.d0 ++ d.flw.pend.d1).any (fun e => (e.kind == .fast || e.kind == .setup) && e.pkts.head? == some n)

/-- R77: a packet of a recirculation queue, a pending list or a commit window discarded. -/
def Dev.flushPkt (d : Dev) (n : Nat) : Dev :=
  match d.pkt n with
  | none => d
  | some p =>
    if d.leads n then d.flushFirst n p
    else if p.stage == .engine || (p.stage == .verdict && p.oc == some .engine) then d.flushItem n p
    else if (winStages ++ [Stage.listed, .held, .recirc]).contains p.stage then (d.unlist n).flushOut n p
    else d

/-- R77: the packets of those places, in order, and what was on its way to them. -/
def Dev.flushPkts (d : Dev) : Dev :=
  let d := (d.pk.pkts.map Prod.fst).foldl Dev.flushPkt d
  let none_ := [[], [], [], []]
  { d with pk := { d.pk with link := ⟨[], []⟩, replay := none_, run := none_, recirc := none_ } }

/-- R77: the entries of every VOQ, page and egress queue discarded: the frames they named. -/
def Dev.flushQueues (d : Dev) : Dev × List (Nat × Nat) :=
  let x := (d.buf.eq.map Prod.fst).foldl (fun (x : Dev × List (Nat × Nat)) q =>
    let es := x.1.eqOf q
    (es.foldl (fun d e => d.discardEnt (q / 8) e) (x.1.setEq q []), x.2 ++ es.map (fun e => (e.pkt, e.head)))) (d, [])
  (x.1.buf.voq.map Prod.fst).foldl (fun (x : Dev × List (Nat × Nat)) gv =>
    let v := gv % 520
    let (d, es) := x.1.voqFlush (gv / 520) v
    (es.foldl (fun d e => d.stampGone (v / 8) e.stamp) d,
      x.2 ++ es.map (fun e => (e.pkt, e.head)))) x

/-- R77: FLUSH. A frame that several queues held counts once. -/
def Dev.flushAll (d : Dev) : Dev :=
  let d := d.flushWork.flushPkts
  let (d, fs) := d.flushQueues
  d.bump R.GLB_FLUSH_CNT [] "FRAMES" fs.dedup.length

/-- R54, R77: a write of GLB_MODE_REQ. -/
def Dev.modeReqWrite (d : Dev) (p : Path) (v : Nat) : Dev :=
  let d := d.put R.GLB_MODE_REQ [] "TARGET" (v % 8)
  let d := if !hasBit v 8 then d else if d.glb.mode = .drain then d.flushAll else d.hostAcc p 3 (R.GLB_MODE_REQ.addr []) v true
  if hasBit v 3 then d.request (Mode.of (v % 8)) else d

/-! ## Boot (R67, R379, R655) -/

/-- R655, R67, R379, R395: the boot ROM has read and verified the vendor images: the part enters ENROL, its engines leave reset and the vendor threads
are there, or it stays in ROOT. -/
def Dev.bootDone (d : Dev) (flash : FlashRead) : Dev :=
  if d.glb.mode != .root || d.boot "ROOT_DONE" || d.get R.GLB_BOOT_STATUS [] "CODE" != 0 then d
  else if flash.otpError then d.bootStop 3 0
  else if d.sec.vroot.all (· == 0#8) then d.bootStop 1 0
  else match d.sec.bootFail flash.images with
    | some i => d.bootStop 2 i
    | none =>
      let d := d.bootWrite flash.images
      let d := { d with glb := { d.glb with mode := .enrol, prev := d.glb.mode } }.msix 0 57
      ((List.range 96).foldl Dev.takeRole d).vendorThreads

/-! ## Training (R516, R517) -/

/-- R516, R517: a stack trains: LOAD was entered from ENROL, and it has neither passed nor stopped. -/
def Dev.training (d : Dev) (s : Nat) : Bool :=
  d.glb.mode == .load && !d.boot "TRAIN_DONE" && !d.bit R.MEM_STACK_STAT [s / 3, s % 3] "TRAINED" && !d.hbm.failed.contains s

/-- R517: a lane of a channel (48·die + c′) repaired: reported as MEM_CE, whose TYPE the spec does not give for it. -/
def Dev.laneRepaired (d : Dev) (c : Nat) : Dev :=
  let k := c / 48
  let ix := [k, c % 48]
  let (t, d) := d.fresh 256
  let d := (d.bump R.MEM_STACK_STAT [k, c / 16 % 3] "REPAIRED" 1).bump R.MEM_CH_STAT ix "REPAIRED" 1
  d.errEvent (mkEvent k 0x50 (c % 48) 1 t (leBytes 4 (d.getW R.MEM_CH_ELAST ix) ++ leBytes 4 (d.getW R.MEM_CH_ELAST_REQ ix)))

/-- R517: the failed lanes of the stacks that train are repaired. -/
def Dev.repair (d : Dev) (rs : List LaneRepair) : Dev := (rs.filter (fun r => d.training (r.ch / 16))).foldl (fun d r => d.laneRepaired r.ch) d

/-- R517: repairs that the spares allow: at most one lane of each group that shares a spare. -/
def repairsOk (rs : List LaneRepair) : Bool := rs.all (fun r => decide (r.ch < 96) && decide (r.grp < 15)) && decide rs.Nodup

/-- R516: a stack has passed. -/
def Dev.stackTrained (d : Dev) (s : Nat) : Dev :=
  (List.range 16).foldl (fun d c => d.put R.MEM_CH_STAT [s / 3, s % 3 * 16 + c] "TRAINED" 1) (d.put R.MEM_STACK_STAT [s / 3, s % 3] "TRAINED" 1)

/-- R66, R516, R517: the stacks that train pass, with the lanes repaired on the way; TRAIN_DONE is set when every stack of the package has passed. -/
def Dev.trained (d : Dev) (rs : List LaneRepair) : Dev :=
  let ss := (List.range 6).filter d.training
  if ss.isEmpty then d else
  let d := ss.foldl Dev.stackTrained (d.repair rs)
  if d.hbm.failed.isEmpty then d.put R.GLB_BOOT_STATUS [] "TRAIN_DONE" 1 else d

/-- R517, R70: the training of a stack stops, with what had been repaired before. -/
def Dev.trainFail (d : Dev) (s : Nat) (f : TrainStop) (step code : Nat) : Dev :=
  if d.training s then
    let d := (d.repair f.repaired).trainEvent s step code f.chan
    { d with hbm := { d.hbm with failed := d.hbm.failed ++ [s] } }
  else d

/-- R516, R517, R524: a stop that a step of R516 can make: the step's own CODE, CAL for step 2 to PATTERN for step 6, and repairs of the stack from step 3 on.
DEDUCED, log entry 159. -/
def trainStopOk (s : Nat) (f : TrainStop) (step code : Nat) : Bool :=
  decide (s < 6) && decide (f.chan < 16) && decide (2 ≤ step) && decide (step ≤ 6) && code + 1 == step && repairsOk f.repaired
    && f.repaired.all (fun r => r.ch / 16 == s) && (f.repaired.isEmpty || decide (3 ≤ step))

end Sys2Proof.Machine
end

