-- ==== Sys2Proof/Machine/Delivery.lean ====
section
/-! DEFINITION. Forme deliveries, updates and vendor patch loads, step by step (R98–R115, R380–R384). -/

namespace Sys2Proof.Machine

/-! ## The loader -/

/-- R96: the STATE of the loader. -/
def Dev.loaderTo (d : Dev) (s : Nat) : Dev := { d with glb := { d.glb with loader := { d.glb.loader with state := s } } }.put R.GLB_FORME_STATUS [] "STATE" s

/-- R96: a delivery ends: CAUSE, SECTION, OTHER and GLB_FORME_DETAIL; STATE returns to IDLE, and vector 57 is sent. -/
def Dev.formeEnd (d : Dev) (e : FErr) : Dev :=
  let d := { d with glb := { d.glb with loader := ⟨0, [], [], []⟩ } }.setW R.GLB_FORME_STATUS [] (e.cause * 2 ^ 16 + e.sect * 2 ^ 8 + e.other)
  (d.setW R.GLB_FORME_DETAIL [] (e.rtype * 2 ^ 24 + e.die * 2 ^ 16 + e.index)).msix 0 57

/-- R100: a delivery fails. -/
def Dev.formeFail (d : Dev) (e : FErr) : Dev :=
  (d.errEvent (mkEvent 0 0x02 0 2 2 (leBytes 1 e.cause ++ leBytes 1 e.sect ++ leBytes 1 e.other))).formeEnd e

/-- R97: a delivery succeeds. -/
def Dev.formeOk (d : Dev) : Dev := d.formeEnd (FErr.plain 0)

/-- R96, R105, R106, R110: a write of GLB_FORME_CTL. -/
def Dev.formeCtlWrite (d : Dev) (p : Path) (v : Nat) : Dev :=
  let go := hasBit v 0
  if d.glb.loader.state != 0 || (go && d.glb.patching) then d.hostAcc p 4 (R.GLB_FORME_CTL.addr []) v true
  else
    let d := d.put R.GLB_FORME_CTL [] "QTMO_US" (bitsOf v 31 16)
    if !go then d
    else if d.glb.trans.isSome then d.formeFail (FErr.plain 0xF)
    else d.loaderTo 1

/-! ## FETCH and VERIFY (R98, R100, R101) -/

/-- R97: MODE, from KIND and the current mode. -/
def Dev.formeMode (d : Dev) (img : List Byte) : Bool :=
  if fFull img then d.glb.mode == .load else d.glb.mode == .load || d.glb.mode == .run || d.glb.mode == .drain

/-- R98, R101: the image stands in the staging SRAM, or its fetch failed. -/
def Dev.formeFetched (d : Dev) (img : Option (List Byte)) : Dev :=
  if d.glb.loader.state != 1 then d else
  match (if d.dmaUp then img else none) with
  | none => d.formeFail (FErr.plain 2)
  | some b =>
    if !fHead b then d.formeFail (FErr.plain 1)
    else if !d.formeMode b then d.formeFail (FErr.plain 0xF)
    else if !fFormat b (d.get R.GLB_FORME_LEN [] "LEN") then d.formeFail (FErr.plain 1)
    else
      let d := if fFull b then d.formeDiscard else d
      { d with glb := { d.glb with loader := { d.glb.loader with img := b } } }.loaderTo 2

/-- R98: SIG, ROOT, SVN, DIR and MISSING, in that order. -/
def Dev.formeVerify (d : Dev) (b : List Byte) : Option FErr :=
  let t := fColophon b
  let svn := leAt b 32 2
  if !trailerSigned (b.take (b.length - trailerLen)) t then some (FErr.plain 3)
  else if d.sec.root != some (shake64 (trailerKey t)) then some (FErr.plain 4)
  else if svn < d.sec.osvn || (!fFull b && svn < d.get R.GLB_FORME_INFO [] "SVN") then some (FErr.plain 5)
  else match fDirFault b with
    | some e => some e
    | none => if fFull b && fMissing (fSecs b) then some (FErr.plain 8) else none

/-- R98: VERIFY ends. -/
def Dev.formeVerified (d : Dev) : Dev :=
  if d.glb.loader.state != 2 then d else
  match d.formeVerify d.glb.loader.img with
  | some e => d.formeFail e
  | none => d.loaderTo 3

/-! ## VALIDATE and QUIESCE (R98, R113) -/

/-- R113, R386: the opcodes whose old entry lies in the customer area, or whose entry a CUCODE section makes lie there: a record with VALID = 0 is stored
with ADDR 0. -/
def Dev.cuOps (d : Dev) (body : List Byte) : List Nat :=
  let new := ((cuRecs body).getD []).flatMap (fun r =>
    if r.kind = 2 then ((List.range r.vals.length).filter (fun i => hasBit (r.vals.getD i 0) 31 && inCust (r.vals.getD i 0 % 2 ^ 14))).map (r.addr + ·) else [])
  (List.range 256).filter (fun op => new.contains op || (hasBit (d.dispEntry 0 op) 31 && inCust (d.dispEntry 0 op % 2 ^ 14)))

/-- R113: the thread-role engines that run a thread. -/
def Dev.threadsRunning (d : Dev) : List Nat := (List.range 96).filter (fun e => d.threadRole e && (d.curSlot e).isSome)

/-- R98, R111, R113: VALIDATE ends: an update with a CUCODE section goes to QUIESCE, everything else to APPLY. -/
def Dev.formeValidated (d : Dev) : Dev :=
  if d.glb.loader.state != 3 then d else
  match d.fValidate d.glb.loader.img with
  | some e => d.formeFail e
  | none =>
    match (fSecs d.glb.loader.img).find? (fun s => s.typ == 0xD) with
    | some s =>
      if fFull d.glb.loader.img then d.loaderTo 5
      else { d with glb := { d.glb with loader := { d.glb.loader with holds := d.cuOps s.body, yields := d.threadsRunning } } }.loaderTo 4
    | none => d.loaderTo 5

/-- R113: an engine's micro-PC, or the one that its handler saved, lies in the customer area. -/
def Dev.inCustomer (d : Dev) (e : Nat) : Bool :=
  let g := d.engOf e
  inCust g.ctx.upc || (match g.handler with | some h => inCust h.upc | none => false)

/-- R113: no engine executes in the customer area, every thread-role engine has reached a yield point outside it, and no suspended thread will resume
there. -/
def Dev.quiet (d : Dev) : Bool :=
  d.glb.loader.yields.all (fun e => !d.threadsRunning.contains e) && (List.range 96).all (fun e => !((d.threadRole e || (d.engOf e).item.isSome) && d.inCustomer e))
    && d.tsk.slots.all (fun x => !(x.2.how != 0 && inCust x.2.ctx.upc
      && (d.tst (x.1 / 512) (x.1 % 512) == 1 || d.tst (x.1 / 512) (x.1 % 512) == 3)))

/-- R113: the customer area is quiet. -/
def Dev.formeQuiesced (d : Dev) : Dev := if d.glb.loader.state = 4 && d.quiet then d.loaderTo 5 else d

/-- R113: it is not within QTMO_US: the held items go on under the old code. -/
def Dev.quiesceTimeout (d : Dev) : Dev := if d.glb.loader.state = 4 then d.formeFail (FErr.plain 0x10) else d

/-! ## APPLY (R101, R111) -/

/-- R101: a full forme takes effect. -/
def Dev.formeApplied (d : Dev) : Dev :=
  if d.glb.loader.state = 5 && fFull d.glb.loader.img then (d.formeApply d.glb.loader.img).formeOk else d

/-- R111: an update reaches its switch point; the ports look at their queues again. -/
def Dev.formeSwitched (d : Dev) : Dev :=
  if d.glb.loader.state = 5 && !fFull d.glb.loader.img then ((d.formeUpdate d.glb.loader.img).formeOk).lookAll else d

/-! ## Accesses that wait (R109) -/

/-- R109, R492, R589: a section sets the register when it takes effect. -/
def Section.sets (s : Section) (h : Hit) : Bool :=
  match s.typ with
  | 7 => quotaRegs.any (fun r => h.r.is r)
  | 0xC => h.r.is R.PRS_MALF_ACT
  | 0xF => [R.TIM_ETMR_CTL, R.TIM_ETMR_PER, R.TIM_ETMR_PH].any (fun r => h.r.is r) && (timersOf s.claims).contains (h.ix.getD 0 0, h.ix.getD 1 0)
  | t => (secRegs t).any (fun r => h.r.is r)

/-- R109: a section that the update in QUIESCE or APPLY brings or replaces sets the register. -/
def Dev.updating (d : Dev) (h : Hit) : Bool :=
  (d.glb.loader.state == 4 || d.glb.loader.state == 5) && !fFull d.glb.loader.img &&
    (let ss := fSecs d.glb.loader.img
    ss.any (fun s => s.keep.sets h) || d.glb.active.any (fun a => ss.any (fun s => s.typ == a.typ) && a.sets h))

/-- R109: an access of a path to a die waits behind a held write. -/
def Dev.behind (d : Dev) (p : Path) (off : Nat) : Bool := d.glb.held.any (fun x => x.1 == p && x.2.1 / 0x4000000 == off / 0x4000000)

/-! ## Vendor patches (R380–R384) -/

/-- R382: a patch load ends. -/
def Dev.patchEnd (d : Dev) (cause rec_ : Nat) : Dev :=
  ({ d with glb := { d.glb with patching := false } }.setW R.GLB_PATCH_STATUS [] (cause * 2 ^ 16 + rec_ * 2 ^ 8)).msix 0 57

/-- R384: a patch load fails. -/
def Dev.patchFail (d : Dev) (cause rec_ : Nat) : Dev :=
  (d.errEvent (mkEvent 0 0x02 0 2 3 (leBytes 1 cause ++ leBytes 1 rec_))).patchEnd cause rec_

/-- R383, R384, R110: a write of GLB_PATCH_CTL. -/
def Dev.patchCtlWrite (d : Dev) (p : Path) (v : Nat) : Dev :=
  if !hasBit v 0 then d
  else if d.glb.patching then d.hostAcc p 4 (R.GLB_PATCH_CTL.addr []) v true
  else if d.glb.mode != .enrol && d.glb.mode != .load then d.patchFail 8 0xFF
  else if d.glb.loader.state != 0 then d.patchFail 9 0xFF
  else { d with glb := { d.glb with patching := true } }.put R.GLB_PATCH_STATUS [] "STATE" 1

/-- R380: MAGIC of a patch image. -/
def magicPatch : List Byte := [0x56#8, 0x54#8, 0x50#8, 0x43#8]

/-- R383: the first record of an image that breaks the layout, 0xFF when none does. -/
def patchBadRec (img : List Byte) : Nat :=
  let bs := (img.drop 64).take (img.length - 64 - trailerLen)
  ((List.range (min 256 (leAt img 6 2))).find? (fun i => (readRecs (i + 1) bs).isNone)).getD 0xFF

/-- R383: the first record outside the vendor words and entries, or that overlaps another. -/
def patchBadRange (rs : List URec) : Option Nat :=
  (List.range rs.length).find? (fun i =>
    match rs[i]? with
    | none => false
    | some r => !r.vendor || (List.range rs.length).any (fun j => j != i && (match rs[j]? with | some x => r.overlaps x | none => false)))

/-- R383: the first check that a patch image fails, with its record. -/
def Dev.patchCheck (d : Dev) (img : List Byte) : Option (Nat × Nat) :=
  match imageRecs magicPatch img with
  | none => some (1, if img.length < 64 + trailerLen || img.take 4 != magicPatch then 0xFF else patchBadRec img)
  | some rs =>
    let t := imageTrailer img
    let now := d.get R.KCS_PATCH_VER [0, 0, 0] "VER"
    if !trailerForm t || leAt img 12 2 ≤ leAt img 14 2 || img.length != d.get R.GLB_PATCH_LEN [] "LEN" then some (1, 0xFF)
    else if !trailerSigned (imageBody img) t then some (3, 0xFF)
    else if shake64 (trailerKey t) != d.sec.vroot then some (4, 0xFF)
    else if leAt img 18 2 < d.sec.vsvn then some (5, 0xFF)
    else if leAt img 14 2 != now || leAt img 16 2 != d.get R.KCS_PATCH_VER [0, 0, 0] "BOOT_REL" || byteAt img 24 != Config.stepping then some (6, 0xFF)
    else (patchBadRange rs).map (fun i => (7, i))

/-- R384, R25, R658: a patch takes effect: every engine reset, the records written, VER raised, the load measured. -/
def Dev.patchApply (d : Dev) (img : List Byte) : Dev :=
  let d := (List.range 96).foldl (fun d e => d.engResetAll e false) d
  let d := ((imageRecs magicPatch img).getD []).foldl Dev.recPut d
  let d := (d.patchVer "VER" (leAt img 12 2)).measure 6 0 (leAt img 18 2) (leAt img 12 2) (trailerDigest (imageTrailer img))
  { d with sec := { d.sec with vendorSvn := d.sec.vendorSvn ++ [leAt img 18 2] } }.patchEnd 0 0xFF

/-- R384: the image of a patch load has been fetched, or its fetch failed: the load ends. -/
def Dev.patchLoaded (d : Dev) (img : Option (List Byte)) : Dev :=
  if !d.glb.patching then d else
  match (if d.dmaUp then img else none) with
  | none => d.patchFail 2 0xFF
  | some b => match d.patchCheck b with
    | some (c, r) => d.patchFail c r
    | none => d.patchApply b

/-! ## The monitors of the security domain (R669) -/

/-- R669: a monitor trips: SEC_STAT.MON is set; an attestation in progress ends with MON, a verification in progress as a signature failure. Whether the boot
ROM, or a patch load, is in its verification at that moment is free. -/
def Dev.monitor (d : Dev) : Dev :=
  if d.glb.mode = .cold then d else
  let d := d.put R.SEC_STAT [] "MON" 1
  let d := if d.sec.stmt.isSome then d.attDone 2 else d
  let d := if d.glb.loader.state = 2 then d.formeFail (FErr.plain 3) else d
  let (x, d) := d.fresh 2
  let d := if d.glb.patching && x == 1 then d.patchFail 3 0xFF else d
  if d.glb.mode = .root && !d.boot "ROOT_DONE" && d.get R.GLB_BOOT_STATUS [] "CODE" == 0 && x == 1 then
    let (i, d) := d.fresh 8
    d.bootStop 2 i
  else d

end Sys2Proof.Machine
end

