-- ==== Sys2Proof/Machine/Rings.lean ====
section
/-! DEFINITION. The PCIe endpoints and the host port's rings (R63, R622–R636, R708, R713). -/

namespace Sys2Proof.Machine

/-- R708: an endpoint can move data to and from the host by DMA. -/
def Dev.epUp (d : Dev) (k : Nat) : Bool := (d.hif.ep.get k).sends

/-- R622, R708: an endpoint takes accesses to the BARs: it is trained, in D0, and its memory space enable is set. -/
def Dev.epTakes (d : Dev) (k : Nat) : Bool := (d.hif.ep.get k).ready && (d.hif.ep.get k).up && (d.hif.ep.get k).memEn && !(d.hif.ep.get k).d3

/-- R708: a read to a BAR that the link brings and the endpoint does not take completes as Unsupported Request. -/
def Dev.unsupported (d : Dev) : Dev :=
  if (d.hif.ep.get 0).up then { d with hif := { d.hif with pcie := { d.hif.pcie with ur := true } } } else d

/-- An endpoint that the part has (R117, R623). -/
def epFitted (k : Nat) : Bool := k == 0 || (k == 1 && Config.capPresent 8)

/-- A 64-bit address in a pair of registers. -/
def Dev.addr64 (d : Dev) (lo hi : RegSpec) (ix : List Nat) : Nat := d.get lo ix "ADDR_LO" + d.get hi ix "ADDR_HI" * 2 ^ 32

/-! ## Transmit (R628–R631) -/

/-- R629: the base of a ring. -/
def Dev.txBase (d : Dev) (t : Nat) : Nat := d.addr64 R.HIF_TX_BASE_LO R.HIF_TX_BASE_HI [t]

/-- R629: a ring may take its next descriptor: it is in use and not empty, its endpoint is up, the part admits packets, and it is not stalled. -/
def Dev.txReady (d : Dev) (t : Nat) : Bool :=
  d.bit R.HIF_TX_CFG [t] "EN" && d.get R.HIF_TX_HEAD [t] "HEAD" != d.get R.HIF_TX_TAIL [t] "TAIL" && d.epUp 0 && d.glb.mode == .run
    && !d.hif.stalled.any (fun x => x.1 == t)

/-- R628: the STATUS of a descriptor. -/
def txStatus (desc : List Byte) (frame : Option (List Byte)) : Nat :=
  let len := leAt desc 8 2
  let fl := byteAt desc 10
  if len < 60 || len > 9212 then 1
  else if hasBit fl 0 && decide (byteAt desc 12 > 63) then 2
  else if frame.isNone then 3
  else if fl / 8 != 0 || byteAt desc 11 / 8 != 0 || byteAt desc 13 != 0 || (sliceB desc 18 14).any (· != 0#8) then 4
  else 0

/-- R629: STATUS and DONE written, HEAD advanced, the completion signalled. -/
def Dev.txFinish (d : Dev) (t : Nat) (desc : List Byte) (st : Nat) : Dev :=
  let h := d.get R.HIF_TX_HEAD [t] "HEAD"
  let d := d.dma (d.txBase t + 32 * h + 16) [BitVec.ofNat 8 st, 1#8]
  let d := d.put R.HIF_TX_HEAD [t] "HEAD" ((h + 1) % 2 ^ d.get R.HIF_TX_CFG [t] "LOG2")
  if hasBit (byteAt desc 10) 2 || d.bit R.HIF_TX_CFG [t] "IRQ_ALL" then d.msix 0 (d.get R.HIF_TX_CFG [t] "VEC") else d

/-- R629: a frame that bypasses the pipeline commits at once on its VOQ. -/
def Dev.txBypass (d : Dev) (g head : Nat) (desc fr : List Byte) (sid : Option Nat) : Dev :=
  let k := g / 2
  let n := d.pk.next
  let d := { d with pk := { d.pk with next := n + 1 } }
  let info : RxInfo := ⟨4, 0, 64, 0, 0, none, d.now k⟩
  let e : QEnt := ⟨n, head, cellsOf fr.length, 8, 16, none, fr, true, false, false, d.now k, sid, none, info, false⟩
  let v := 8 * byteAt desc 12 + byteAt desc 11 % 8
  match d.enqOk g v e with
  | some d => d.releaseRef head 8
  | none => (d.releaseRef head 8).voqDrop g

/-- R629–R631: a good descriptor's frame is stored and handed on; none when the allocation is refused. -/
def Dev.txSend (d : Dev) (t : Nat) (desc frame : List Byte) : Option Dev :=
  let g := d.get R.HIF_TX_CFG [t] "REGION"
  let k := g / 2
  let fr := frame ++ fcsBytes frame
  let fl := byteAt desc 10
  let sid := if hasBit fl 1 then some (leAt desc 14 2) else none
  match d.allocFrame k 8 16 fr.length none with
  | (_, .error _) => none
  | (d, .ok head) =>
    let d := d.txFinish t desc 0
    some (if hasBit fl 0 then d.txBypass g head desc fr sid
      else d.admission (fun n => Pkt.arrived k g 64 n fr (d.now k) 8 16 (byteAt desc 11 % 8) head 0 sid))

/-- R434, R436: the refusal of the host's allocation is counted as every refusal is. -/
def Dev.txRefused (d : Dev) (t : Nat) (frame : List Byte) : Dev :=
  let g := d.get R.HIF_TX_CFG [t] "REGION"
  (d.allocFrame (g / 2) 8 16 (frame.length + 4) none).1

/-- R629, R630: a ring's next descriptor is processed. -/
def Dev.txProcess (d : Dev) (t : Nat) (desc : List Byte) (frame : Option (List Byte)) : Dev :=
  if !d.txReady t then d else
  match txStatus desc frame, frame with
  | 0, some f => match d.txSend t desc f with
    | some d => d
    | none =>
      let d := d.txRefused t f
      { d with hif := { d.hif with stalled := d.hif.stalled ++ [(t, desc, f)] } }
  | st, _ => (d.bump R.HIF_TX_BAD [0] "COUNT" 1).txFinish t desc st

/-- R60, R73, R630: a stalled ring has waited 1 µs and tries again, while the part admits packets. -/
def Dev.txRetry (d : Dev) (t : Nat) : Dev :=
  match d.hif.stalled.find? (fun x => x.1 == t) with
  | none => d
  | some x =>
    if d.glb.mode != .run then d else
    let d := d.bump R.HIF_TX_STALL [0] "COUNT" 1
    match d.txSend t x.2.1 x.2.2 with
    | some d => { d with hif := { d.hif with stalled := d.hif.stalled.filter (fun y => y.1 != t) } }
    | none => d.txRefused t x.2.2

/-! ## Receive (R632–R635) -/

/-- R633: the ring of a frame. -/
def Dev.rxRing (d : Dev) (k c : Nat) (i : RxInfo) : Nat :=
  let n := match i.h with | some h => h % 65536 | none => i.portIn
  d.get R.HIF_RXSEL [k, c] "BASE" + n % 2 ^ d.get R.HIF_RXSEL [k, c] "LOG2CNT"

/-- R634: a frame may proceed to its ring. -/
def Dev.rxReady (d : Dev) (k t : Nat) : Bool :=
  d.bit R.HIF_RX_CFG [k, t] "EN" && d.get R.HIF_RX_HEAD [k, t] "HEAD" != d.get R.HIF_RX_TAIL [k, t] "TAIL" && d.epUp k

/-- R632: bytes 10 to 31 of a receive descriptor. -/
def rxFields (e : QEnt) (len buf : Nat) : List Byte :=
  let i := e.info
  let fl := 1 + 2 * b2n (decide (len > buf)) + 4 * b2n i.h.isNone
  leBytes 2 len ++ [BitVec.ofNat 8 i.kind, BitVec.ofNat 8 i.cause, BitVec.ofNat 8 i.portIn, BitVec.ofNat 8 fl] ++ leBytes 2 i.srcId
    ++ leBytes 2 i.zone ++ leBytes 4 (pNs i.rx) ++ leBytes 4 (pSec i.rx) ++ leBytes 4 (i.h.getD 0)

/-- R624, R632, R633: a frame written to host memory, then its descriptor, then its message. -/
def Dev.rxWrite (d : Dev) (k t : Nat) (e : QEnt) (bytes desc : List Byte) : Dev :=
  let h := d.get R.HIF_RX_HEAD [k, t] "HEAD"
  let buf := leAt desc 8 2
  let d := d.dma (leAt desc 0 8) (bytes.take buf)
  let d := d.dma (d.addr64 R.HIF_RX_BASE_LO R.HIF_RX_BASE_HI [k, t] + 32 * h + 10) (rxFields e bytes.length buf)
  let d := d.put R.HIF_RX_HEAD [k, t] "HEAD" ((h + 1) % 2 ^ d.get R.HIF_RX_CFG [k, t] "LOG2")
  let d := if bytes.length > buf then d.bump R.HIF_RX_TRUNC [k] "COUNT" 1 else d
  d.msix k (if k = 0 then d.get R.HIF_RX_CFG [0, t] "VEC" else t)

/-- R635: the region of die 1 whose host VOQ of class c has a frame at its head for the die 1 endpoint. -/
def Dev.directVoq (d : Dev) (c : Nat) : Option Nat :=
  [2, 3].find? (fun g => match (d.voqOf g (512 + c)).ents.head? with | some e => e.committed && d.direct g (512 + c) e | none => false)

/-- R430, R633: a frame leaves for the host. -/
def Dev.rxOut (d : Dev) (k t : Nat) (e : QEnt) (desc : List Byte) : Dev :=
  let (d, bad, drop) := d.dataRead e false 64
  if bad && drop then d.entEnd e
  else (d.rxWrite k t e (if bad || e.stomp then stompFcs e.bytes else e.bytes) desc).entEnd e

/-- R634: a frame waits: the µs it waits are not modelled. -/
def Dev.rxWait (d : Dev) (k : Nat) : Dev := let (n, d) := d.fresh (2 ^ 16); d.bump R.HIF_RX_NOBUF [k] "COUNT" n

/-- R634, R466: the host queue of class c may send: its head frame may proceed to its ring, and its bucket has tokens. -/
def Dev.hostElig (d : Dev) (c : Nat) : Bool :=
  (match (d.eqOf (512 + c)).head? with | some e => d.rxReady 0 (d.rxRing 0 c e.info) | none => false) && (d.rows 64 c).1

/-- R469, R633: the head frame of host egress queue c leaves when it may proceed and the host port's deficit round robin selects it (log entry 98). -/
def Dev.hostDeliver (d : Dev) (c : Nat) (desc : List Byte) : Dev :=
  match d.eqOf (512 + c) with
  | [] => d
  | e :: l =>
    let t := d.rxRing 0 c e.info
    if !d.rxReady 0 t then d.rxWait 0 else
    let d := d.accrueAll 64
    match d.pickClass 64 d.hostElig with
    | (d', some x) => if x = c then (d'.leaveQ 64 c e l).rxOut 0 t e desc else d
    | (d', none) => d'

/-- R60, R633–R635: the head of a host egress queue (die 0), or of a host VOQ of die 1, is delivered. -/
def Dev.rxDeliver (d : Dev) (k c : Nat) (desc : List Byte) : Dev :=
  if !d.running then d
  else if k = 0 then d.hostDeliver c desc
  else
    match d.directVoq c with
    | none => d
    | some g =>
      match (d.voqOf g (512 + c)).ents with
      | [] => d
      | e :: _ =>
        let t := d.rxRing 1 c e.info
        if d.rxReady 1 t then (d.voqPop g (512 + c)).rxOut 1 t e desc else d.rxWait 1

/-! ## The endpoints (R63, R634, R708) -/

/-- R63, R635: the frames of a host VOQ that leave by an endpoint, dropped and counted. -/
def Dev.dropHostVoq (k : Nat) (d : Dev) (gc : Nat × Nat) : Dev :=
  let v := 512 + gc.2
  let (d, es) := d.voqTake gc.1 v (fun e => d.direct gc.1 v e == (k == 1))
  d.bump R.HIF_RX_DROP [k] "COUNT" es.length

/-- R63: the frames queued to port 64 that an endpoint would have taken, dropped and counted. -/
def Dev.dropHost (d : Dev) (k : Nat) : Dev :=
  let d := if k = 0 then (List.range 8).foldl (fun d c =>
      let es := d.eqOf (512 + c)
      (es.foldl Dev.entEnd (d.setEq (512 + c) [])).bump R.HIF_RX_DROP [0] "COUNT" es.length) d
    else d
  ((if k = 0 then [0, 1, 2, 3] else [2, 3]).flatMap (fun g => (List.range 8).map (fun c => (g, c)))).foldl (Dev.dropHostVoq k) d

/-- R61, R63: the HIF block of a die at its reset values, its drop counter kept. -/
def Dev.hifReset (d : Dev) (k : Nat) (keepStat : Bool) : Dev :=
  d.resetRegs (fun h => decide (380 ≤ h.r.id) && decide (h.r.id ≤ 396) && !(keepStat && h.r.is R.HIF_STAT)
    && (if h.r.dims.isEmpty then k == 1
      else if [R.HIF_TX_BASE_LO, R.HIF_TX_BASE_HI, R.HIF_TX_CFG, R.HIF_TX_HEAD, R.HIF_TX_TAIL].any (fun r => h.r.is r) then k == 0
      else h.ix.getD 0 0 == k))

/-- R63, R108, R664, R708: a PCIe reset of an endpoint. Whether an attestation is in the step that a reset of the die 0 endpoint ends is free. -/
def Dev.pcieReset (d : Dev) (k : Nat) (kind : PcieReset) : Dev :=
  if !epFitted k || d.glb.mode == .cold then d else
  let flr := kind == .flr
  let d := (d.dropHost k).hifReset k flr
  let ep := d.hif.ep.upd k (fun e => { Endpoint.reset with up := flr && e.up, sent := e.sent })
  let d := { d with hif := { d.hif with ep := ep } }
  if k = 0 then
    let d := { d with hif := { d.hif with stalled := [] } }
    let (x, d) := d.fresh 2
    let d := if d.sec.stmt.isSome && x == 1 then d.attDone 1 else d
    if d.glb.loader.state = 1 then d.formeFail (FErr.plain 2) else d
  else d

/-- HIF_STAT of a link that is up. -/
def Dev.linkStat (d : Dev) (k speed width : Nat) : Dev :=
  ((d.put R.HIF_STAT [k] "LINK" 1).put R.HIF_STAT [k] "SPEED" speed).put R.HIF_STAT [k] "WIDTH" width

/-- The messages that waited for an endpoint go out (R627). -/
def Dev.epRelease (d : Dev) (k : Nat) : Dev := { d with hif := { d.hif with ep := d.hif.ep.upd k Endpoint.release } }

/-- R68, R708: an endpoint has trained and accepts configuration requests; with `mem` and `bus` the host sets the two enables: PRESUMED, log 133. -/
def Dev.epReady (d : Dev) (k speed width : Nat) (mem bus : Bool) : Dev :=
  if !epFitted k || d.glb.mode == .cold then d else
  (({ d with hif := { d.hif with ep := d.hif.ep.upd k (fun e => { e with ready := true, up := true, memEn := mem, busEn := bus }) } }).linkStat k speed
    width).epRelease k

/-- R634: an endpoint's link goes down without a reset. -/
def Dev.epDown (d : Dev) (k : Nat) : Dev :=
  { d with hif := { d.hif with ep := d.hif.ep.upd k (fun e => { e with up := false }) } }.setW R.HIF_STAT [k] 0

/-- R634: it comes back. -/
def Dev.epBack (d : Dev) (k speed width : Nat) : Dev :=
  if !epFitted k || d.glb.mode == .cold then d else
  (({ d with hif := { d.hif with ep := d.hif.ep.upd k (fun e => { e with up := true }) } }).linkStat k speed width).epRelease k

/-- An endpoint changed. -/
def Dev.updEp (d : Dev) (k : Nat) (f : Endpoint → Endpoint) : Dev := { d with hif := { d.hif with ep := d.hif.ep.upd k f } }

/-- R622, R623: the vectors of an endpoint. -/
def epVecs (k : Nat) : Nat := if k = 0 then 64 else 8

/-- R627: a vector is unmasked: a pending one sends its message. -/
def Endpoint.unmask (e : Endpoint) (v : Nat) : Endpoint := { e with masked := e.masked.filter (· != v) }.release

/-- R627: a vector is masked. -/
def Endpoint.setMask (e : Endpoint) (v : Nat) : Endpoint := { e with masked := if e.masked.contains v then e.masked else e.masked ++ [v] }

/-- R627: a vector of an endpoint that takes accesses is unmasked. -/
def Dev.unmask (d : Dev) (k v : Nat) : Dev := if d.epTakes k then d.updEp k (·.unmask v) else d

/-! ## The endpoint's own address space (R622, R623, R708). The spec places the MSI-X table and the pending bits in BAR2; the words of an entry and the
offsets of configuration space are those of PCI: PRESUMED, log entry 158. -/

/-- R622: the class code of the function. -/
def classCode : Nat := 0x020000

/-- R622: word w of the MSI-X table entry of a vector: message address, message data, vector control. -/
def Endpoint.vecWord (e : Endpoint) (v w : Nat) : Nat :=
  let m := SMap.get e.vecs v (0, 0)
  match w with
  | 0 => m.1 % 2 ^ 32 | 1 => m.1 / 2 ^ 32 | 2 => m.2 | _ => b2n (e.masked.contains v)

/-- R622: that word written. -/
def Endpoint.setVecWord (e : Endpoint) (v w x : Nat) : Endpoint :=
  let m := SMap.get e.vecs v (0, 0)
  match w with
  | 0 => { e with vecs := SMap.set e.vecs v (m.1 / 2 ^ 32 * 2 ^ 32 + x, m.2) (0, 0) }
  | 1 => { e with vecs := SMap.set e.vecs v (x * 2 ^ 32 + m.1 % 2 ^ 32, m.2) (0, 0) }
  | 2 => { e with vecs := SMap.set e.vecs v (m.1, x) (0, 0) }
  | _ => if x % 2 = 1 then e.setMask v else e.unmask v

/-- R622: word w of the pending-bit array: the vectors that are masked and pending. -/
def Endpoint.pba (e : Endpoint) (w : Nat) : Nat :=
  ((List.range 32).map (fun i => if e.masked.contains (32 * w + i) && e.pending.contains (32 * w + i) then 2 ^ i else 0)).sum

/-- R622, R708: what a read of an endpoint's address space answers. What a word that the spec does not describe reads as is a free value. -/
def Dev.epAnswer (d : Dev) (k : Nat) (known : Option Nat) : Dev :=
  match known with
  | some v => d.updEp k (fun e => { e with cpl := .data v })
  | none => let (x, d) := d.fresh (2 ^ 32); d.updEp k (fun e => { e with cpl := .data x })

/-- R622: what is known of a word of BAR2. -/
def Dev.bar2Word (d : Dev) (k off : Nat) : Option Nat :=
  let e := d.hif.ep.get k
  if 0x800 ≤ off ∧ off < 0x800 + 16 * epVecs k then some (e.vecWord ((off - 0x800) / 16) (off / 4 % 4))
  else if 0xC00 ≤ off ∧ off < 0xC00 + epVecs k / 8 then some (e.pba ((off - 0xC00) / 4))
  else none

/-- R622: a word of configuration space over bits `x`: the enables of the command register and the class code stand in it. -/
def Dev.cfgWord (d : Dev) (k off x : Nat) : Nat :=
  let e := d.hif.ep.get k
  if off = 4 then setBits (setBits x 1 1 (b2n e.memEn)) 2 2 (b2n e.busEn) else if off = 8 then setBits x 31 8 classCode else x

/-- R622: a read of configuration space. The bits that the spec does not describe are free. -/
def Dev.cfgRead (d : Dev) (k off : Nat) : Dev := let (x, d) := d.fresh (2 ^ 32); d.epAnswer k (some (d.cfgWord k off x))

/-- R708: a request reaches an endpoint over its link. -/
def Dev.epLinked (d : Dev) (k : Nat) : Bool := epFitted k && d.glb.mode != .cold && (d.hif.ep.get k).up

/-- R708: a read of BAR2: one that the endpoint does not take completes as Unsupported Request. -/
def Dev.bar2Read (d : Dev) (k off : Nat) : Dev :=
  if !d.epLinked k then d
  else if !d.epTakes k then d.updEp k (fun e => { e with cpl := .unsupported })
  else d.epAnswer k (d.bar2Word k off)

/-- R708: a configuration request: until the endpoint accepts one it completes with Configuration Request Retry Status. -/
def Dev.cfgRequest (d : Dev) (k : Nat) (f : Dev → Dev) : Dev :=
  if !d.epLinked k then d else if !(d.hif.ep.get k).ready then d.updEp k (fun e => { e with cpl := .retry }) else f d

/-- R622, R708: a configuration write of the two enables and the power state; messages that waited go out. -/
def Dev.cfgWrite (d : Dev) (k : Nat) (mem bus d3 : Bool) : Dev :=
  d.cfgRequest k (fun d => d.updEp k (fun e => { e with memEn := mem, busEn := bus, d3 := d3 }.release))

end Sys2Proof.Machine
end

