-- ==== Sys2Proof/Machine/Reg.lean ====
section
/-! DEFINITION. Host accesses (R13–R19, R43, R60, R116–R120, R622–R626, R636, R707, R712): what an access reaches, what refuses it, what a write sets
and what a read returns. -/

namespace Sys2Proof.Machine

/-! ## What an access reaches -/

/-- R59, R60, R642, R644: the chain takes accesses: from ENROL onward, and only with the host credentials in use. -/
def Dev.chainTakes (d : Dev) : Bool := d.glb.mode != .root && d.bit R.GAL_CRED_CTL [] "EN"

/-- R39, R60, R622, R708: an access of a path reaches the part: over PCIe through the endpoint of die 0, over the chain with its credentials. -/
def Dev.reaches (d : Dev) (p : Path) : Bool := d.glb.mode != .cold && (match p with | .pcie => d.epTakes 0 | .galley => d.chainTakes)

/-- R7, R117: the capabilities of the part, in ID order, each with its body. -/
def caps : List (Nat × List Nat) :=
  [(1, [0x10000000, 0x03000000]), (2, [0x200000]), (3, []), (4, [2048 + 32 * 2 ^ 16]), (5, [1024]), (6, [3200])]
    ++ (if Config.capCustomer then [(7, [0x3000 + 0x3FFF * 2 ^ 16])] else []) ++ [(8, []), (9, []), (0xA, [65536])]
    ++ (Config.errata.take 54).map (fun e => (e.1, [e.2.1, e.2.2]))

/-- R116: the dwords of the list from an offset on, each capability behind the one before. -/
def capDwords : Nat → List (Nat × List Nat) → List Nat
  | _, [] => []
  | off, (id, b) :: l =>
    let next := off + 4 * (2 + b.length)
    [id + 2 ^ 16 + (2 + b.length) * 2 ^ 24, if l.isEmpty then 0 else next] ++ b ++ capDwords next l

/-- R116: the word of the capability list at an offset. -/
def capWord (off : Nat) : Option Nat := if off < 0x100 || off % 4 != 0 then none else (capDwords 0x100 caps)[(off - 0x100) / 4]?

/-- R26: the cluster whose scratch aperture holds an offset, and the offset in the aperture. -/
def aperOf (off : Nat) : Option (Nat × Nat) :=
  (List.range 12).findSome? (fun k => let b := apertureOff k 0; if b ≤ off && decide (off < b + 0x20000) then some (k, off - b) else none)

/-- R527: the port-level MAC and PCS registers. -/
def RegSpec.portLevel (r : RegSpec) : Bool := (decide (295 ≤ r.id) && decide (r.id ≤ 308)) || (decide (312 ≤ r.id) && decide (r.id ≤ 317))

/-- R43, R528: the blocks that REST stops: MEM, MAC, PCS, SDS. -/
def RegSpec.restStops (r : RegSpec) : Bool := decide (276 ≤ r.id) && decide (r.id ≤ 325)

/-- R528: the blocks of the lanes. -/
def RegSpec.lanes (r : RegSpec) : Bool := decide (295 ≤ r.id) && decide (r.id ≤ 325)

/-- R527: the port of the lane that indices name. -/
def laneOf (ix : List Nat) : Nat := 32 * ix.getD 0 0 + 16 * ix.getD 1 0 + ix.getD 2 0

/-- R527, R637: a register that the part does not show: a receive ring of die 1 above 7, a port-level register of a lane inside another lane's port,
an instance that does not exist. -/
def Dev.hidden (d : Dev) (h : Hit) : Bool :=
  h.r.noInst h.ix || ([R.HIF_RX_BASE_LO, R.HIF_RX_BASE_HI, R.HIF_RX_CFG, R.HIF_RX_HEAD, R.HIF_RX_TAIL].any (fun r => h.r.is r) && h.ix.getD 0 0 == 1 && decide (8 ≤ h.ix.getD 1 0))
    || (h.r.portLevel && (match d.portOfLane (laneOf h.ix) with | some p => p != laneOf h.ix | none => false))

/-- R625: an offset of the GLB block. -/
def isGlb (off : Nat) : Bool := decide (off < 0x100000)

/-- R707: ABSENT or STOPPED, where an access is one of them whatever it does. -/
def Dev.accErr (d : Dev) (off : Nat) : Option Nat :=
  let hit := findReg off
  let here := (capWord off).isSome || (aperOf off).isSome || (match hit with | some h => !d.hidden h | none => false)
  if !here then some 5
  else if !isGlb off && (d.glb.mode == .root || !d.boot "ROOT_DONE") then some 2
  else match hit with
    | none => none
    | some h =>
      if (h.r.restStops && d.glb.mode == .rest) || (h.r.lanes && d.glb.mode == .enrol) then some 2 else none

/-! ## Checks of a write (R707, R712) -/

/-- A field of a register in a word written. -/
def fv (r : RegSpec) (f : String) (v : Nat) : Nat := match r.field f with | some g => bitsOf v g.hi g.lo | none => 0

/-- R707: a refusal of a TYPE where a condition holds, 0 for none. -/
def refuseIf (t : Nat) (c : Bool) : Nat := if c then t else 0

/-- The first refusal of several. -/
def firstOf (l : List Nat) : Nat := (l.find? (· != 0)).getD 0

/-- A command code that is 0 or above the last. -/
def opBad (last op : Nat) : Nat := refuseIf 6 (op == 0 || decide (last < op))

/-- R712: the low six bits of a DMA base must be 0. -/
def low6 (v : Nat) : Nat := refuseIf 3 (v % 64 != 0)

/-- A value outside a range. -/
def outside (lo hi v : Nat) : Nat := refuseIf 3 (decide (v < lo) || decide (hi < v))

/-- A write while a BUSY bit reads 1. -/
def Dev.busyOf (d : Dev) (r : RegSpec) (ix : List Nat) (f : String) : Nat := refuseIf 4 (d.bit r ix f)

/-- What tests the writes of some registers: the part, the indices, the value written: 0 or the TYPE of the refusal. -/
abbrev Checks := List (RegSpec × (Dev → List Nat → Nat → Nat))

/-- R84, R96, R105, R382, R699: GLB; R665, R664: SEC. -/
def checksGlb : Checks :=
  [(R.GLB_FORME_ADDR_LO, fun d _ v => firstOf [refuseIf 4 (d.glb.loader.state != 0), low6 v]), (R.GLB_FORME_ADDR_HI, fun d _ _ => refuseIf 4 (d.glb.loader.state != 0)),
    (R.GLB_FORME_LEN, fun d _ v => firstOf [refuseIf 4 (d.glb.loader.state != 0), outside 0 4194304 (fv R.GLB_FORME_LEN "LEN" v)]),
    (R.GLB_PATCH_LEN, fun _ _ v => outside 0 524288 (fv R.GLB_PATCH_LEN "LEN" v)), (R.GLB_PATCH_ADDR_LO, fun _ _ v => low6 v),
    (R.GLB_THERM_CFG, fun _ _ v => outside 60 110 (fv R.GLB_THERM_CFG "ALERT_C" v)),
    (R.SEC_OTP_ADDR_LO, fun d _ v => firstOf [d.busyOf R.SEC_OTP_STAT [] "BUSY", low6 v]), (R.SEC_OTP_ADDR_HI, fun d _ _ => d.busyOf R.SEC_OTP_STAT [] "BUSY"),
    (R.SEC_OTP_CMD, fun d _ v => firstOf [d.busyOf R.SEC_OTP_STAT [] "BUSY", opBad 3 (fv R.SEC_OTP_CMD "OP" v)]),
    (R.SEC_ATT_NONCE, fun d _ _ => d.busyOf R.SEC_ATT_STAT [] "BUSY"), (R.SEC_ATT_ADDR_LO, fun d _ v => firstOf [d.busyOf R.SEC_ATT_STAT [] "BUSY", low6 v]),
    (R.SEC_ATT_ADDR_HI, fun d _ _ => d.busyOf R.SEC_ATT_STAT [] "BUSY")]

/-- R603: a response word that sets a reserved ARM bit or names an unassigned code. -/
def respBad (code v : Nat) : Bool := !codes.contains code || Nat.lor (fv R.ERR_RESP "ARM" v) (codeArms code) != codeArms code

/-- R603, R616, R620: ERR; R576, R578, R589: TIM; R689: TRC. -/
def checksErr : Checks :=
  [(R.ERR_RING_BASE_LO, fun _ _ v => low6 v), (R.ERR_RING_SIZE, fun _ _ v => outside 5 16 (fv R.ERR_RING_SIZE "LOG2" v)),
    (R.ERR_RESP, fun _ ix v => refuseIf 3 (respBad (ix.getD 1 0) v)),
    (R.TIM_SET_INC, fun d _ _ => d.busyOf R.TIM_CMD_STAT [] "PENDING"), (R.TIM_SET_SEC, fun d _ _ => d.busyOf R.TIM_CMD_STAT [] "PENDING"),
    (R.TIM_SET_NS, fun d _ _ => d.busyOf R.TIM_CMD_STAT [] "PENDING"), (R.TIM_STEP_NS, fun d _ _ => d.busyOf R.TIM_CMD_STAT [] "PENDING"),
    (R.TIM_EPOCH, fun d _ _ => d.busyOf R.TIM_CMD_STAT [] "PENDING"),
    (R.TIM_CMD, fun d _ v => let op := fv R.TIM_CMD "OP" v
      if op = 4 then 0 else firstOf [d.busyOf R.TIM_CMD_STAT [] "PENDING", opBad 3 op]),
    (R.TIM_ETMR_CTL, fun d ix _ => refuseIf 3 (d.bit R.TIM_ETMR_CTL ix "FORME")), (R.TIM_ETMR_PER, fun d ix _ => refuseIf 3 (d.bit R.TIM_ETMR_CTL ix "FORME")),
    (R.TIM_ETMR_PH, fun d ix _ => refuseIf 3 (d.bit R.TIM_ETMR_CTL ix "FORME")), (R.TIM_ETMR_CNT, fun d ix _ => refuseIf 3 (d.bit R.TIM_ETMR_CTL ix "FORME")),
    (R.ERR_INJ_ADDR, fun d ix _ => d.busyOf R.ERR_INJ ix "GO"),
    (R.TRC_ENG_PER, fun _ _ v => outside 8 24 (fv R.TRC_ENG_PER "PER" v))]

/-- R637: a write of a ring's configuration: base and LOG2 are fixed while the ring is in use. -/
def Dev.ringBad (d : Dev) (r : RegSpec) (ix : List Nat) (v : Nat) (die0 : Bool) : Nat :=
  firstOf [refuseIf 4 (d.bit r ix "EN" && fv r "LOG2" v != d.get r ix "LOG2"), outside 4 15 (fv r "LOG2" v), refuseIf 3 (die0 && decide (fv r "VEC" v > 47))]

/-- R635, R637, R713: HIF. -/
def checksHif : Checks :=
  [(R.HIF_TX_BASE_LO, fun d ix v => firstOf [refuseIf 4 (d.bit R.HIF_TX_CFG ix "EN"), low6 v]), (R.HIF_TX_BASE_HI, fun d ix _ => refuseIf 4 (d.bit R.HIF_TX_CFG ix "EN")),
    (R.HIF_RX_BASE_LO, fun d ix v => firstOf [refuseIf 4 (d.bit R.HIF_RX_CFG ix "EN"), low6 v]), (R.HIF_RX_BASE_HI, fun d ix _ => refuseIf 4 (d.bit R.HIF_RX_CFG ix "EN")),
    (R.HIF_TX_CFG, fun d ix v => d.ringBad R.HIF_TX_CFG ix v true), (R.HIF_RX_CFG, fun d ix v => d.ringBad R.HIF_RX_CFG ix v (ix.getD 0 0 == 0)),
    (R.HIF_TX_TAIL, fun d ix v => refuseIf 3 (decide (fv R.HIF_TX_TAIL "TAIL" v ≥ 2 ^ d.get R.HIF_TX_CFG ix "LOG2"))),
    (R.HIF_RX_TAIL, fun d ix v => refuseIf 3 (decide (fv R.HIF_RX_TAIL "TAIL" v ≥ 2 ^ d.get R.HIF_RX_CFG ix "LOG2"))),
    (R.HIF_RXSEL, fun _ ix v => refuseIf 3 (decide (fv R.HIF_RXSEL "BASE" v + 2 ^ fv R.HIF_RXSEL "LOG2CNT" v > if ix.getD 0 0 = 0 then 64 else 8))),
    (R.HIF1_CTL, fun d _ v => refuseIf 3 (hasBit v 0 && !(epFitted 1 && (d.hif.ep.get 1).up)))]

/-- The administrative list and parameters of a port while a change is pending (R476). -/
def Dev.gatePend (d : Dev) (ix : List Nat) : Nat := refuseIf 4 (d.bit R.SCH_GATE_CTL (ix.take 2) "PENDING")

/-- R448, R462, R468, R476, R495, R524, R522: TMG, SCH, MEM. -/
def checksEgr : Checks :=
  [(R.TMG_RESEQ_TMO, fun _ _ v => refuseIf 3 (fv R.TMG_RESEQ_TMO "TMO_US" v == 0)),
    (R.TMG_MC_GRP, fun _ _ v => refuseIf 3 (fv R.TMG_MC_GRP "EN" v == 1 && (fv R.TMG_MC_GRP "COUNT" v == 0 || fv R.TMG_MC_GRP "COUNT" v == 255))),
    (R.SCH_QUANTUM, fun d ix v => refuseIf 3 (!recRangeOk (fun p => d.get R.SCH_PORT_CFG [ix.getD 0 0, p] "MAXFRM") ⟨R.SCH_QUANTUM, ix, false⟩ v)),
    (R.SCH_GATE_CYCLE, fun d ix _ => d.gatePend ix), (R.SCH_GATE_BASE_NS, fun d ix _ => d.gatePend ix), (R.SCH_GATE_BASE_SEC, fun d ix _ => d.gatePend ix),
    (R.SCH_GATE_LIST, fun d ix _ => d.gatePend ix),
    (R.MEM_CTL, fun _ _ v => outside 8 14 (fv R.MEM_CTL "NRP" v)),
    (R.MEM_WDRAIN, fun _ _ v => refuseIf 3 (decide (fv R.MEM_WDRAIN "HI" v > 60) || decide (fv R.MEM_WDRAIN "LO" v ≥ fv R.MEM_WDRAIN "HI" v))),
    (R.MEM_PANIC_CFG, fun _ _ v => outside 50 150 (fv R.MEM_PANIC_CFG "AGE_NS" v)),
    (R.MEM_STACK_CTL, fun d _ v => refuseIf 3 (fv R.MEM_STACK_CTL "MIRROR_RD" v == 1 && !d.mirrored))]

/-- R142, R143, R163, R168, R169, R233, R331, R340, R320, R614: FLW. -/
def checksFlw : Checks :=
  [(R.FLW_LIMIT, fun d _ v => refuseIf 3 (decide (fv R.FLW_LIMIT "LIMIT" v > if d.mirrored then 0x4000000 else 0x8000000))),
    (R.FLW_SWEEP_CFG, fun _ _ v => outside 100 1000000 (fv R.FLW_SWEEP_CFG "PERIOD_MS" v)),
    (R.FLW_STACK_OOS, fun d _ v => refuseIf 3 (fv R.FLW_STACK_OOS "OOS" v != 0 && !d.mirrored)),
    (R.FLW_PEND_CFG, fun _ _ v => refuseIf 3 (fv R.FLW_PEND_CFG "MAX_PKTS" v == 0)),
    (R.FLW_HKEY, fun d ix _ => d.busyOf R.FLW_HSTAT (ix.take 1) "BUSY"), (R.FLW_HREC, fun d ix _ => d.busyOf R.FLW_HSTAT (ix.take 1) "BUSY"),
    (R.FLW_HCMD, fun d ix v => firstOf [d.busyOf R.FLW_HSTAT ix "BUSY", opBad 3 (fv R.FLW_HCMD "OP" v)]),
    (R.FLW_QN_RLOC, fun d ix _ => d.busyOf R.FLW_QN_RSTAT ix "BUSY"),
    (R.FLW_QN_RCMD, fun d ix v => firstOf [d.busyOf R.FLW_QN_RSTAT ix "BUSY", opBad 3 (fv R.FLW_QN_RCMD "OP" v)]),
    (R.FLW_DIV_LOC, fun d ix _ => d.busyOf R.FLW_DIV_STAT ix "BUSY"),
    (R.FLW_DIV_CMD, fun d ix v => firstOf [d.busyOf R.FLW_DIV_STAT ix "BUSY", opBad 2 (fv R.FLW_DIV_CMD "OP" v)]),
    (R.ACT_ENT, fun d ix _ => d.busyOf R.ACT_STAT (ix.take 1) "BUSY"),
    (R.ACT_CMD, fun d ix v => firstOf [d.busyOf R.ACT_STAT ix "BUSY", opBad 2 (fv R.ACT_CMD "OP" v)]),
    (R.ACT_TO, fun _ _ v => outside 0 8388607 (fv R.ACT_TO "TO_MS" v)),
    (R.CP_CFG, fun _ _ v => let s := fv R.CP_CFG "SLEN" v; let h := fv R.CP_CFG "HBITS" v
      refuseIf 3 (fv R.CP_CFG "EN" v == 1 && !(decide (8 ≤ s) && decide (s ≤ 24) && decide (4 ≤ h) && decide (h ≤ 16) && decide (s + h ≤ 31) && decide (16 ≤ s + h)))),
    (R.BAL_IDX, fun d ix _ => d.busyOf R.BAL_STAT ix "BUSY"), (R.BAL_DATA, fun d ix _ => d.busyOf R.BAL_STAT (ix.take 1) "BUSY"),
    (R.BAL_CMD, fun d ix v => firstOf [d.busyOf R.BAL_STAT ix "BUSY", opBad 6 (fv R.BAL_CMD "OP" v)])]

/-- R236: a parse configuration whose START has no state, or whose key form is not in use. -/
def Dev.prsBad (d : Dev) (ix : List Nat) (v : Nat) : Bool :=
  (match d.body 1 with | some b => (stateRec b (fv R.PRS_PORT_CFG "START" v)).isNone | none => true)
    || !d.bit R.FLW_KFORM [ix.getD 0 0, fv R.PRS_PORT_CFG "KFORM" v] "EN"

/-- R249: a DWRITE of a pre-hash entry that names a form outside the mask. -/
def Dev.dwriteBad (d : Dev) (ix : List Nat) (v : Nat) : Bool :=
  fv R.MAT_EX_CMD "OP" v == 5 && d.preRefused (fv R.MAT_EX_CMD "TABLE" v) (d.staged R.MAT_EX_RES ix 2)

/-- R236, R249, R279, R280, R290, R298, R302, R364, R417, R419: PRS, MAT, L2, TSK. -/
def checksMat : Checks :=
  [(R.PRS_PORT_CFG, fun d ix v => refuseIf 3 (d.prsBad ix v)),
    (R.MAT_TCAM_VAL, fun d ix _ => d.busyOf R.MAT_TCAM_STAT (ix.take 2) "BUSY"), (R.MAT_TCAM_MASK, fun d ix _ => d.busyOf R.MAT_TCAM_STAT (ix.take 2) "BUSY"),
    (R.MAT_TCAM_RES, fun d ix _ => d.busyOf R.MAT_TCAM_STAT (ix.take 2) "BUSY"), (R.MAT_TCAM_SIDE, fun d ix _ => d.busyOf R.MAT_TCAM_STAT ix "BUSY"),
    (R.MAT_TCAM_CMD, fun d ix v => firstOf [d.busyOf R.MAT_TCAM_STAT ix "BUSY", opBad 4 (fv R.MAT_TCAM_CMD "OP" v)]),
    (R.MAT_EX_KEY, fun d ix _ => d.busyOf R.MAT_EX_STAT (ix.take 2) "BUSY"), (R.MAT_EX_RES, fun d ix _ => d.busyOf R.MAT_EX_STAT (ix.take 2) "BUSY"),
    (R.MAT_EX_SIDE, fun d ix _ => d.busyOf R.MAT_EX_STAT ix "BUSY"),
    (R.MAT_EX_CMD, fun d ix v => firstOf [d.busyOf R.MAT_EX_STAT ix "BUSY", opBad 6 (fv R.MAT_EX_CMD "OP" v),
      refuseIf 3 (d.dwriteBad ix v)]),
    (R.L2_SWEEP_CFG, fun _ _ v => outside 100 1000000 (fv R.L2_SWEEP_CFG "PERIOD_MS" v)), (R.L2_EVT_BASE_LO, fun _ _ v => low6 v),
    (R.L2_HENT, fun d ix _ => d.busyOf R.L2_HSTAT (ix.take 1) "BUSY"),
    (R.L2_HCMD, fun d ix v => firstOf [d.busyOf R.L2_HSTAT ix "BUSY", opBad 4 (fv R.L2_HCMD "OP" v)]),
    (R.TSK_SCFG, fun d ix _ => d.busyOf R.TSK_STAT ix "BUSY"), (R.TSK_SARG, fun d ix _ => d.busyOf R.TSK_STAT ix "BUSY"),
    (R.TSK_SINTM, fun d ix _ => d.busyOf R.TSK_STAT ix "BUSY"),
    (R.TSK_CMD, fun d ix v => firstOf [d.busyOf R.TSK_STAT ix "BUSY", opBad 4 (fv R.TSK_CMD "OP" v)]),
    (R.TSK_LINE, fun _ _ v => refuseIf 3 (fv R.TSK_LINE "BIT" v == 31)), (R.TSK_WDOG, fun _ _ v => refuseIf 3 (fv R.TSK_WDOG "TMO_US" v == 0))]

/-- R530: the taps of a FIR entry. -/
def firBad (v : Nat) : Bool :=
  let pre := sgn 6 (fv R.SDS_FIR "PRE" v)
  let post := sgn 6 (fv R.SDS_FIR "POST" v)
  let main := fv R.SDS_FIR "MAIN" v
  decide (pre < -16) || decide (pre > 0) || decide (post < -16) || decide (post > 0) || decide (main < 16) || decide ((main : Int) - pre - post > 63)

/-- R527, R530, R563, R568: MAC, SDS. -/
def checksMac : Checks :=
  [(R.MAC_PORT_CFG, fun d ix v => firstOf [refuseIf 3 (d.modeBad (laneOf ix) (fv R.MAC_PORT_CFG "MODE" v)), outside 64 9216 (fv R.MAC_PORT_CFG "MAXFRM_RX" v)]),
    (R.MAC_LINK_TMR, fun _ _ v => firstOf [outside 0 250 (fv R.MAC_LINK_TMR "DOWN_DB_US" v), outside 0 10000 (fv R.MAC_LINK_TMR "HOLD_US" v)]),
    (R.MAC_PFC_TX, fun _ _ v => refuseIf 3 (decide (fv R.MAC_PFC_TX "XON" v ≥ fv R.MAC_PFC_TX "XOFF" v))),
    (R.SDS_FIR, fun _ _ v => refuseIf 3 (firBad v)),
    (R.SDS_CTL, fun d ix v => refuseIf 3 (fv R.SDS_CTL "LOOP" v != 0 && !d.laneTestOk (laneOf ix))),
    (R.SDS_PRBS_CTL, fun d ix v => refuseIf 3 ((fv R.SDS_PRBS_CTL "GEN_EN" v == 1 || fv R.SDS_PRBS_CTL "CHK_EN" v == 1) && !d.laneTestOk (laneOf ix)))]

/-- Every check. -/
def checks : Checks := checksGlb ++ checksErr ++ checksHif ++ checksEgr ++ checksFlw ++ checksMat ++ checksMac

/-- R707: the TYPE that refuses a value, 0 for none. -/
def Dev.writeRefused (d : Dev) (h : Hit) (v : Nat) : Nat := match checks.find? (fun c => c.1.is h.r) with | some c => c.2 d h.ix v | none => 0

end Sys2Proof.Machine
end

