-- ==== Sys2Proof/Machine/RegOp.lean ====
section
/-! DEFINITION. What a write of each register does and what a read of it returns (R13–R19, R109, R642). -/

namespace Sys2Proof.Machine

/-! ## Writes -/

/-- R13: one field after a write. Writes of WO fields are actions and store nothing. -/
def fieldWrite (cur v acc : Nat) (f : RField) : Nat :=
  let old := bitsOf cur f.hi f.lo
  let new := bitsOf v f.hi f.lo
  match f.acc with
  | .rw => setBits acc f.hi f.lo new
  | .rwl => setBits acc f.hi f.lo new
  | .w1c => setBits acc f.hi f.lo (old - Nat.land old new)
  | .w1s => setBits acc f.hi f.lo (Nat.lor old new)
  | .wo => acc
  | .ro => acc
  | .rc => acc

/-- R13: a register after a write of its fields. -/
def Dev.fieldsWrite (d : Dev) (r : RegSpec) (ix : List Nat) (v : Nat) : Dev :=
  let cur := d.getW r ix
  d.setW r ix (r.fields.foldl (fieldWrite cur v) cur)

/-- R16: RWL fields are locked. -/
def Dev.locks (d : Dev) : Bool := d.glb.mode == .run || d.glb.mode == .drain || d.glb.mode == .rest

/-- R16: a value written, its locked fields as they stand. -/
def Dev.lockedValue (d : Dev) (r : RegSpec) (ix : List Nat) (v : Nat) : Nat :=
  if !d.locks then v else
  let cur := d.getW r ix
  (r.fields.filter (fun f => f.acc == .rwl)).foldl (fun w f => setBits w f.hi f.lo (bitsOf cur f.hi f.lo)) v

/-- R649: GAL_KEY and the EN of GAL_CRED_CTL while LOCK = 1. -/
def Dev.credLocked (d : Dev) (r : RegSpec) : Bool := (r.is R.GAL_KEY || r.is R.GAL_CRED_CTL) && d.bit R.GAL_CRED_CTL [] "LOCK"

/-- R642: a register that a galley WR may not set. -/
def RegSpec.noWr (r : RegSpec) : Bool := (decide (407 ≤ r.id) && decide (r.id ≤ 424)) || r.is R.GAL_KEY || r.is R.GAL_CRED_CTL

/-- Bytes that a DMA fetches from host memory, which the access does not carry: free values. -/
def Dev.freshBytes : Nat → Dev → List Byte × Dev
  | 0, d => ([], d)
  | n + 1, d => let (x, d) := d.fresh 256; let (l, d) := Dev.freshBytes n d; (BitVec.ofNat 8 x :: l, d)

/-- R665: a write of SEC_OTP_CMD; what a PROG_OROOT fetches, and whether the fetch fails, is free. -/
def Dev.otpWrite (d : Dev) (v : Nat) : Dev :=
  let arg := fv R.SEC_OTP_CMD "ARG" v
  match fv R.SEC_OTP_CMD "OP" v with
  | 1 =>
    let (f, d) := d.fresh 2
    let (b, d) := Dev.freshBytes 29992 d
    d.progOroot arg (if f = 1 then none else some b)
  | 2 => d.raiseOsvn arg
  | _ => d.raiseVsvn arg

/-- R649: a write of GAL_KEY. -/
def Dev.keyWrite (d : Dev) (n v : Nat) : Dev := { d with gal := { d.gal with key := patch d.gal.key (4 * n) (leBytes 4 v) } }

/-- R637: a write of a ring's configuration; a ring that was not in use starts over, and one that leaves use gives up its stalled descriptor. -/
def Dev.ringWrite (d : Dev) (cfg head tail : RegSpec) (ix : List Nat) (v : Nat) : Dev :=
  let was := d.bit cfg ix "EN"
  let d := d.fieldsWrite cfg ix v
  if was then d else (d.put head ix "HEAD" 0).put tail ix "TAIL" 0

/-- R629, R637: a write of HIF_TX_CFG. -/
def Dev.txCfgWrite (d : Dev) (ix : List Nat) (v : Nat) : Dev :=
  let d := d.ringWrite R.HIF_TX_CFG R.HIF_TX_HEAD R.HIF_TX_TAIL ix v
  if d.bit R.HIF_TX_CFG ix "EN" then d else { d with hif := { d.hif with stalled := d.hif.stalled.filter (fun x => x.1 != ix.getD 0 0) } }

/-- The engine of a register's indices. -/
def engOfIx (ix : List Nat) : Nat := 48 * ix.getD 0 0 + 24 * ix.getD 1 0 + 8 * ix.getD 2 0 + ix.getD 3 0

/-- The cluster of a register's indices. -/
def clOfIx (ix : List Nat) : Nat := 6 * ix.getD 0 0 + 3 * ix.getD 1 0 + ix.getD 2 0

/-- The region of a register's indices. -/
def rgOfIx (ix : List Nat) : Nat := 2 * ix.getD 0 0 + ix.getD 1 0

/-- R563, R565: a write of SDS_PRBS_CTL; a checker that is off holds no lock. -/
def Dev.prbsWrite (d : Dev) (ix : List Nat) (v : Nat) : Dev :=
  let d := d.fieldsWrite R.SDS_PRBS_CTL ix v
  let d := if d.bit R.SDS_PRBS_CTL ix "CHK_EN" then d else d.prbsOff (laneOf ix)
  d.injDue (laneOf ix)

/-- R551: the registers that the cells of a port's classes are compared with. -/
def RegSpec.pfc (r : RegSpec) : Bool := r.is R.MAC_PFC_TX || r.is R.MAC_PORT_CFG

/-- What a write of some registers does: the part, the path, the indices, the value. -/
abbrev Writers := List (RegSpec × (Dev → Path → List Nat → Nat → Dev))

/-- GLB, SEC, GAL, ERR, TIM, TRC. -/
def writersGlb : Writers :=
  [(R.GLB_MODE_REQ, fun d p _ v => d.modeReqWrite p v), (R.GLB_RESET, fun d p _ v => d.resetWrite p v), (R.GLB_FORME_CTL, fun d p _ v => d.formeCtlWrite p v),
    (R.GLB_PATCH_CTL, fun d p _ v => d.patchCtlWrite p v), (R.GLB_THERM_CFG, fun d _ ix v => (d.fieldsWrite R.GLB_THERM_CFG ix v).alertPin),
    (R.SEC_OTP_CMD, fun d _ _ v => d.otpWrite v), (R.SEC_ATT_CMD, fun d p _ v => if hasBit v 0 then d.attStart p else d),
    (R.GAL_KEY, fun d _ ix v => d.keyWrite (ix.getD 0 0) v), (R.ERR_INJ, fun d p ix v => d.injWrite p (ix.getD 0 0) v),
    (R.TIM_CMD, fun d p _ v => if fv R.TIM_CMD "OP" v = 4 then d.timCancel else d.timCommand p (fv R.TIM_CMD "OP" v)),
    (R.TRC_CTL, fun d _ ix v => d.trcCtl (ix.getD 0 0) v), (R.TRC_MARK, fun d _ ix v => d.trcMark (ix.getD 0 0) v),
    (R.TRC_RD_IDX, fun d p ix v => d.setTrcIdx p (ix.getD 0 0) (fv R.TRC_RD_IDX "INDEX" v))]

/-- FLW and its actions, quoins and diverts; HIF. -/
def writersFlw : Writers :=
  [(R.FLW_HCMD, fun d _ ix v => let k := ix.getD 0 0
      match fv R.FLW_HCMD "OP" v with | 1 => d.hostLookup k | 2 => d.hostDelete k | _ => d.hostInsert k),
    (R.FLW_MIR_CTL, fun d _ ix v => let d := d.fieldsWrite R.FLW_MIR_CTL ix v; if fv R.FLW_MIR_CTL "INV" v = 1 then d.hintInv (ix.getD 0 0) else d),
    (R.FLW_QN_RCMD, fun d _ ix v => let k := ix.getD 0 0
      match fv R.FLW_QN_RCMD "OP" v with | 1 => d.tornReadCmd k | 2 => d.tornRestoreCmd k | _ => d.tornEmptyCmd k),
    (R.FLW_DIV_CMD, fun d _ ix v => if fv R.FLW_DIV_CMD "OP" v = 1 then d.divRelease (ix.getD 0 0) else d.divPurge (ix.getD 0 0)),
    (R.ACT_CMD, fun d _ ix v => let i := fv R.ACT_CMD "INDEX" v
      if fv R.ACT_CMD "OP" v = 1 then d.actWrite (ix.getD 0 0) i else d.actRead (ix.getD 0 0) i),
    (R.BAL_CMD, fun d _ ix v => let k := ix.getD 0 0
      match fv R.BAL_CMD "OP" v with
      | 1 => d.balGwrite k | 2 => d.balGread k | 3 => d.balMwrite k | 4 => d.balMread k | 5 => d.balLwrite k | _ => d.balLread k),
    (R.CP_ENT_W0, fun d _ ix v => d.cpWrite (ix.getD 0 0) (ix.getD 1 0) 0 v), (R.CP_ENT_W1, fun d _ ix v => d.cpWrite (ix.getD 0 0) (ix.getD 1 0) 1 v),
    (R.HIF_TX_CFG, fun d _ ix v => d.txCfgWrite ix v),
    (R.HIF_RX_CFG, fun d _ ix v => d.ringWrite R.HIF_RX_CFG R.HIF_RX_HEAD R.HIF_RX_TAIL ix v)]

/-- MAT, L2, TSK, KSN, PMC. -/
def writersMat : Writers :=
  [(R.MAT_TCAM_CMD, fun d _ ix v => let g := rgOfIx ix; let f := fv R.MAT_TCAM_CMD "PROF" v; let i := fv R.MAT_TCAM_CMD "INDEX" v
      match fv R.MAT_TCAM_CMD "OP" v with | 1 => d.tcamWrite g f i | 2 => d.tcamInvalidate g f i | 3 => d.tcamRead g f i | _ => d.tcamReadArray g f i),
    (R.MAT_EX_CMD, fun d _ ix v => let g := rgOfIx ix; let t := fv R.MAT_EX_CMD "TABLE" v; let i := fv R.MAT_EX_CMD "INDEX" v
      match fv R.MAT_EX_CMD "OP" v with
      | 1 => d.exLookup g t | 2 => d.exInsert g t | 3 => d.exDelete g t | 4 => d.exReplace g t | 5 => d.dirWrite g t i | _ => d.dirRead g t i),
    (R.MAT_CNT_SEL, fun d _ ix v => d.cntSnapshot (rgOfIx ix) v),
    (R.L2_HCMD, fun d _ ix v => let k := ix.getD 0 0
      match fv R.L2_HCMD "OP" v with | 1 => d.l2Lookup k | 2 => d.l2Insert k | 3 => d.l2Delete k | _ => d.l2Flush k (fv R.L2_HCMD "FIDM" v == 1)),
    (R.L2_EVT_HEAD, fun d _ ix v => (d.fieldsWrite R.L2_EVT_HEAD ix v).l2Resume (ix.getD 0 0)),
    (R.L2_EVT_CTL, fun d _ ix v => (d.fieldsWrite R.L2_EVT_CTL ix v).l2Resume (ix.getD 0 0)),
    (R.TSK_CMD, fun d _ ix v => let k := ix.getD 0 0; let s := fv R.TSK_CMD "SLOT" v
      match fv R.TSK_CMD "OP" v with | 1 => d.tskCreate k s | 2 => d.tskKill k s | 3 => d.tskRequeue k s | _ => d.tskSetprio k s),
    (R.TSK_SLOT_EVT, fun d _ ix v => d.setEvents (ix.getD 0 0) (ix.getD 1 0) (v % 2 ^ 31)),
    (R.KSN_ENG_CFG, fun d p ix v => d.roleWrite p (engOfIx ix) (fv R.KSN_ENG_CFG "ROLE" v == 1)),
    (R.KSN_ENG_RESET, fun d _ ix v => if hasBit v 0 then d.engResetAll (engOfIx ix) false else d),
    (R.KSN_ENG_IRQ, fun d _ ix v => if hasBit v 0 then d.raiseIrq (engOfIx ix) 3 else d),
    (R.PMC_EVSEL, fun d _ ix v => d.evselWrite (clOfIx ix) (ix.getD 3 0) v)]

/-- SCH, MAC, SDS. -/
def writersMac : Writers :=
  [(R.SCH_GATE_CTL, fun d p ix v => d.gateCtlWrite p (32 * ix.getD 0 0 + ix.getD 1 0) v),
    (R.MAC_PORT_CTL, fun d _ ix v => d.adminWrite (laneOf ix) (hasBit v 0)),
    (R.MAC_PROT, fun d p ix v => d.protWrite p (rgOfIx ix) (ix.getD 2 0) v), (R.SDS_PRBS_CTL, fun d _ ix v => d.prbsWrite ix v),
    (R.SDS_CTL, fun d _ ix v => (d.fieldsWrite R.SDS_CTL ix v).injDue (laneOf ix))]

/-- Every write that does more than set fields. -/
def writers : Writers := writersGlb ++ writersFlw ++ writersMat ++ writersMac

/-- R470, R483: the registers whose rates and bursts the buckets follow: what has accrued so far is taken first. -/
def RegSpec.bucket (r : RegSpec) : Bool :=
  [R.SCH_PSHP_W0, R.SCH_PSHP_W1, R.SCH_QSHP_W0, R.SCH_QSHP_W1, R.TSN_MTR_W0, R.TSN_MTR_W1, R.TSN_MTR_W2, R.TSN_MTR_W3].any r.is

/-- R466, R471: the registers of the egress schedulers: the ports look at their queues again, and at the buckets that time has filled. -/
def RegSpec.sched (r : RegSpec) : Bool := [R.SCH_PORT_CFG, R.SCH_PORT_OVH, R.SCH_PSHP_W0, R.SCH_PSHP_W1, R.SCH_QUANTUM, R.SCH_QSHP_W0, R.SCH_QSHP_W1].any r.is

/-- A write that nothing refuses takes effect. -/
def Dev.performWrite (d : Dev) (p : Path) (h : Hit) (v : Nat) : Dev :=
  match writers.find? (fun w => w.1.is h.r) with
  | some w => w.2 d p h.ix v
  | none =>
    let d := if h.r.bucket then d.shaped (fun d => d.fieldsWrite h.r h.ix v) else d.fieldsWrite h.r h.ix v
    let d := if h.r.is R.BUF_SPILL_CFG || h.r.is R.BUF_PART_LOW then d.spillScan (h.ix.getD 0 0) else d
    let d := if h.r.pfc then d.pfcLook (laneOf h.ix) else d
    if h.r.sched || h.r.bucket then d.lookAll else d

/-- R18: a write of a word of another 64-bit register discards the low word that its path has staged. -/
def Dev.dropStaged (d : Dev) (p : Path) (h : Hit) : Dev :=
  let l := d.latch p
  match l.wl with
  | some (a, _) => if h.r.wide && a != h.r.addr h.ix then d.setLatch p { l with wl := none } else d
  | none => d

/-- R18: the value that a write gives a register whole: a high word takes the staged low word, or the low word that stands. -/
def Dev.wholeValue (d : Dev) (p : Path) (h : Hit) (v : Nat) : Nat :=
  let cur := d.getW h.r h.ix
  if !h.r.wide then v
  else if h.high then
    v * 2 ^ 32 + (match (d.latch p).wl with | some (a, w) => if a = h.r.addr h.ix then w else cur % 2 ^ 32 | none => cur % 2 ^ 32)
  else cur / 2 ^ 32 * 2 ^ 32 + v

/-- R18: a write that nothing refuses: a low word of a 64-bit register is staged, every other write takes effect. -/
def Dev.landWrite (d : Dev) (p : Path) (h : Hit) (v w : Nat) : Dev :=
  if h.r.wide && !h.high then d.setLatch p { d.latch p with wl := some (h.r.addr h.ix, v) }
  else
    let d := if h.r.wide then d.setLatch p { d.latch p with wl := none } else d
    d.performWrite p h w

/-- R16, R18, R642, R707: a write of a register word. A high-word write that is refused leaves the low word that its path has staged: DESIGN CHOICE,
log entry 149. -/
def Dev.regWrite (d : Dev) (p : Path) (off v : Nat) (h : Hit) : Dev :=
  let d := d.dropStaged p h
  let full := d.wholeValue p h v
  let w := d.lockedValue h.r h.ix full
  let own := d.credLocked h.r
  let b := d.writeRefused h w
  let gal := p == .galley && h.r.noWr
  if own then d.hostAcc p 1 off v true
  else if b != 0 || gal then d.hostAcc p (if w != full then 1 else if b = 4 || b = 6 then b else 3) off v true
  else (if w != full then d.hostAcc p 1 off v true else d).landWrite p h v w

/-- R109: a write of a field that an update in progress sets is held. -/
def Dev.mustHold (d : Dev) (h : Hit) : Bool := d.updating h && h.r.fields.any (fun f => f.acc == .rw || f.acc == .rwl)

/-- An access joins those that R109 holds. -/
def Dev.holdAcc (d : Dev) (p : Path) (off : Nat) (wr : Option Word) : Dev := { d with glb := { d.glb with held := d.glb.held ++ [(p, off, wr)] } }

/-- R13, R43, R626: a write that has its turn. -/
def Dev.doWrite (d : Dev) (p : Path) (off : Nat) (v : Word) : Dev :=
  match d.accErr off, aperOf off, findReg off with
  | some t, _, _ => d.hostAcc p t off v.toNat true
  | none, some (k, o), _ => d.scrAccess p k o (some v)
  | none, none, some h => if d.mustHold h then d.holdAcc p off (some v) else d.regWrite p off v.toNat h
  | none, none, none => d

/-- R109: a host write of BAR0. -/
def Dev.hostWrite (d : Dev) (p : Path) (off : Nat) (v : Word) : Dev :=
  if !d.reaches p then d else if d.behind p off then d.holdAcc p off (some v) else d.doWrite p off v

/-! ## Reads -/

/-- A register's value from its fields. -/
def pack (r : RegSpec) (fs : List (String × Nat)) : Nat :=
  fs.foldl (fun w x => match r.field x.1 with | some g => setBits w g.hi g.lo x.2 | none => w) 0

/-- R394: KSN_ENG_STAT. -/
def Dev.engStat (d : Dev) (e : Nat) : Nat :=
  let g := d.engOf e
  let s := d.engState e
  let st := if d.suspends && s ≤ 3 then 4 else if s = 1 && g.stalled (UW.of (d.csWord g.ctx.upc).1) then 2 else s
  pack R.KSN_ENG_STAT [("STATE", st), ("ROLE_ACT", b2n (d.threadRole e)), ("ATOMW", b2n g.win.isSome), ("CUST", b2n (inCust g.ctx.upc)),
    ("IMASK", b2n g.handler.isSome), ("NQ", (d.heldQuoins e).length), ("OPC", match g.item with | some i => i.op | none => 0), ("UPC", g.ctx.upc)]

/-- R421: BUF_CELL_META. -/
def Dev.cellMeta (d : Dev) (k : Nat) : Nat :=
  match SMap.look d.buf.cells (k * 2 ^ 18 + d.get R.BUF_CELL_IDX [k] "INDEX") with
  | none => 0
  | some c => b2n c.alloc * 2 ^ 47 + c.owner * 2 ^ 43 + c.part * 2 ^ 38 + c.ref * 2 ^ 30 + b2n c.head * 2 ^ 29 + b2n c.last * 2 ^ 28 + c.fill * 2 ^ 20 + c.next

/-- R462: TMG_VOQ_STAT. -/
def Dev.voqStat (d : Dev) (g v : Nat) : Nat :=
  if v ≥ 520 then 0 else
  let q := d.voqOf g v
  pack R.TMG_VOQ_STAT [("SPILL", b2n q.spill), ("ELIG", b2n (d.voqElig g v)), ("CELLS", q.use)]

/-- R569: PCS_STAT: AM_LOCK is 1 when the mode uses no FEC. -/
def Dev.pcsStat (d : Dev) (ix : List Nat) : Nat :=
  let p := laneOf ix
  if d.portMode p != 0 && !d.hasFec p then Nat.lor (d.getW R.PCS_STAT ix) (2 ^ 31) else d.getW R.PCS_STAT ix

/-- R525: MEM_CH_STAT. A drain that panic suspends is still in progress: DEDUCED, log entry 128. -/
def Dev.chStat (d : Dev) (k c : Nat) : Nat :=
  let p := fun u => d.pch (48 * k + c) u
  pack R.MEM_CH_STAT [("TRAINED", d.get R.MEM_CH_STAT [k, c] "TRAINED"), ("REPAIRED", d.get R.MEM_CH_STAT [k, c] "REPAIRED"),
    ("PANIC", b2n (d.panicOn (48 * k + c) 0) + 2 * b2n (d.panicOn (48 * k + c) 1)), ("DRAIN", b2n (p 0).drain + 2 * b2n (p 1).drain),
    ("WQ0", (p 0).wq.length), ("WQ1", (p 1).wq.length)]

/-- R698: a temperature as its register shows it; the highest stack reading. -/
def Dev.thermStat (d : Dev) : Nat :=
  let hbm := (List.range 6).foldl (fun (m : Int) s => max m (d.stackT s)) (d.stackT 0)
  setBits (setBits (setBits (d.getW R.GLB_THERM_STAT []) 31 24 (unsgn 8 d.glb.die0)) 23 16 (unsgn 8 d.glb.die1)) 15 8 (unsgn 8 hbm)

/-- R267: PRS_PAT_INFO. -/
def Dev.patInfo (d : Dev) (i : Nat) : Nat :=
  match (d.body 0xB).bind (fun b => (recsAt b 0 (b.length / 72) 72).find? (fun r => leAt r 0 2 == i)) with
  | none => 0
  | some r => pack R.PRS_PAT_INFO [("PID", leAt r 6 2), ("VALID", 1), ("OFFSET", leAt r 2 2), ("LEN", byteAt r 4)]

/-- R267: the hits of the pattern slot that PRS_PAT_IDX selects. -/
def Dev.hitsOf (d : Dev) (ix : List Nat) : Nat := SMap.get d.mat.patHit (rgOfIx ix * 2048 + d.get R.PRS_PAT_IDX ix "INDEX") 0 % 2 ^ 32

/-- R267: the hits of that slot set. -/
def Dev.setHits (d : Dev) (ix : List Nat) (n : Nat) : Dev :=
  { d with mat := { d.mat with patHit := SMap.set d.mat.patHit (rgOfIx ix * 2048 + d.get R.PRS_PAT_IDX ix "INDEX") (n % 2 ^ 32) 0 } }

/-- The capture of TIM_NOW_NS that a path holds (R593). -/
def Dev.capOf (d : Dev) (p : Path) (k : Nat) : Cap := match p with | .pcie => d.tim.capP.get k | .galley => d.tim.capG.get k

/-- The stamp record that a path holds. -/
def Dev.tsqOf (d : Dev) (p : Path) (g : Nat) : Int := match p with | .pcie => d.tim.tsqP.getD g 0 | .galley => d.tim.tsqG.getD g 0

/-- The trigger capture that a path holds. -/
def Dev.trigOf (d : Dev) (p : Path) (k : Nat) : Int :=
  let q := d.tim.pins.getD k ⟨false, 0, 0, 0⟩
  match p with | .pcie => q.latP | .galley => q.latG

/-- What a register that is computed when it is read shows: the part, the path, the indices. -/
abbrev Views := List (RegSpec × (Dev → Path → List Nat → Nat))

/-- GLB, TIM, ERR, TRC. -/
def viewsGlb : Views :=
  [(R.GLB_MODE, fun d _ _ => d.glb.modeReg), (R.GLB_THERM_STAT, fun d _ _ => d.thermStat), (R.TIM_RAW, fun d _ ix => d.tim.raw.get (ix.getD 0 0)),
    (R.TIM_NOW_FRAC, fun d p ix => pFrac (d.capOf p (ix.getD 0 0)).p), (R.TIM_NOW_SEC, fun d p ix => pSec (d.capOf p (ix.getD 0 0)).p),
    (R.TIM_NOW_RAW, fun d p ix => (d.capOf p (ix.getD 0 0)).raw), (R.TIM_TSQ_W1, fun d p ix => pNs (d.tsqOf p (rgOfIx ix))),
    (R.TIM_TSQ_W2, fun d p ix => pFrac (d.tsqOf p (rgOfIx ix))), (R.TIM_TSQ_W3, fun d p ix => pSec (d.tsqOf p (rgOfIx ix))),
    (R.TIM_TRIG_FRAC, fun d p ix => pFrac (d.trigOf p (ix.getD 0 0))), (R.TIM_TRIG_SEC, fun d p ix => pSec (d.trigOf p (ix.getD 0 0))),
    (R.ERR_QUIESCE, fun d _ ix => let k := ix.getD 0 0
      pack R.ERR_QUIESCE [("IDLE", d.quiesceIdle k), ("REGION", d.get R.ERR_QUIESCE [k] "REGION")]),
    (R.TRC_RD_IDX, fun d p ix => d.trcIdx p (ix.getD 0 0)), (R.TRC_RD_DATA, fun d p ix => leAt (d.trcLatched p (ix.getD 0 0)) (4 * ix.getD 1 0) 4)]

/-- SEC. -/
def viewsSec : Views :=
  [(R.SEC_STAT, fun d _ _ => pack R.SEC_STAT [("MON", d.get R.SEC_STAT [] "MON"), ("LOG_OVF", d.get R.SEC_STAT [] "LOG_OVF"),
      ("OSLOT", d.sec.slot.getD 0xF), ("VSVN", d.sec.vsvn), ("OSVN", d.sec.osvn)]),
    (R.SEC_VROOT, fun d _ ix => leAt d.sec.vroot (4 * ix.getD 0 0) 4), (R.SEC_OROOT, fun d _ ix => leAt (d.sec.oroot.getD (ix.getD 0 0) []) (4 * ix.getD 1 0) 4),
    (R.SEC_IMP_PK, fun d _ ix => leAt d.sec.pk (4 * ix.getD 0 0) 4), (R.SEC_IMP_CHK, fun d _ ix => leAt d.sec.impChk (4 * ix.getD 0 0) 4),
    (R.SEC_LOG_DATA, fun d _ ix => leAt (d.sec.log.getD (d.get R.SEC_LOG_IDX [] "INDEX") []) (4 * ix.getD 0 0) 4),
    (R.SEC_MREG, fun d p ix => leAt (match p with | .pcie => d.sec.mregP | .galley => d.sec.mregG) (4 * ix.getD 0 0) 4)]

/-- FLW, PRS, BUF, TMG, SCH, MEM, KSN. -/
def viewsFlw : Views :=
  [(R.FLW_MIR_ENTRY, fun d _ ix => let k := ix.getD 0 0; SMap.get d.flw.hint (k * 2 ^ 21 + d.get R.FLW_MIR_IDX [k] "INDEX") 0),
    (R.MAT_EX_COUNT, fun d _ ix => d.exCount (rgOfIx ix) (ix.getD 2 0)), (R.PRS_PAT_INFO, fun d _ ix => d.patInfo (d.get R.PRS_PAT_IDX ix "INDEX")),
    (R.PRS_PAT_HITS, fun d _ ix => d.hitsOf ix),
    (R.BUF_CELL_META, fun d _ ix => d.cellMeta (ix.getD 0 0)), (R.BUF_PART_SIZE, fun d _ ix => d.partSize (ix.getD 0 0) (ix.getD 1 0)),
    (R.TMG_VOQ_STAT, fun d _ ix => d.voqStat (rgOfIx ix) (d.get R.TMG_VOQ_IDX ix "INDEX")),
    (R.SCH_GATE_OPER, fun d _ ix => pack R.SCH_GATE_OPER [("STATES", d.gateStates (32 * ix.getD 0 0 + ix.getD 1 0)), ("IDX", d.get R.SCH_GATE_OPER ix "IDX")]),
    (R.SCH_QPEAK, fun d _ ix => d.qPeak ix),
    (R.SCH_PSHP_TOK, fun d _ ix => (d.accruePort (32 * ix.getD 0 0 + ix.getD 1 0)).getW R.SCH_PSHP_TOK ix),
    (R.SCH_QSHP_TOK, fun d _ ix => (d.accrueQ (if ix.getD 1 0 ≥ 256 then 64 else 32 * ix.getD 0 0 + ix.getD 1 0 / 8) (ix.getD 1 0 % 8)).getW R.SCH_QSHP_TOK ix),
    (R.MEM_CH_STAT, fun d _ ix => d.chStat (ix.getD 0 0) (ix.getD 1 0)),
    (R.KSN_ENG_STAT, fun d _ ix => d.engStat (engOfIx ix)), (R.PCS_STAT, fun d _ ix => d.pcsStat ix),
    (R.KCS_CS_DATA, fun d _ ix => (d.csWord (d.get R.KCS_CS_ADDR (ix.take 3) "ADDR")).1 / 2 ^ (32 * ix.getD 3 0) % 2 ^ 32)]

/-- Every computed register. -/
def views : Views := viewsGlb ++ viewsSec ++ viewsFlw

/-- R13: what a register shows. -/
def Dev.view (d : Dev) (p : Path) (r : RegSpec) (ix : List Nat) : Nat :=
  match views.find? (fun v => v.1.is r) with
  | some v => v.2 d p ix
  | none => d.getW r ix

/-- R394: KCS_CS_PAR: the stored bits of a word whose parity an injection broke are free. -/
def Dev.parRead (d : Dev) (p : Path) (ix : List Nat) : Dev :=
  let a := d.get R.KCS_CS_ADDR ix "ADDR"
  if d.csGood (clOfIx ix) a then d.ret p (pack R.KCS_CS_PAR [("P", (d.csWord a).2)])
  else
    let (x, d) := d.fresh 64
    d.ret p (pack R.KCS_CS_PAR [("ERR", 1), ("P", if d.eng.csBad.contains (clOfIx ix, a) then x else (d.csWord a).2)])

/-- R267, R15: a read of PRS_PAT_HITS clears the count shown; an increment that falls with it stays. -/
def Dev.hitsRead (d : Dev) (p : Path) (ix : List Nat) (inc : Nat) : Dev := (d.setHits ix inc).ret p (d.hitsOf ix)

/-- R382: a read of GLB_PATCH_STATUS: a load goes on through its states while it runs. Which of them a read sees is free: DESIGN CHOICE, log entry 122. -/
def Dev.patchRead (d : Dev) (p : Path) : Dev :=
  let s := d.get R.GLB_PATCH_STATUS [] "STATE"
  let d := if d.glb.patching then (let (n, d) := d.fresh (5 - s); d.put R.GLB_PATCH_STATUS [] "STATE" (s + n)) else d
  d.ret p (d.getW R.GLB_PATCH_STATUS [])

/-- R278, R279: a read of MAT_TCAM_STAT comes after a verified write in progress has ended: DESIGN CHOICE, log entry 124. -/
def Dev.tcamStatRead (d : Dev) (p : Path) (ix : List Nat) : Dev := let d := d.tcamEnd (rgOfIx ix); d.ret p (d.getW R.MAT_TCAM_STAT ix)

/-- R673: a read of what the writer of a die's trace keeps. -/
def Dev.trcShow (d : Dev) (p : Path) (r : RegSpec) (ix : List Nat) : Dev := let d := d.trcSettle (ix.getD 0 0); d.ret p (d.getW r ix)

/-- What a read of some registers does; the number is an increment that falls with it. -/
abbrev Readers := List (RegSpec × (Dev → Path → List Nat → Nat → Dev))

/-- The reads that latch, pop or draw. -/
def readers : Readers :=
  [(R.TIM_NOW_NS, fun d p ix _ => d.nowRead p (ix.getD 0 0)), (R.TIM_TRIG_NS, fun d p ix _ => d.trigRead p (ix.getD 0 0)),
    (R.TIM_TSQ_W0, fun d p ix _ => d.stampPop p (rgOfIx ix)), (R.FLW_QN_TORN_LOG, fun d p ix _ => d.tornPop p (ix.getD 0 0)),
    (R.KCS_CS_PAR, fun d p ix _ => d.parRead p ix), (R.PRS_PAT_HITS, fun d p ix inc => d.hitsRead p ix inc),
    (R.GLB_PATCH_STATUS, fun d p _ _ => d.patchRead p), (R.MAT_TCAM_STAT, fun d p ix _ => d.tcamStatRead p ix),
    (R.TRC_STAT, fun d p ix _ => d.trcShow p R.TRC_STAT ix), (R.TRC_SEQ, fun d p ix _ => d.trcShow p R.TRC_SEQ ix)]

/-- R13: a register's value after a read of its bits lo to hi cleared the RC fields there. -/
def rcCleared (r : RegSpec) (cur hi lo : Nat) : Nat :=
  (r.fields.filter (fun f => f.acc == .rc)).foldl (fun w f => if f.hi < lo || hi < f.lo then w else setBits w (min hi f.hi) (max lo f.lo) 0) cur

/-- R15, R684: an increment of a cleared counter that falls with the read; PRS_PAT_HITS shows the count of the slot that its index names, and the errors of a
PRBS checker saturate. -/
def Dev.withInc (d : Dev) (r : RegSpec) (ix : List Nat) (inc : Nat) : Dev :=
  if r.is R.PRS_PAT_HITS then d.setHits ix (d.hitsOf ix + inc)
  else if r.is R.SDS_PRBS_ERR then d.bumpSat r ix "COUNT" inc else
  match r.fields.find? (fun f => f.acc == .rc) with | some f => d.bump r ix f.name inc | none => d

/-- R13, R15: the bits lo to hi of a register's RC fields cleared by a read of them; an increment that falls with the read stays. -/
def Dev.clearedBy (d : Dev) (h : Hit) (hi lo inc : Nat) : Dev :=
  if h.r.fields.any (fun f => f.acc == .rc) then (d.setW h.r h.ix (rcCleared h.r (d.getW h.r h.ix) hi lo)).withInc h.r h.ix inc else d

/-- R13, R15, R18: a read of a register word that does nothing but show fields and clear those of access RC. -/
def Dev.plainRead (d : Dev) (p : Path) (h : Hit) (inc : Nat) : Dev :=
  let v := d.view p h.r h.ix
  let a := h.r.addr h.ix
  if h.high then
    match (d.latch p).rl with
    | some (b, w) => if a = b then (d.withInc h.r h.ix inc).ret p w else (d.clearedBy h 63 32 inc).ret p (v / 2 ^ 32)
    | none => (d.clearedBy h 63 32 inc).ret p (v / 2 ^ 32)
  else
    let d := d.clearedBy h 63 0 inc
    let d := if h.r.wide then d.setLatch p { d.latch p with rl := some (a, v / 2 ^ 32) } else d
    d.ret p (v % 2 ^ 32)

/-- R535, R564, R569: what the counters of a port or lane have met up to now, when one of them is read: free counts. -/
def Dev.tally (d : Dev) (h : Hit) : Dev :=
  let p := laneOf h.ix
  if h.r.is R.SDS_PRBS_BITS || h.r.is R.SDS_PRBS_ERR then (if d.bit R.SDS_PRBS_STAT h.ix "CHK_LOCK" then d.prbsCount p 0 0 else d)
  else if h.r.is R.PCS_BLK_ERR then (if d.portMode p != 0 && d.lanesOn then d.blkErr p 0 else d)
  else if h.r.is R.PCS_FEC_CORR || h.r.is R.PCS_FEC_SYM || h.r.is R.PCS_FEC_UNC then
    (if d.portMode p != 0 && d.lanesOn && d.get R.MAC_LINK h.ix "LANES" == d.laneMask p then d.fecCount p else d)
  else d

/-- A read of a register word. -/
def Dev.regRead (d : Dev) (p : Path) (h : Hit) (inc : Nat) : Dev :=
  let d := d.tally h
  if h.r.is R.SEC_MREG && h.ix.getD 0 0 = 0 then d.mregRead p
  else if h.r.is R.TRC_RD_DATA && h.ix.getD 1 0 = 0 then d.trcLatch p (h.ix.getD 0 0)
  else match readers.find? (fun r => r.1.is h.r) with
    | some r => r.2 d p h.ix inc
    | none => d.plainRead p h inc

/-- R43, R626: a read that has its turn. -/
def Dev.doRead (d : Dev) (p : Path) (off inc : Nat) : Dev :=
  match d.accErr off, capWord off, aperOf off with
  | some t, _, _ => (d.ret p 0).hostAcc p t off 0 false
  | none, some w, _ => d.ret p w
  | none, none, some (k, o) => d.scrAccess p k o none
  | none, none, none => match findReg off with
    | some h => d.regRead p h inc
    | none => d

/-- R15: an increment of a counter, at a moment when no read clears it. -/
def Dev.plainInc (d : Dev) (off inc : Nat) : Dev :=
  match findReg off with | some h => if inc = 0 then d else d.withInc h.r h.ix inc | none => d

/-- R109, R708: a host read of BAR0; `inc` is an increment of a counter that falls in its cycle. -/
def Dev.hostRead (d : Dev) (p : Path) (off : Nat) (inc : Nat := 0) : Dev :=
  if !d.reaches p then (match p with | .pcie => d.unsupported | .galley => d)
  else if d.behind p off then (d.plainInc off inc).holdAcc p off none else d.doRead p off inc

/-! ## Galley frames and accesses that waited (R109, R639, R641, R642) -/

/-- R639: a frame of the part: DST 0, its own address, TTL 32. -/
def galBytes (src cmd seq : Nat) (pay : List Byte) : List Byte :=
  let b := leBytes 1 0 ++ leBytes 1 src ++ leBytes 1 cmd ++ leBytes 1 seq ++ leBytes 1 32 ++ leBytes 1 pay.length ++ pay
  b ++ beBytes 2 (crcGalley b)

/-- A frame sent out of a port: true is DOWN. -/
def Dev.galOut (d : Dev) (down : Bool) (bs : List Byte) : Dev := { d with gal := { d.gal with sent := d.gal.sent ++ [(down, bs)] } }

/-- R641: the response to a command, out of the port on which it arrived. -/
def Dev.galAnswer (d : Dev) (down : Bool) (cmd seq : Nat) (pay : List Byte) : Dev := d.galOut down (galBytes d.gal.addr (cmd + 128) seq pay)

/-- R642: a WR that is refused. -/
def wrRefused (off : Nat) : Bool :=
  (decide (0x100000 ≤ off) && decide (off < 0x200000)) || (match findReg off with | some h => h.r.noWr | none => false)

/-- R642: the response to a RD or WR that has been performed. -/
def Dev.galDone (d : Dev) (w : Bool × Nat × Nat) (off : Nat) : Dev :=
  let st := if w.2.1 = 5 && wrRefused off then 6 else 0
  d.galAnswer w.1 w.2.1 w.2.2 (leBytes 1 st ++ (if w.2.1 = 4 then leBytes 4 d.hif.galley.last else []))

/-- R109: one access that waited has its turn; a command of the chain that waited is answered. -/
def Dev.turn (d : Dev) (x : Path × Nat × Option Word) : Dev :=
  let d := match x.2.2 with | some v => d.doWrite x.1 x.2.1 v | none => d.doRead x.1 x.2.1 0
  match x.1, d.gal.wait with
  | .galley, some w => { d with gal := { d.gal with wait := none } }.galDone w x.2.1
  | _, _ => d

/-- R109: once the loader is idle, the accesses that waited are performed in host order. -/
def Dev.released (d : Dev) : Dev :=
  if d.glb.loader.state != 0 then d else d.glb.held.foldl Dev.turn { d with glb := { d.glb with held := [] } }

end Sys2Proof.Machine
end

