-- ==== Sys2Proof/Machine/Galley.lean ====
section
/-! DEFINITION. The galley chain (R638–R649): frames received on UP and DOWN, the commands of R642, and what the part sends of its own. -/

namespace Sys2Proof.Machine

/-- R639: a frame whose length is the one its LEN byte gives and whose CRC is good. -/
def galGood (fr : List Byte) : Bool :=
  decide (8 ≤ fr.length) && fr.length == 8 + byteAt fr 5 && decide (byteAt fr 5 ≤ 96) && beAt fr (fr.length - 2) 2 == crcGalley (fr.take (fr.length - 2))

/-- R639: CMD without RSP. -/
def galCmd (fr : List Byte) : Nat := byteAt fr 2 % 128

/-- The payload of a frame. -/
def galPay (fr : List Byte) : List Byte := (fr.drop 6).take (fr.length - 8)

/-- R639: DST. -/
def galDst (fr : List Byte) : Nat := byteAt fr 0 % 64

/-- R640: the part consumes a frame. -/
def Dev.galMine (d : Dev) (fr : List Byte) : Bool := galDst fr == 0x3F || galDst fr == d.gal.addr

/-- R643: NEXT as the part passes it on. -/
def Dev.enumNext (d : Dev) (fr : List Byte) : Nat :=
  let next := byteAt fr 6
  let own := d.gal.addr
  if d.glb.mode = .root then next
  else if own = 0 then (if next ≤ 32 then next + 1 else next)
  else if byteAt fr 7 = 0 then (if next ≤ 32 then next + 1 else next)
  else max next (own + 1)

/-- R640, R643: the forwarded copy: TTL one less, NEXT rewritten, a new CRC, inverted where the arriving one is wrong. -/
def Dev.galCopy (d : Dev) (fr : List Byte) : List Byte :=
  let b := fr.take (fr.length - 2)
  let b := patch b 4 (leBytes 1 (byteAt fr 4 - 1))
  let b := if galCmd fr = 1 && hasBit (byteAt fr 2) 7 = false && galDst fr = 0x3F then patch b 6 (leBytes 1 (d.enumNext fr)) else b
  let c := crcGalley b
  b ++ beBytes 2 (if galGood fr then c else 0xFFFF - c)

/-- R640: forwarding of a frame that arrived on a port. -/
def Dev.galForward (d : Dev) (down : Bool) (fr : List Byte) : Dev :=
  if galDst fr != 0x3F && d.galMine fr then d
  else if byteAt fr 4 = 0 then d.bump R.GAL_TTL_DROP [] "COUNT" 1
  else d.galOut (!down) (d.galCopy fr)

/-! ## Credentials (R644) -/

/-- R644: what TAG covers: bytes 0 to 5 with TTL 0 and the payload before TAG, which ends with CTR; NEXT of an ENUM counts as 0. -/
def tagged (fr : List Byte) : List Byte :=
  let b := patch (fr.take (fr.length - 18)) 4 [0#8]
  if galCmd fr = 1 then patch b 6 [0#8] else b

/-- R644: 0 when credentials are accepted, 1 AUTH, 2 REPLAY. -/
def Dev.galAuth (d : Dev) (fr : List Byte) : Nat :=
  let tag := (fr.drop (fr.length - 18)).take 16
  if !d.bit R.GAL_CRED_CTL [] "EN" || tag != Config.kmac256 d.gal.key (tagged fr) (ascii "VTGALLEY") then 1
  else if leAt fr (fr.length - 26) 8 ≤ d.getW R.GAL_CTR_LAST [] then 2
  else 0

/-- R644: a credentialed command accepted, or its STATUS. -/
def Dev.galCred (d : Dev) (fr : List Byte) (f : Dev → Dev × List Byte) : Dev × List Byte :=
  match d.galAuth fr with
  | 0 => f (d.setW R.GAL_CTR_LAST [] (leAt fr (fr.length - 26) 8))
  | 1 => (d.bump R.GAL_AUTH_FAIL [] "COUNT" 1, [1#8])
  | _ => (d, [2#8])

/-! ## The commands (R642, R643, R646) -/

/-- R642: STATUS of a payload whose length is wrong. -/
def badLen (fr : List Byte) (n : Nat) (x : Dev × List Byte) (d : Dev) : Dev × List Byte := if byteAt fr 5 = n then x else (d, [4#8])

/-- R643: an ENUM acted on: the address taken, the upstream port recorded. -/
def Dev.galEnum (d : Dev) (down : Bool) (fr : List Byte) : Dev × List Byte :=
  let next := byteAt fr 6
  let own := d.gal.addr
  let up := fun (d : Dev) => d.put R.GAL_STAT [] "UPSTREAM" (b2n down)
  let take := fun (d : Dev) => up ({ d with gal := { d.gal with addr := next } }.put R.GAL_STAT [] "ADDR" next)
  if byteAt fr 5 != 2 && byteAt fr 5 != 26 then (d, [4#8])
  else if own != 0 && byteAt fr 7 != 0 then (up d, [0#8])
  else if next > 32 then (up (d.bump R.GAL_ENUM_OVF [] "COUNT" 1), [0#8])
  else if own = 0 then (take d, [0#8])
  else if next = own then (up d, [0#8])
  else if byteAt fr 5 = 26 && d.galAuth fr = 0 then (take (d.setW R.GAL_CTR_LAST [] (leAt fr (fr.length - 26) 8)), [0#8])
  else (d.bump R.GAL_AUTH_FAIL [] "COUNT" 1, [1#8])

/-- R642: IDENT. Before ENROL derives the imprint its 16 bytes are free. -/
def Dev.galIdent (d : Dev) (fr : List Byte) : Dev × List Byte :=
  let x := if d.sec.pk.isEmpty then Dev.freshBytes 16 d else (sliceB d.sec.imp16 0 16, d)
  badLen fr 0 (x.2, [0#8] ++ leBytes 2 0x6400 ++ leBytes 1 Config.stepping ++ leBytes 1 (b2n Config.capCustomer) ++ x.1) d

/-- R642: STATUS, with the class U count of die 0. -/
def Dev.galStatus (d : Dev) (fr : List Byte) : Dev × List Byte :=
  badLen fr 0 (d, [0#8] ++ leBytes 4 d.glb.modeReg ++ leBytes 4 (d.getW R.GLB_BOOT_STATUS []) ++ leBytes 4 (d.getW R.ERR_CNT [0, 2])
    ++ leBytes 4 (d.getW R.GAL_STAT [])) d

/-- R642: ERRLOG, of die 0. -/
def Dev.galErrlog (d : Dev) (fr : List Byte) : Dev × List Byte :=
  let i := byteAt fr 6
  badLen fr 1 (d, if i > 15 then [6#8] else [0#8] ++ (List.range 8).flatMap (fun w => leBytes 4 (d.getW R.ERR_LOG [0, i, w]))) d

/-- R646, R577, R578: TIME. -/
def Dev.galTime (d : Dev) (fr : List Byte) : Dev × List Byte :=
  badLen fr 36 (d.galCred fr (fun d =>
    if d.bit R.TIM_CMD_STAT [] "PENDING" then (d, [6#8]) else
    let ns := leAt fr 14 4
    let hops : Int := 32 - byteAt fr 4
    let v : Int := leAt fr 6 8 * 1000000000 + ns + 10000 + 400 * hops
    let c : TimCmd := ⟨3, (d.tim.raw.d0 + 10000) % 2 ^ 64, v, ns, false, false⟩
    let d := d.timAccept c
    if timRange d.tim c then (d.timEnd 2, [6#8]) else (d, [0#8]))) d

/-- R109, R642: RD and WR, one at a time; the response of one that waits comes when it is performed. -/
def Dev.galAccess (d : Dev) (down : Bool) (fr : List Byte) (wr : Bool) : Dev :=
  let cmd := if wr then 5 else 4
  let seq := byteAt fr 3
  let say := fun (d : Dev) (pay : List Byte) => if galDst fr = 0x3F then d else d.galAnswer down cmd seq pay
  if byteAt fr 5 != (if wr then 32 else 28) then say d [4#8]
  else match d.galAuth fr with
    | 1 => say (d.bump R.GAL_AUTH_FAIL [] "COUNT" 1) [1#8]
    | 2 => say d [2#8]
    | _ =>
      let d := d.setW R.GAL_CTR_LAST [] (leAt fr (fr.length - 26) 8)
      if d.glb.held.any (fun x => x.1 == .galley) then say d [5#8]
      else
        let off := leAt fr 6 4
        let d := if wr then d.hostWrite .galley off (BitVec.ofNat 32 (leAt fr 10 4)) else d.hostRead .galley off
        let w := (down, cmd, seq)
        if galDst fr = 0x3F then d
        else if d.glb.held.any (fun x => x.1 == .galley) then { d with gal := { d.gal with wait := some w } }
        else d.galDone w off

/-- A command whose response is at hand: sent unless the command was broadcast (R641). -/
def Dev.galSay (down : Bool) (fr : List Byte) (x : Dev × List Byte) : Dev :=
  if galDst fr = 0x3F then x.1 else x.1.galAnswer down (galCmd fr) (byteAt fr 3) x.2

/-- R641, R642: the part acts on a command it has consumed. In ROOT it answers all but IDENT and RESET with REFUSED. -/
def Dev.galAct (d : Dev) (down : Bool) (fr : List Byte) : Dev :=
  let say := Dev.galSay down fr
  match galCmd fr with
  | 2 => say (d.galIdent fr)
  | 6 => if byteAt fr 5 = 0 then (say (d, [0#8])).packageReset 3 false else say (d, [4#8])
  | c =>
    if d.glb.mode = .root then say (d, [6#8])
    else match c with
      | 1 => say (d.galEnum down fr)
      | 3 => say (d.galStatus fr)
      | 4 => d.galAccess down fr false
      | 5 => d.galAccess down fr true
      | 7 => say (d.galTime fr)
      | 8 => say (d.galErrlog fr)
      | 0x10 | 0x11 | 0x12 => d
      | _ => say (d, [3#8])

/-- R638, R649: a port receives valid characters. -/
def Dev.galSig (d : Dev) (down : Bool) (v : Nat) : Dev := d.put R.GAL_STAT [] (if down then "DN_SIG" else "UP_SIG") v

/-- R640: a frame has arrived on a port: forwarded and consumed as its address says. The chain is held in reset in COLD. -/
def Dev.galFrame (d : Dev) (down : Bool) (fr : List Byte) : Dev :=
  if d.glb.mode = .cold then d else
  let mine := d.galMine fr
  let d := (d.galSig down 1).galForward down fr
  if !galGood fr then d.bump R.GAL_CRC_ERR [] "COUNT" 1
  else if mine && !hasBit (byteAt fr 2) 7 then d.galAct down fr
  else d

/-! ## Signal and alerts (R645, R647) -/

/-- A frame that the part sends of its own: its SEQ is free. -/
def Dev.galSend (d : Dev) (down : Bool) (cmd : Nat) (pay : List Byte) : Dev := let (x, d) := d.fresh 256; d.galOut down (galBytes d.gal.addr cmd x pay)

/-- R645: whether a port has declared loss of signal and waits for its return. -/
def GalS.lost (g : GalS) (down : Bool) : Bool := if down then g.lostDn else g.lostUp

/-- R645: a port marked as having lost its signal, or as having it again. -/
def GalS.setLost (g : GalS) (down v : Bool) : GalS := if down then { g with lostDn := v } else { g with lostUp := v }

/-- R645: a port declares loss of signal. -/
def Dev.galLoss (d : Dev) (down : Bool) : Dev :=
  if d.glb.mode = .cold then d else
  let d := { d with gal := d.gal.setLost down true }
  (((d.galSig down 0).put R.GAL_STAT [] (if down then "DN_LOS" else "UP_LOS") 1).msix 0 56).galSend (!down) 0x12 [BitVec.ofNat 8 (b2n down)]

/-- R645: a port that had lost its signal has received valid characters for 10 µs. -/
def Dev.galAttach (d : Dev) (down : Bool) : Dev :=
  if d.glb.mode = .cold || !d.gal.lost down then d else
  let d := { d with gal := d.gal.setLost down false }
  let up := d.bit R.GAL_STAT [] "UPSTREAM"
  (((d.galSig down 1).put R.GAL_STAT [] "ATTACH" 1).msix 0 56).galSend (if up = down then !up else up) 0x11 [BitVec.ofNat 8 (b2n down)]

/-- R647: the oldest waiting alert is sent. -/
def Dev.galAlert (d : Dev) : Dev :=
  match d.gal.alerts with
  | [] => d
  | a :: l =>
    let up := d.bit R.GAL_STAT [] "UPSTREAM"
    { d with gal := { d.gal with alerts := l } }.galSend (if d.gal.lost up then !up else up) 0x10 a

/-- R649: LOCK of GAL_CRED_CTL written with 1 over a path. -/
def Dev.credLock (d : Dev) (p : Path) : Dev :=
  d.hostWrite p (R.GAL_CRED_CTL.addr []) (BitVec.ofNat 32 (2 + d.get R.GAL_CRED_CTL [] "EN"))

end Sys2Proof.Machine
end

