-- ==== Sys2Proof/Machine/Exec.lean ====
section
/-! DEFINITION. What the meanings share: an event of a unit the part has, a command that is a host access, and the events that several blocks see. -/

namespace Sys2Proof.Machine

/-- A command's effect on the part: its operands describe an event of the part, or there is no such event. -/
def within (ok : Bool) (s : State) (f : Dev → Dev) : Host.Outcome State Fault Refusal :=
  if ok then .next { s with dev := f s.dev } else .fault .noSuchUnit

/-- A host access of one of the two dies, or of a unit below a bound. -/
def below (n x : Nat) : Bool := decide (x < n)

/-- A host write of a command register, its fields by name. -/
def Dev.hostOp (d : Dev) (p : Path) (r : RegSpec) (ix : List Nat) (fs : List (String × Nat)) : Dev :=
  d.hostWrite p (r.addr ix) (BitVec.ofNat 32 (pack r fs))

/-- The word that sets a register's one field of access WO or W1S, its other fields written as they stand. -/
def Dev.setWord (d : Dev) (r : RegSpec) (ix : List Nat) (f : String) : Nat :=
  match r.field f with
  | some g => setBits ((r.fields.filter (fun x => x.acc == .rw)).foldl (fun w x => setBits w x.hi x.lo (bitsOf (d.getW r ix) x.hi x.lo)) 0) g.hi g.lo 1
  | none => 0

/-- A host write of that word. -/
def Dev.hostSet (d : Dev) (p : Path) (r : RegSpec) (ix : List Nat) (f : String) : Dev := d.hostWrite p (r.addr ix) (BitVec.ofNat 32 (d.setWord r ix f))

/-! ## Mode requests (R58) -/

/-- R58: mode requests of both paths in one HCLK cycle: the PCIe one is taken, and the galley one, whose GO then submits nothing, reads BUSY. -/
def Dev.modeBoth (d : Dev) (v w : Word) : Dev :=
  let off := R.GLB_MODE_REQ.addr []
  let both := d.reaches .pcie && !d.behind .pcie off && d.reaches .galley && !d.behind .galley off && hasBit v.toNat 3 && hasBit w.toNat 3
  let d := d.hostWrite .pcie off v
  if both then (d.hostWrite .galley off (BitVec.ofNat 32 (setBits w.toNat 3 3 0))).reqStatus 3 else d.hostWrite .galley off w

/-- R56, R58: a write of GLB_MODE_REQ over a path, and one over the other path in the same cycle. -/
def Dev.modeWrites (d : Dev) (p : Path) (v : Word) (other : Option Word) : Dev :=
  match other, p with
  | none, _ => d.hostWrite p (R.GLB_MODE_REQ.addr []) v
  | some w, .pcie => d.modeBoth v w
  | some w, .galley => d.modeBoth w v

/-! ## Time (R478, R587–R592) -/

/-- R335, R587: a firing of a timer that the TELEM section claims: the first of a die lets its walker visit slots, at least one and how many more free; the second
begins a period. Which timer does which, and the pace, are the model's: DESIGN CHOICE, log entry 161. -/
def Dev.walkTick (d : Dev) (k n : Nat) : Dev :=
  match d.telemTimers k with
  | a :: b :: _ =>
    if n = a then (let (x, d) := d.fresh (2 ^ 32); d.setWalk k (fun w => { w with due := w.due + x + 1 }))
    else if n = b then d.setWalk k (fun w => { w with seen := [] })
    else d
  | _ => d

/-- R587, R592, R407: timer n of die k fires: its event line rises, the section that claims it acts, and a PER_OUT pin that names it asserts. -/
def Dev.timerFire (d : Dev) (k n : Nat) : Dev :=
  if !d.bit R.TIM_ETMR_CTL [k, n] "EN" then d else
  let d := ((d.bump R.TIM_ETMR_CNT [k, n] "COUNT" 1).lineRise k n).walkTick k n
  if k = 0 then
    (List.range 4).foldl (fun d i => if d.get R.TIM_IO_CFG [i] "FUNC" = 3 && d.get R.TIM_IO_CFG [i] "TIMER" = n then d.pinAssert i else d) d
  else d

/-- R478, R588: what follows a change of presented time from one value to another: timers that it passed fire once, and every port takes the gate entry in
which the new presented time falls. -/
def Dev.timStepped (d : Dev) (was now : Int) : Dev :=
  let d := [0, 1].foldl (fun d k => (List.range 8).foldl (fun d n => if d.timerPassed k n was now then d.timerFire k n else d) d) d
  if was = now then d else (List.range 64).foldl Dev.gateStep d

/-- R478, R579, R588: a command that has arrived acts, with what follows a step. -/
def Dev.timAct (d : Dev) (c : TimCmd) : Dev :=
  let at_ := max c.e d.tim.raw.d0
  (d.timForce c).timStepped (d.tim.pAt at_) ((d.timForce c).tim.pAt at_)

/-- R579: the epoch of the pending command: it acts, if it has not yet, and is done. -/
def Dev.epochReached (d : Dev) : Dev :=
  match d.tim.cmd with
  | none => d
  | some c => if !c.arrived then d else (if c.acted then d else d.timAct c).timEnd 0

/-- R579 step 3: an arrived command whose E the raw counters have reached acts. -/
def Dev.epochPassed (d : Dev) : Dev :=
  match d.tim.cmd with
  | some c => if c.arrived && !c.acted && decide (c.e ≤ d.tim.raw.d0) then d.timAct c else d
  | none => d

/-- R571, R390, R278: one TCLK cycle in which no command acts: both raw counters and the cycle counters of the clusters advance, verified TCAM writes
end, and a time command whose E has come acts. -/
def Dev.idle (d : Dev) : Dev :=
  let d := (List.range 4).foldl Dev.tcamEnd d
  let n := d.tim.raw.d0
  let d := if d.tim.running then { d with tim := { d.tim with raw := d.tim.raw.both (fun r => (r + 1) % 2 ^ 64) } }.epochPassed else d
  if d.glb.mode = .cold then d
  else (List.range 12).foldl (fun d k => d.setW R.PMC_CYCLE (clIx k) (d.getW R.PMC_CYCLE (clIx k) + Config.eclkPerTick k n)) d

/-! ## Accesses with what they fetch or meet -/

/-- R276–R281: TCAM_WRITE; `flip` holds the bits that the rows of the array take wrong. -/
def Dev.tcamWriteCmd (d : Dev) (p : Path) (g prof i flip : Nat) : Dev :=
  let d := { d with mat := { d.mat with flip := flip } }.hostOp p R.MAT_TCAM_CMD [g / 2, g % 2] [("OP", 1), ("PROF", prof), ("INDEX", i)]
  { d with mat := { d.mat with flip := 0 } }

/-- R665, R666: a write of SEC_OTP_CMD with PROG_OROOT, and the blob that its DMA fetches, none when the fetch fails. -/
def Dev.progWrite (d : Dev) (p : Path) (arg : Nat) (blob : Option (List Byte)) : Dev :=
  let off := R.SEC_OTP_CMD.addr []
  let v := pack R.SEC_OTP_CMD [("OP", 1), ("ARG", arg)]
  let runs := d.reaches p && !d.behind p off && (d.accErr off).isNone && p == .pcie && d.writeRefused ⟨R.SEC_OTP_CMD, [], false⟩ v == 0
  if runs then d.progOroot (arg % 256) blob else d.hostWrite p off (BitVec.ofNat 32 v)

/-- R389: an access through an aperture that the bus does not grant. -/
def Dev.apertureWait (d : Dev) (p : Path) (k off : Nat) (wr : Option Word) : Dev :=
  let o := apertureOff k off
  if d.reaches p && !d.behind p o && (d.accErr o).isNone then d.scrTimeout p k off wr else d

/-- R26, R389: an access through an aperture. -/
def Dev.apertureAccess (d : Dev) (p : Path) (k off : Nat) (wr : Option Word) : Dev :=
  match wr with
  | some v => d.hostWrite p (apertureOff k off) v
  | none => d.hostRead p (apertureOff k off)

/-- R636: a doorbell of the die 1 endpoint reaches the part through it; every other one as the write of its register. -/
def Dev.rxBell (d : Dev) (p : Path) (k t v : Nat) : Dev :=
  let off := R.HIF_RX_TAIL.addr [k, t]
  if k = 1 && p == .pcie && d.epTakes 1 then
    (if d.behind p off then d.holdAcc p off (some (BitVec.ofNat 32 v)) else d.doWrite p off (BitVec.ofNat 32 v))
  else d.hostWrite p off (BitVec.ofNat 32 v)

/-- R636: a write of a doorbell of BAR2 acts as the write of its tail register; the upper word of a doorbell takes none. -/
def Dev.bell (d : Dev) (k off : Nat) (v : Word) : Dev :=
  let t := off % 0x400 / 8
  if off % 8 != 0 then d
  else if off < 0x200 then (if k = 0 then d.hostWrite .pcie (R.HIF_TX_TAIL.addr [t]) v else d)
  else if 0x400 ≤ off ∧ off < 0x400 + 8 * (if k = 0 then 64 else 8) then d.rxBell .pcie k t v.toNat
  else d

/-- R622, R636, R708: a write of a word of BAR2, which an endpoint that does not take it discards. -/
def Dev.bar2Write (d : Dev) (k off : Nat) (v : Word) : Dev :=
  if !d.epLinked k || !d.epTakes k then d
  else if 0x800 ≤ off ∧ off < 0x800 + 16 * epVecs k then d.updEp k (fun e => e.setVecWord ((off - 0x800) / 16) (off / 4 % 4) v.toNat)
  else d.bell k off v

/-- R622, R627, R636, R708: an access of the host to an endpoint. -/
def Dev.epAccess (d : Dev) (k : Nat) (op : EpOp) : Dev :=
  match op with
  | .unmask v => d.unmask k v
  | .write off v => d.bar2Write k off v
  | .read off => d.bar2Read k off
  | .readConfig off => d.cfgRequest k (fun d => d.cfgRead k off)
  | .config mem bus d3 => d.cfgWrite k mem bus d3

/-- R13, R14: a host write; `hw` holds the W1C bits that the part sets in the same cycle, which stay set. -/
def Dev.registerWrite (d : Dev) (p : Path) (off : Nat) (v hw : Word) : Dev :=
  let d := d.hostWrite p off v
  match findReg off with
  | some h =>
    let set := (h.r.fields.filter (fun f => f.acc == .w1c)).foldl (fun w f => setBits w f.hi f.lo (Nat.lor (bitsOf w f.hi f.lo) (bitsOf hw.toNat f.hi f.lo)))
      (d.getW h.r h.ix)
    if d.glb.mode = .cold || h.high then d else d.setW h.r h.ix set
  | none => d

/-- R622, R623: an access names a vector of the endpoint, or a word of its BAR2 or of its configuration space. -/
def epNames (ep : Nat) (op : EpOp) : Bool :=
  match op with
  | .unmask v => below (epVecs ep) v
  | .write off _ | .read off | .readConfig off => below 4096 off && off % 4 == 0
  | .config _ _ _ => true

/-- R637: the part's endpoints: a training link reports one of the speeds and widths of R622. -/
def linkOk (ep speed width : Nat) : Bool := below 2 ep && decide (1 ≤ speed) && decide (speed ≤ 5) && [1, 2, 4, 8].contains width

end Sys2Proof.Machine
end

