-- ==== Sys2Proof/Machine/ExecAct.lean ====
section
/-! DEFINITION. The meanings of the commands of the action, cell-plan and balancer stores. -/

namespace Sys2Proof.Machine

/-- ACT_WRITE, R309: ACT_CMD WRITE writes an action entry whole, or refuses it with BAD or RANGE. -/
def execActWrite (p : Path) (d : Nat) (index : Nat) (st : State) : Host.Outcome State Fault Refusal :=
  within (below 2 d && below (2 ^ 18) index) st (fun s => s.hostOp p R.ACT_CMD [d] [("OP", 1), ("INDEX", index)])

/-- ACT_READ, R340: ACT_CMD READ reads an action entry to ACT_ENT. -/
def execActRead (p : Path) (d : Nat) (index : Nat) (st : State) : Host.Outcome State Fault Refusal :=
  within (below 2 d && below (2 ^ 18) index) st (fun s => s.hostOp p R.ACT_CMD [d] [("OP", 2), ("INDEX", index)])

/-- CP_ENT_WRITE, R323: A CP_ENT word 0 write is held and takes effect with the next word 1 write of the same entry. -/
def execCpEntWrite (p : Path) (d : Nat) (z : Nat) (w : Nat) (v : Word) (st : State) : Host.Outcome State Fault Refusal :=
  within (below 2 d && below 65536 z && below 2 w) st (fun s => s.hostWrite p (if w = 0 then R.CP_ENT_W0.addr [d, z] else R.CP_ENT_W1.addr [d, z]) v)

/-- GWRITE, R331: BAL_CMD GWRITE writes a balancer group. -/
def execBalGwrite (p : Path) (d : Nat) (st : State) : Host.Outcome State Fault Refusal :=
  within (below 2 d) st (fun s => s.hostOp p R.BAL_CMD [d] [("OP", 1)])

/-- GREAD, R331: BAL_CMD GREAD reads a balancer group. -/
def execBalGread (p : Path) (d : Nat) (st : State) : Host.Outcome State Fault Refusal :=
  within (below 2 d) st (fun s => s.hostOp p R.BAL_CMD [d] [("OP", 2)])

/-- MWRITE, R331: BAL_CMD MWRITE writes a backend entry. -/
def execBalMwrite (p : Path) (d : Nat) (st : State) : Host.Outcome State Fault Refusal :=
  within (below 2 d) st (fun s => s.hostOp p R.BAL_CMD [d] [("OP", 3)])

/-- MREAD, R331: BAL_CMD MREAD reads a backend entry. -/
def execBalMread (p : Path) (d : Nat) (st : State) : Host.Outcome State Fault Refusal :=
  within (below 2 d) st (fun s => s.hostOp p R.BAL_CMD [d] [("OP", 4)])

/-- LWRITE, R331: BAL_CMD LWRITE writes eight lookup pool entries. -/
def execBalLwrite (p : Path) (d : Nat) (st : State) : Host.Outcome State Fault Refusal :=
  within (below 2 d) st (fun s => s.hostOp p R.BAL_CMD [d] [("OP", 5)])

/-- LREAD, R331: BAL_CMD LREAD reads eight lookup pool entries. -/
def execBalLread (p : Path) (d : Nat) (st : State) : Host.Outcome State Fault Refusal :=
  within (below 2 d) st (fun s => s.hostOp p R.BAL_CMD [d] [("OP", 6)])

end Sys2Proof.Machine
end

