-- ==== Sys2Proof/Machine/ExecEgress.lean ====
section
/-! DEFINITION. The meanings of the commands of the fabric, spill, egress scheduling and stream functions. -/

namespace Sys2Proof.Machine

/-- FABRIC_SLOT_MATCH, R441: The central scheduler matches ingress regions to egress regions for one slot, paced cells first. -/
def execFabricSlotMatch (st : State) : Host.Outcome State Fault Refusal :=
  within true st (fun d => d.arrivals.fabricTick)

/-- FABRIC_TRANSFER_COMPLETE, R443: The last cell of a packet reaches its egress region, the VOQ reference is released and the entry joins the egress
queue. -/
def execFabricTransferComplete (g : Nat) (eg : Nat) (dataErr : Bool) (st : State) : Host.Outcome State Fault Refusal :=
  within (below 4 g && below 4 eg) st (fun d => d.fabricDone g eg dataErr)

/-- RESEQ_TIMEOUT, R448: A resequencing gap that persists for TMO_US completes the frame with a stomped FCS, or discards it when DROP is armed. -/
def execReseqTimeout (eg : Nat) (st : State) : Host.Outcome State Fault Refusal :=
  within (below 4 eg) st (fun d => d.reseqTimeout eg)

/-- SPILL_PAGE_WRITE, R451: A full spill page, or one 1 us after its last cell, is written to the wadi and the on-chip references are released. -/
def execSpillPageWrite (g : Nat) (voq : Nat) (dataErr : Bool) (st : State) : Host.Outcome State Fault Refusal :=
  within (below 4 g && below 520 voq) st (fun d => d.spillWrite g voq dataErr)

/-- WADI_REFILL, R452: The wadi reader reserves cells and fetches the next page of a spilled VOQ that is below REFILL. -/
def execWadiRefill (g : Nat) (voq : Nat) (st : State) : Host.Outcome State Fault Refusal :=
  within (below 4 g && below 520 voq) st (fun d => d.wadiRefill g voq)

/-- WADI_PAGE_RETURN, R452: A wadi page read returns and its entries are relinked behind the on-chip head. -/
def execWadiPageReturn (g : Nat) (voq : Nat) (fail : Bool) (st : State) : Host.Outcome State Fault Refusal :=
  within (below 4 g && below 520 voq) st (fun d => d.wadiReturn g voq fail)

/-- FRAME_TRANSMIT_COMPLETE, R426: The last byte of a frame is read for transmission, its reference is released, and the port reaches a frame
boundary. -/
def execFrameTransmitComplete (port : Nat) (dataErr : Bool) (st : State) : Host.Outcome State Fault Refusal :=
  within (below 64 port) st (fun d => d.txEnd port dataErr)

/-- SHAPER_REFILL, R471: Tokens accrue in a shaper bucket up to BURST, and a bucket reaching zero triggers a selection at an idle port. -/
def execShaperRefill (port : Nat) (cls : Option Nat) (st : State) : Host.Outcome State Fault Refusal :=
  within (below 64 port && (match cls with | some c => below 8 c | none => true)) st (fun d => d.shaperRefill port cls)

/-- PAUSE_EXPIRE, R547: A pause time running out makes the port or class eligible again. -/
def execPauseExpire (port : Nat) (cls : Option Nat) (st : State) : Host.Outcome State Fault Refusal :=
  within (below 64 port && (match cls with | some c => below 8 c | none => true)) st (fun d => d.pauseExpire port cls)

/-- PFC_RENEW, R551: A class above XOFF renews its PFC before half of the pause time has passed. -/
def execPfcRenew (port : Nat) (st : State) : Host.Outcome State Fault Refusal :=
  within (below 64 port) st (fun d => d.pfcRenew port)

/-- GATE_CHANGE_REQUEST, R475: A SCH_GATE_CTL write with CHANGE = 1 checks the administrative list and fixes the change time CT, or is refused. -/
def execGateChangeRequest (p : Path) (port : Nat) (v : Word) (st : State) : Host.Outcome State Fault Refusal :=
  within (below 64 port) st (fun d => d.hostWrite p (R.SCH_GATE_CTL.addr (schP port)) v)

/-- GATE_CONFIG_CHANGE, R475: At CT, the administrative list and parameters become operating. -/
def execGateConfigChange (port : Nat) (st : State) : Host.Outcome State Fault Refusal :=
  within (below 64 port) st (fun d => d.gateConfig port)

/-- GATE_ENTRY_CHANGE, R474: At an entry's scheduled presented time, the port's gate states change. -/
def execGateEntryChange (port : Nat) (st : State) : Host.Outcome State Fault Refusal :=
  within (below 64 port) st (fun d => d.gateEntry port)

/-- RECOVERY_RESET_TIMEOUT, R487: RESET_MS passing with no frame passed makes the recovery instance FRESH. -/
def execRecoveryResetTimeout (g : Nat) (r : Nat) (st : State) : Host.Outcome State Fault Refusal :=
  within (below 4 g && below 512 r) st (fun d => d.recoveryReset g r)

/-- LED_PERIOD_END, R489: At the end of a latent-error test period, an excess discard difference is counted and reported. -/
def execLedPeriodEnd (g : Nat) (r : Nat) (st : State) : Host.Outcome State Fault Refusal :=
  within (below 4 g && below 512 r) st (fun d => d.ledPeriod g r)

end Sys2Proof.Machine
end

