-- ==== Sys2Proof/Machine/ExecEngine.lean ====
section
/-! DEFINITION. The meanings of the commands of the microwords and events of the engines. -/

namespace Sys2Proof.Machine

/-- ADD, R348: ALU ADD writes A + B to DST. -/
def execKAdd (e : Nat) (st : State) : Host.Outcome State Fault Refusal :=
  within (below 96 e) st (fun d => d.kIssue e (fun u => u.aop == 0x01))

/-- SUB, R348: ALU SUB writes A - B to DST. -/
def execKSub (e : Nat) (st : State) : Host.Outcome State Fault Refusal :=
  within (below 96 e) st (fun d => d.kIssue e (fun u => u.aop == 0x02))

/-- AND, R348: ALU AND writes A and B to DST. -/
def execKAnd (e : Nat) (st : State) : Host.Outcome State Fault Refusal :=
  within (below 96 e) st (fun d => d.kIssue e (fun u => u.aop == 0x03))

/-- OR, R348: ALU OR writes A or B to DST. -/
def execKOr (e : Nat) (st : State) : Host.Outcome State Fault Refusal :=
  within (below 96 e) st (fun d => d.kIssue e (fun u => u.aop == 0x04))

/-- XOR, R348: ALU XOR writes A xor B to DST. -/
def execKXor (e : Nat) (st : State) : Host.Outcome State Fault Refusal :=
  within (below 96 e) st (fun d => d.kIssue e (fun u => u.aop == 0x05))

/-- SHL, R348: ALU SHL shifts A left. -/
def execKShl (e : Nat) (st : State) : Host.Outcome State Fault Refusal :=
  within (below 96 e) st (fun d => d.kIssue e (fun u => u.aop == 0x06))

/-- SHR, R348: ALU SHR shifts A right, logical. -/
def execKShr (e : Nat) (st : State) : Host.Outcome State Fault Refusal :=
  within (below 96 e) st (fun d => d.kIssue e (fun u => u.aop == 0x07))

/-- SAR, R348: ALU SAR shifts A right, arithmetic. -/
def execKSar (e : Nat) (st : State) : Host.Outcome State Fault Refusal :=
  within (below 96 e) st (fun d => d.kIssue e (fun u => u.aop == 0x08))

/-- ROR, R348: ALU ROR rotates A right. -/
def execKRor (e : Nat) (st : State) : Host.Outcome State Fault Refusal :=
  within (below 96 e) st (fun d => d.kIssue e (fun u => u.aop == 0x09))

/-- MOV, R348: ALU MOV writes B to DST. -/
def execKMov (e : Nat) (st : State) : Host.Outcome State Fault Refusal :=
  within (below 96 e) st (fun d => d.kIssue e (fun u => u.aop == 0x0A))

/-- MOVHI, R348: ALU MOVHI places IMM in bits [63:32] above A[31:0]. -/
def execKMovhi (e : Nat) (st : State) : Host.Outcome State Fault Refusal :=
  within (below 96 e) st (fun d => d.kIssue e (fun u => u.aop == 0x0B))

/-- EXTR, R348: ALU EXTR extracts a bit field of A. -/
def execKExtr (e : Nat) (st : State) : Host.Outcome State Fault Refusal :=
  within (below 96 e) st (fun d => d.kIssue e (fun u => u.aop == 0x0C))

/-- INSR, R348: ALU INSR inserts a bit field of A into DST. -/
def execKInsr (e : Nat) (st : State) : Host.Outcome State Fault Refusal :=
  within (below 96 e) st (fun d => d.kIssue e (fun u => u.aop == 0x0D))

/-- CMPEQ, R348: ALU CMPEQ writes 1 when A equals B, else 0. -/
def execKCmpeq (e : Nat) (st : State) : Host.Outcome State Fault Refusal :=
  within (below 96 e) st (fun d => d.kIssue e (fun u => u.aop == 0x0E))

/-- CMPLTU, R348: ALU CMPLTU writes 1 when A < B unsigned, else 0. -/
def execKCmpltu (e : Nat) (st : State) : Host.Outcome State Fault Refusal :=
  within (below 96 e) st (fun d => d.kIssue e (fun u => u.aop == 0x0F))

/-- CMPLTS, R348: ALU CMPLTS writes 1 when A < B signed, else 0. -/
def execKCmplts (e : Nat) (st : State) : Host.Outcome State Fault Refusal :=
  within (below 96 e) st (fun d => d.kIssue e (fun u => u.aop == 0x10))

/-- MINU, R348: ALU MINU writes the unsigned minimum of A and B. -/
def execKMinu (e : Nat) (st : State) : Host.Outcome State Fault Refusal :=
  within (below 96 e) st (fun d => d.kIssue e (fun u => u.aop == 0x11))

/-- MAXU, R348: ALU MAXU writes the unsigned maximum of A and B. -/
def execKMaxu (e : Nat) (st : State) : Host.Outcome State Fault Refusal :=
  within (below 96 e) st (fun d => d.kIssue e (fun u => u.aop == 0x12))

/-- MUL, R348: ALU MUL writes the low 64 bits of A x B. -/
def execKMul (e : Nat) (st : State) : Host.Outcome State Fault Refusal :=
  within (below 96 e) st (fun d => d.kIssue e (fun u => u.aop == 0x13))

/-- MULHU, R348: ALU MULHU writes the high 64 bits of A x B, unsigned. -/
def execKMulhu (e : Nat) (st : State) : Host.Outcome State Fault Refusal :=
  within (below 96 e) st (fun d => d.kIssue e (fun u => u.aop == 0x14))

/-- POPC, R348: ALU POPC writes the number of 1 bits in A. -/
def execKPopc (e : Nat) (st : State) : Host.Outcome State Fault Refusal :=
  within (below 96 e) st (fun d => d.kIssue e (fun u => u.aop == 0x15))

/-- CLZ, R348: ALU CLZ writes the leading zeros of A at the width. -/
def execKClz (e : Nat) (st : State) : Host.Outcome State Fault Refusal :=
  within (below 96 e) st (fun d => d.kIssue e (fun u => u.aop == 0x16))

/-- BSWAP, R348: ALU BSWAP writes A with its byte order reversed at the width. -/
def execKBswap (e : Nat) (st : State) : Host.Outcome State Fault Refusal :=
  within (below 96 e) st (fun d => d.kIssue e (fun u => u.aop == 0x17))

/-- CRC64, R348: ALU CRC64 continues the flow-hash CRC-64 from A over the bytes of B. -/
def execKCrc64 (e : Nat) (st : State) : Host.Outcome State Fault Refusal :=
  within (below 96 e) st (fun d => d.kIssue e (fun u => u.aop == 0x18))

/-- CRC32C, R348: ALU CRC32C continues the CRC-32C from A[31:0] over the bytes of B. -/
def execKCrc32c (e : Nat) (st : State) : Host.Outcome State Fault Refusal :=
  within (below 96 e) st (fun d => d.kIssue e (fun u => u.aop == 0x19))

/-- LDL, R349: LDL loads from local memory at ea. -/
def execKLdl (e : Nat) (st : State) : Host.Outcome State Fault Refusal :=
  within (below 96 e) st (fun d => d.kIssue e (fun u => u.mop == 0x01))

/-- STL, R349: STL stores to local memory at ea, or to the journal inside an atomic window. -/
def execKStl (e : Nat) (st : State) : Host.Outcome State Fault Refusal :=
  within (below 96 e) st (fun d => d.kIssue e (fun u => u.mop == 0x02))

/-- LDS, R349: LDS loads from cluster scratch over the cluster bus. -/
def execKLds (e : Nat) (st : State) : Host.Outcome State Fault Refusal :=
  within (below 96 e) st (fun d => d.kIssue e (fun u => u.mop == 0x03))

/-- STS, R349: STS stores to cluster scratch over the cluster bus, or to the journal inside an atomic window. -/
def execKSts (e : Nat) (st : State) : Host.Outcome State Fault Refusal :=
  within (below 96 e) st (fun d => d.kIssue e (fun u => u.mop == 0x04))

/-- CASS, R349: CASS compares and swaps 8 bytes of scratch and returns the old value. -/
def execKCass (e : Nat) (st : State) : Host.Outcome State Fault Refusal :=
  within (below 96 e) st (fun d => d.kIssue e (fun u => u.mop == 0x05))

/-- FADDS, R349: FADDS adds to 8 bytes of scratch and returns the old value. -/
def execKFadds (e : Nat) (st : State) : Host.Outcome State Fault Refusal :=
  within (below 96 e) st (fun d => d.kIssue e (fun u => u.mop == 0x06))

/-- LDH, R349: LDH issues a load from the engine HBM area and marks its destination registers pending. -/
def execKLdh (e : Nat) (st : State) : Host.Outcome State Fault Refusal :=
  within (below 96 e) st (fun d => d.kIssue e (fun u => u.mop == 0x07))

/-- STH, R349: STH stores to the engine HBM area, or to the journal inside an atomic window. -/
def execKSth (e : Nat) (st : State) : Host.Outcome State Fault Refusal :=
  within (below 96 e) st (fun d => d.kIssue e (fun u => u.mop == 0x08))

/-- QACQ, R216: QACQ acquires the quoin on a record address under the ascending-address rule, waiting while another owner holds it. -/
def execKQacq (e : Nat) (st : State) : Host.Outcome State Fault Refusal :=
  within (below 96 e) st (fun d => d.kIssue e (fun u => u.mop == 0x09))

/-- QTRY, R216: QTRY acquires a quoin without waiting and without the ascending-address rule. -/
def execKQtry (e : Nat) (st : State) : Host.Outcome State Fault Refusal :=
  within (below 96 e) st (fun d => d.kIssue e (fun u => u.mop == 0x0A))

/-- QREAD, R216: QREAD returns a status and the 64-byte record. -/
def execKQread (e : Nat) (st : State) : Host.Outcome State Fault Refusal :=
  within (below 96 e) st (fun d => d.kIssue e (fun u => u.mop == 0x0B))

/-- QWRITE, R216: QWRITE issues a CWRITE of the masked control bytes under a held quoin with write intent. -/
def execKQwrite (e : Nat) (st : State) : Host.Outcome State Fault Refusal :=
  within (below 96 e) st (fun d => d.kIssue e (fun u => u.mop == 0x0C))

/-- QREL, R221: QREL waits for the engine's CWRITEs, frees the quoin and, with write intent, releases the flow's held packets. -/
def execKQrel (e : Nat) (st : State) : Host.Outcome State Fault Refusal :=
  within (below 96 e) st (fun d => d.kIssue e (fun u => u.mop == 0x0D))

/-- RADD, R349: RADD issues an ADD to a record without a quoin. -/
def execKRadd (e : Nat) (st : State) : Host.Outcome State Fault Refusal :=
  within (below 96 e) st (fun d => d.kIssue e (fun u => u.mop == 0x0E))

/-- RSTAMP, R349: RSTAMP issues a STAMP to a record. -/
def execKRstamp (e : Nat) (st : State) : Host.Outcome State Fault Refusal :=
  within (below 96 e) st (fun d => d.kIssue e (fun u => u.mop == 0x0F))

/-- RLOOK, R349: RLOOK canonicalises a 40-byte key in local memory, looks it up and returns a status and the RADDR. -/
def execKRlook (e : Nat) (st : State) : Host.Outcome State Fault Refusal :=
  within (below 96 e) st (fun d => d.kIssue e (fun u => u.mop == 0x10))

/-- RINS, R349: RINS inserts a 64-byte record image as the host INSERT does. -/
def execKRins (e : Nat) (st : State) : Host.Outcome State Fault Refusal :=
  within (below 96 e) st (fun d => d.kIssue e (fun u => u.mop == 0x11))

/-- RDEL, R349: RDEL deletes the record at RADDR with reason ENGINE. -/
def execKRdel (e : Nat) (st : State) : Host.Outcome State Fault Refusal :=
  within (below 96 e) st (fun d => d.kIssue e (fun u => u.mop == 0x12))

/-- LDT, R349: LDT loads a 32-byte entry of the action store, CP_ENT, balancer group, backend or pool. -/
def execKLdt (e : Nat) (st : State) : Host.Outcome State Fault Refusal :=
  within (below 96 e) st (fun d => d.kIssue e (fun u => u.mop == 0x13))

/-- LDPKT, R349: LDPKT loads bytes of the current work item's frame. -/
def execKLdpkt (e : Nat) (st : State) : Host.Outcome State Fault Refusal :=
  within (below 96 e) st (fun d => d.kIssue e (fun u => u.mop == 0x14))

/-- PKTSEND, R349: PKTSEND sends a frame held in scratch to a port and class, charged to the cluster's agent quota. -/
def execKPktsend (e : Nat) (st : State) : Host.Outcome State Fault Refusal :=
  within (below 96 e) st (fun d => d.kIssue e (fun u => u.mop == 0x15))

/-- PMCRD, R393: PMCRD reads a cluster counter or PMC_CYCLE, returning 0 to customer code while PMC_USER_EN = 0. -/
def execKPmcrd (e : Nat) (st : State) : Host.Outcome State Fault Refusal :=
  within (below 96 e) st (fun d => d.kIssue e (fun u => u.mop == 0x16))

/-- JMP, R350: JMP branches to TARGET. -/
def execKJmp (e : Nat) (st : State) : Host.Outcome State Fault Refusal :=
  within (below 96 e) st (fun d => d.kIssue e (fun u => u.bop == 0x01))

/-- BR, R350: BR branches when w[BREG] and CIMM meet COND. -/
def execKBr (e : Nat) (st : State) : Host.Outcome State Fault Refusal :=
  within (below 96 e) st (fun d => d.kIssue e (fun u => u.bop == 0x02))

/-- BBS, R350: BBS branches when bit BIT of w[BREG] is set. -/
def execKBbs (e : Nat) (st : State) : Host.Outcome State Fault Refusal :=
  within (below 96 e) st (fun d => d.kIssue e (fun u => u.bop == 0x03))

/-- BBC, R350: BBC branches when bit BIT of w[BREG] is clear. -/
def execKBbc (e : Nat) (st : State) : Host.Outcome State Fault Refusal :=
  within (below 96 e) st (fun d => d.kIssue e (fun u => u.bop == 0x04))

/-- CALL, R350: CALL pushes the next address and branches to TARGET. -/
def execKCall (e : Nat) (st : State) : Host.Outcome State Fault Refusal :=
  within (below 96 e) st (fun d => d.kIssue e (fun u => u.bop == 0x05))

/-- RET, R350: RET pops an address from the call stack and continues there. -/
def execKRet (e : Nat) (st : State) : Host.Outcome State Fault Refusal :=
  within (below 96 e) st (fun d => d.kIssue e (fun u => u.bop == 0x06))

/-- JMPR, R350: JMPR branches to w[BREG][13:0]. -/
def execKJmpr (e : Nat) (st : State) : Host.Outcome State Fault Refusal :=
  within (below 96 e) st (fun d => d.kIssue e (fun u => u.bop == 0x07))

/-- DCALL, R359: DCALL calls the routine of a dispatch entry; an invalid entry, or a vendor entry that customer code may not call, raises a machine
check. -/
def execKDcall (e : Nat) (st : State) : Host.Outcome State Fault Refusal :=
  within (below 96 e) st (fun d => d.kIssue e (fun u => u.bop == 0x08))

/-- ATOM, R368: ATOM opens an atomic window and checkpoints w1-w31 and the call stack. -/
def execKAtom (e : Nat) (st : State) : Host.Outcome State Fault Refusal :=
  within (below 96 e) st (fun d => d.kIssue e (fun u => u.bop == 0x09))

/-- ENDATOM, R370: ENDATOM applies the commit journal in entry order, with the scratch stores as one locked transfer. -/
def execKEndatom (e : Nat) (st : State) : Host.Outcome State Fault Refusal :=
  within (below 96 e) st (fun d => d.kIssue e (fun u => u.bop == 0x0A))

/-- WAIT, R401: WAIT switches the thread out, blocked until events or its timeout, or ends it; on a thread-role engine with no thread it asks for a
thread. -/
def execKWait (e : Nat) (st : State) : Host.Outcome State Fault Refusal :=
  within (below 96 e) st (fun d => d.kIssue e (fun u => u.bop == 0x0B))

/-- YIELD, R403: YIELD applies its post and timer, then switches the thread out on a pending preemption or round robin. -/
def execKYield (e : Nat) (st : State) : Host.Outcome State Fault Refusal :=
  within (below 96 e) st (fun d => d.kIssue e (fun u => u.bop == 0x0C))

/-- DONE, R362: DONE ends a work item with an outcome and releases every quoin the engine holds. -/
def execKDone (e : Nat) (st : State) : Host.Outcome State Fault Refusal :=
  within (below 96 e) st (fun d => d.kIssue e (fun u => u.bop == 0x0D))

/-- IRET, R367: IRET restores w24-w31 and resumes the routine at the saved micro-PC. -/
def execKIret (e : Nat) (st : State) : Host.Outcome State Fault Refusal :=
  within (below 96 e) st (fun d => d.kIssue e (fun u => u.bop == 0x0E))

/-- FAULT, R350: FAULT raises a machine check with cause FAULT. -/
def execKFault (e : Nat) (st : State) : Host.Outcome State Fault Refusal :=
  within (below 96 e) st (fun d => d.kIssue e (fun u => u.bop == 0x0F))

/-- MEMORY_RESULT_RETURN, R342: The data of a memory-slot operation arrives, clears the pending mark and writes the destination registers. -/
def execMemoryResultReturn (e : Nat) (st : State) : Host.Outcome State Fault Refusal :=
  within (below 96 e) st (fun d => d.memBack e)

/-- ENGINE_INTERRUPT, R366: A pending interrupt suspends the routine at the next microword boundary outside an atomic window and starts its handler.
-/
def execEngineInterrupt (e : Nat) (st : State) : Host.Outcome State Fault Refusal :=
  within (below 96 e) st (fun d => d.engIrq e)

/-- HOST_INTERRUPT_RAISE, R365: A KSN_ENG_IRQ write with RAISE = 1 raises interrupt source HOST on the engine. -/
def execHostInterruptRaise (p : Path) (e : Nat) (st : State) : Host.Outcome State Fault Refusal :=
  within (below 96 e) st (fun d => d.hostOp p R.KSN_ENG_IRQ (engIx e) [("RAISE", 1)])

/-- ATOMIC_WINDOW_LIMIT, R372: When the 256 ECLK limit passes, the journal is discarded and the checkpoint restored, then the interrupt is served or a
machine check AWIN is raised. -/
def execAtomicWindowLimit (e : Nat) (st : State) : Host.Outcome State Fault Refusal :=
  within (below 96 e) st (fun d => d.winLimit e)

/-- WORK_ITEM_TAKE, R361: An idle packet-role engine takes the head of its cluster's queue and the part writes the item to local memory. -/
def execWorkItemTake (e : Nat) (st : State) : Host.Outcome State Fault Refusal :=
  within (below 96 e) st (fun d => d.itemTake e)

/-- ENGINE_RESET_WRITE, R24: A KSN_ENG_RESET write with GO = 1 resets one engine and increments its epoch. -/
def execEngineResetWrite (p : Path) (e : Nat) (st : State) : Host.Outcome State Fault Refusal :=
  within (below 96 e) st (fun d => d.hostOp p R.KSN_ENG_RESET (engIx e) [("GO", 1)])

/-- ROLE_WRITE, R364: A KSN_ENG_CFG.ROLE write requests a role change, refused when it would leave a region without a packet-role engine. -/
def execRoleWrite (p : Path) (e : Nat) (role : Bool) (st : State) : Host.Outcome State Fault Refusal :=
  within (below 96 e) st (fun d => d.hostOp p R.KSN_ENG_CFG (engIx e) [("ROLE", b2n role)])

/-- ROLE_SWITCH, R364: A requested role change takes effect at the engine's next idle point. -/
def execRoleSwitch (e : Nat) (st : State) : Host.Outcome State Fault Refusal :=
  within (below 96 e) st (fun d => d.roleSwitch e)

/-- CLUSTER_BUS_GRANT, R387: The cluster bus arbiter grants a waiting requester under rotating priority. -/
def execClusterBusGrant (k : Nat) (req : List Nat) (beats : Nat) (st : State) : Host.Outcome State Fault Refusal :=
  within (below 12 k && req.all (below 9) && decide (1 ≤ beats) && decide (beats ≤ 64)) st (fun d => d.busGrant k req beats)

/-- SCRATCH_APERTURE_ACCESS, R389: A host access through the scratch aperture reads or writes the page that KSN_SCR_PAGE selects, over the cluster
bus. -/
def execScratchApertureAccess (p : Path) (k : Nat) (off : Nat) (wr : Option Word) (st : State) : Host.Outcome State Fault Refusal :=
  within (below 12 k && below 0x20000 off) st (fun d => d.apertureAccess p k off wr)

/-- APERTURE_TIMEOUT, R389: An aperture access not granted within 1 us completes with read data 0 or the write discarded, and is reported as a host
access error. -/
def execApertureTimeout (p : Path) (k : Nat) (off : Nat) (wr : Option Word) (st : State) : Host.Outcome State Fault Refusal :=
  within (below 12 k && below 0x20000 off) st (fun d => d.apertureWait p k off wr)

/-- PMC_EVSEL_WRITE, R391: A write to PMC_EVSEL that changes EVENT or ENGMASK clears the counter. -/
def execPmcEvselWrite (p : Path) (k : Nat) (n : Nat) (v : Word) (st : State) : Host.Outcome State Fault Refusal :=
  within (below 12 k && below 8 n) st (fun d => d.hostWrite p (R.PMC_EVSEL.addr (clIx k ++ [n])) v)

end Sys2Proof.Machine
end

