-- ==== Sys2Proof/Machine/ExecErr.lean ====
section
/-! DEFINITION. The meanings of the commands of error events, injection, quiescing and diverts. -/

namespace Sys2Proof.Machine

/-- ERROR_RECORD, R608: An error event raises its counters and writes its record to ERR_LOG and the host ring, unless the record is withheld, and
signals MSI-X and the galley alert. -/
def execErrorRecord (ev : ErrEvent) (st : State) : Host.Outcome State Fault Refusal :=
  within (evOk ev) st (fun d => d.recordEvent ev)

/-- INJECTION_ARM, R616: An ERR_INJ write with GO = 1 arms a fault injection for the given source and instance. -/
def execInjectionArm (p : Path) (d : Nat) (v : Word) (st : State) : Host.Outcome State Fault Refusal :=
  within (below 2 d) st (fun s => s.hostWrite p (R.ERR_INJ.addr [d]) v)

/-- INJECTION_CANCEL, R616: An ERR_INJ write with CANCEL = 1 withdraws a pending injection. -/
def execInjectionCancel (p : Path) (d : Nat) (st : State) : Host.Outcome State Fault Refusal :=
  within (below 2 d) st (fun s => s.hostSet p R.ERR_INJ [d] "CANCEL")

/-- QUIESCE_WRITE, R601: An ERR_QUIESCE.REGION write stops admission in the region's MACs, or resumes it. -/
def execQuiesceWrite (p : Path) (d : Nat) (v : Word) (st : State) : Host.Outcome State Fault Refusal :=
  within (below 2 d) st (fun s => s.hostWrite p (R.ERR_QUIESCE.addr [d]) v)

/-- RELEASE, R614: FLW_DIV_CMD RELEASE clears DIVERTED in every copy of the slot. -/
def execDivRelease (p : Path) (d : Nat) (st : State) : Host.Outcome State Fault Refusal :=
  within (below 2 d) st (fun s => s.hostOp p R.FLW_DIV_CMD [d] [("OP", 1)])

/-- PURGE, R614: FLW_DIV_CMD PURGE deletes a diverted or poisoned record with reason HOST. -/
def execDivPurge (p : Path) (d : Nat) (st : State) : Host.Outcome State Fault Refusal :=
  within (below 2 d) st (fun s => s.hostOp p R.FLW_DIV_CMD [d] [("OP", 2)])

end Sys2Proof.Machine
end

