-- ==== Sys2Proof/Machine/ExecFlow.lean ====
section
/-! DEFINITION. The meanings of the commands of packets, flow records, hints and quoins. -/

namespace Sys2Proof.Machine

/-- FRAME_RECEIVE, R541: The MAC receives a frame, drops runts, steers the frame to an ingress class, takes the receive stamp and hands it to the
region, or counts an overrun. -/
def execFrameReceive (port : Nat) (bytes : List Byte) (room : RxRoom) (st : State) : Host.Outcome State Fault Refusal :=
  within (below 64 port) st (fun d => d.frameReceive port bytes room.slot room.full room.rest)

/-- PARSE_COMPLETE, R252: Once byte D has arrived, parsing, the pre-hash tables, the canonical key and H complete, the hint lookup is issued and a
commit-window entry is taken. -/
def execParseComplete (pkt : Nat) (st : State) : Host.Outcome State Fault Refusal :=
  within true st (fun d => d.parseComplete pkt)

/-- DESCRIPTOR_RECEIVE, R144: A header descriptor from the other die arrives at home-die region 2d + H[0] and its record operation is issued. -/
def execDescriptorReceive (d : Nat) (st : State) : Host.Outcome State Fault Refusal :=
  within (below 2 d) st (fun s => s.linkReceive d true)

/-- PATTERN_RESULT_READY, R262: The payload pattern result of an inspected packet is merged at its FLOW stage. -/
def execPatternResultReady (pkt : Nat) (st : State) : Host.Outcome State Fault Refusal :=
  within true st (fun d => d.patternReady pkt)

/-- RECORD_RETURN, R189: When a packet's record returns to the home region, the packet is classed as HOLD, PENDING, DIVERT, DROP, ENGINE, COMMIT or
SQUASH. -/
def execRecordReturn (pkt : Nat) (st : State) : Host.Outcome State Fault Refusal :=
  within true st (fun d => d.recordReturn pkt)

/-- REPLAY_END, R193: A replayed packet finishes its action-dependent stages under its record and commits in flow order. -/
def execReplayEnd (pkt : Nat) (st : State) : Host.Outcome State Fault Refusal :=
  within true st (fun d => d.replayEnd pkt)

/-- VERDICT_RECEIVE, R202: A verdict from the home die reaches the ingress commit window, which carries out the outcome for entry WIN. -/
def execVerdictReceive (d : Nat) (st : State) : Host.Outcome State Fault Refusal :=
  within (below 2 d) st (fun s => s.linkReceive d false)

/-- RECIRCULATE, R259: A packet from the recirculation queue re-enters the pipeline for its second pass, with metadata rebuilt from entry 16. -/
def execRecirculate (g : Nat) (st : State) : Host.Outcome State Fault Refusal :=
  within (below 4 g) st (fun d => d.recirculate g)

/-- FAST_INSERT_COMPLETE, R148: When both tag blocks return for a fast insertion, the part chooses a slot, writes the slot and tag, commits the first
packet and releases the pending list. -/
def execFastInsertComplete (pkt : Nat) (st : State) : Host.Outcome State Fault Refusal :=
  within true st (fun d => d.fastInsert pkt)

/-- SETUP_TIMEOUT, R153: An insertion still open after TMO_US is reported as a contained error, and the flow is diverted only when DIVERT is armed. -/
def execSetupTimeout (d : Nat) (i : Nat) (st : State) : Host.Outcome State Fault Refusal :=
  within (below 2 d) st (fun s => s.setupTimeout d i)

/-- SWEEP_VISIT, R159: The aging sweeper visits a VALID slot, saturates its idle time and clears hit marks, sets CLR or deletes the record. -/
def execSweepVisit (raddr : Nat) (st : State) : Host.Outcome State Fault Refusal :=
  within (raOk raddr) st (fun d => d.sweepVisit raddr)

/-- EXPORT_WALK_VISIT, R338: The periodic walker reads a VALID slot and writes an export item, or stalls while the export queue is full. -/
def execExportWalkVisit (raddr : Nat) (st : State) : Host.Outcome State Fault Refusal :=
  within (raOk raddr) st (fun d => d.exportVisit raddr)

/-- AUU_WB, R157: A packet write-back applied at the atomic update unit updates the counters, LAST, the hit mark and TCPST, or is discarded when the
slot changed. -/
def execAuuWb (raddr : Nat) (st : State) : Host.Outcome State Fault Refusal :=
  within (raOk raddr) st (fun d => d.auuTakeWb raddr)

/-- AUU_ADD, R208: An engine ADD applies signed deltas to PKTS and OCTETS of a VALID record. -/
def execAuuAdd (raddr : Nat) (st : State) : Host.Outcome State Fault Refusal :=
  within (raOk raddr) st (fun d => d.auuTake raddr (fun k => match k with | .add _ _ _ _ => true | _ => false))

/-- AUU_STAMP, R208: An engine STAMP sets LAST of a VALID record to the current tick. -/
def execAuuStamp (raddr : Nat) (st : State) : Host.Outcome State Fault Refusal :=
  within (raOk raddr) st (fun d => d.auuTake raddr (fun k => match k with | .stamp _ _ => true | _ => false))

/-- AUU_CSET, R161: A sweeper compare-and-set of CLR applies only when both hit marks are still clear and no quoin is held. -/
def execAuuCset (raddr : Nat) (st : State) : Host.Outcome State Fault Refusal :=
  within (raOk raddr) st (fun d => d.auuTake raddr (fun k => match k with | .cset => true | _ => false))

/-- AUU_CDEL, R155: A sweeper compare-and-delete removes an idle record with reason AGED. -/
def execAuuCdel (raddr : Nat) (st : State) : Host.Outcome State Fault Refusal :=
  within (raOk raddr) st (fun d => d.auuTake raddr (fun k => match k with | .cdel => true | _ => false))

/-- AUU_CWRITE, R208: A CWRITE writes the masked control fields of a record under a quoin with write intent, or for a setup COMMIT. -/
def execAuuCwrite (raddr : Nat) (st : State) : Host.Outcome State Fault Refusal :=
  within (raOk raddr) st (fun d => d.auuTake raddr (fun k => match k with | .cwrite _ _ _ _ => true | _ => false))

/-- AUU_FSET, R208: The part sets one FLAGS bit of a record, in every copy. -/
def execAuuFset (raddr : Nat) (bit : Nat) (st : State) : Host.Outcome State Fault Refusal :=
  within (raOk raddr && below 8 bit) st (fun d => d.auuFlag raddr bit true)

/-- AUU_FCLR, R208: The part clears one FLAGS bit of a record, in every copy. -/
def execAuuFclr (raddr : Nat) (bit : Nat) (st : State) : Host.Outcome State Fault Refusal :=
  within (raOk raddr && below 8 bit) st (fun d => d.auuFlag raddr bit false)

/-- FLOW_LOOKUP, R166: FLW_HCMD LOOKUP finds the record of the key in FLW_HKEY and copies it to FLW_HREC. -/
def execFlowLookup (p : Path) (d : Nat) (st : State) : Host.Outcome State Fault Refusal :=
  within (below 2 d) st (fun s => s.hostOp p R.FLW_HCMD [d] [("OP", 1)])

/-- FLOW_DELETE, R166: FLW_HCMD DELETE deletes the record of the key with reason HOST, refusing PENDING, TORN, diverted and quoin-held records. -/
def execFlowDelete (p : Path) (d : Nat) (st : State) : Host.Outcome State Fault Refusal :=
  within (below 2 d) st (fun s => s.hostOp p R.FLW_HCMD [d] [("OP", 2)])

/-- FLOW_INSERT, R166: FLW_HCMD INSERT inserts a record for the key with bytes 40-61 taken from FLW_HREC. -/
def execFlowInsert (p : Path) (d : Nat) (st : State) : Host.Outcome State Fault Refusal :=
  within (below 2 d) st (fun s => s.hostOp p R.FLW_HCMD [d] [("OP", 3)])

/-- HINT_INVALIDATE, R181: A write of FLW_MIR_CTL.INV = 1 starts invalidating the die's hint cache and sets INV_BUSY. -/
def execHintInvalidate (p : Path) (d : Nat) (v : Word) (st : State) : Host.Outcome State Fault Refusal :=
  within (below 2 d) st (fun s => s.hostWrite p (R.FLW_MIR_CTL.addr [d]) v)

/-- HINT_INVALIDATE_COMPLETE, R181: Every hint entry of the die is invalid and INV_BUSY clears. -/
def execHintInvalidateComplete (d : Nat) (st : State) : Host.Outcome State Fault Refusal :=
  within (below 2 d) st (fun s => s.hintInvDone d)

/-- QUOIN_GRANT, R219: A waiting QACQ is granted a released or stale quoin under rotating priority, after the flow's in-flight packets commit when
write intent is set. -/
def execQuoinGrant (raddr : Nat) (st : State) : Host.Outcome State Fault Refusal :=
  within (raOk raddr) st (fun d => d.quoinGrant raddr)

/-- QUOIN_WAIT_TIMEOUT, R219: A QACQ waiter not served within WAIT_CYC receives BUSY and leaves the queue. -/
def execQuoinWaitTimeout (e : Nat) (st : State) : Host.Outcome State Fault Refusal :=
  within (below 96 e) st (fun d => d.quoinTimeout e)

/-- QUOIN_SWEEP_VISIT, R230: The quoin sweeper visits an entry and reclaims it when stale, tearing the record when write intent was set. -/
def execQuoinSweepVisit (raddr : Nat) (st : State) : Host.Outcome State Fault Refusal :=
  within (raOk raddr) st (fun d => d.quoinSweep raddr)

/-- TORN_LOG_POP, R234: A read of FLW_QN_TORN_LOG pops the oldest torn record address. -/
def execTornLogPop (p : Path) (d : Nat) (st : State) : Host.Outcome State Fault Refusal :=
  within (below 2 d) st (fun s => s.hostRead p (R.FLW_QN_TORN_LOG.addr [d]))

/-- TORN_READ, R232: FLW_QN_RCMD READ copies the slot at FLW_QN_RLOC to FLW_HREC and reports whether it is TORN. -/
def execTornRead (p : Path) (d : Nat) (st : State) : Host.Outcome State Fault Refusal :=
  within (below 2 d) st (fun s => s.hostOp p R.FLW_QN_RCMD [d] [("OP", 1)])

/-- TORN_RESTORE, R232: FLW_QN_RCMD RESTORE writes the control fields from FLW_HREC, makes the tag VALID and keeps DIVERTED. -/
def execTornRestore (p : Path) (d : Nat) (st : State) : Host.Outcome State Fault Refusal :=
  within (below 2 d) st (fun s => s.hostOp p R.FLW_QN_RCMD [d] [("OP", 2)])

/-- TORN_EMPTY, R232: FLW_QN_RCMD EMPTY deletes a torn slot with reason HOST. -/
def execTornEmpty (p : Path) (d : Nat) (st : State) : Host.Outcome State Fault Refusal :=
  within (below 2 d) st (fun s => s.hostOp p R.FLW_QN_RCMD [d] [("OP", 3)])

end Sys2Proof.Machine
end

