-- ==== Sys2Proof/Machine/ExecGalley.lean ====
section
/-! DEFINITION. The meanings of the commands of the galley chain. -/

namespace Sys2Proof.Machine

/-- GALLEY_FRAME_FORWARD, R640: A galley frame arriving on one port is forwarded out of the other with TTL decremented, or consumed when addressed to
the part. -/
def execGalleyFrameForward (down : Bool) (frame : List Byte) (st : State) : Host.Outcome State Fault Refusal :=
  within true st (fun d => d.galFrame down frame)

/-- ENUM, R643: Galley ENUM assigns or keeps the part's address and forwards NEXT. -/
def execGalleyEnum (down : Bool) (frame : List Byte) (st : State) : Host.Outcome State Fault Refusal :=
  within (galCmd frame == 1) st (fun d => d.galFrame down frame)

/-- IDENT, R642: Galley IDENT returns the part identity and imprint check. -/
def execGalleyIdent (down : Bool) (frame : List Byte) (st : State) : Host.Outcome State Fault Refusal :=
  within (galCmd frame == 2) st (fun d => d.galFrame down frame)

/-- GALLEY_STATUS, R642: Galley STATUS returns the mode, boot status, class U count and GAL_STAT. -/
def execGalleyStatus (down : Bool) (frame : List Byte) (st : State) : Host.Outcome State Fault Refusal :=
  within (galCmd frame == 3) st (fun d => d.galFrame down frame)

/-- GALLEY_RD, R642: Galley RD performs a credentialed BAR0 read. -/
def execGalleyRd (down : Bool) (frame : List Byte) (st : State) : Host.Outcome State Fault Refusal :=
  within (galCmd frame == 4) st (fun d => d.galFrame down frame)

/-- GALLEY_WR, R642: Galley WR performs a credentialed BAR0 write, refused for SEC and the galley credential registers. -/
def execGalleyWr (down : Bool) (frame : List Byte) (st : State) : Host.Outcome State Fault Refusal :=
  within (galCmd frame == 5) st (fun d => d.galFrame down frame)

/-- GALLEY_RESET, R642: Galley RESET performs a galley reset once the response or forwarded copy has been sent. -/
def execGalleyReset (down : Bool) (frame : List Byte) (st : State) : Host.Outcome State Fault Refusal :=
  within (galCmd frame == 6) st (fun d => d.galFrame down frame)

/-- GALLEY_TIME, R646: Galley TIME issues a SET corrected for the number of hops. -/
def execGalleyTime (down : Bool) (frame : List Byte) (st : State) : Host.Outcome State Fault Refusal :=
  within (galCmd frame == 7) st (fun d => d.galFrame down frame)

/-- ERRLOG, R642: Galley ERRLOG returns one ERR_LOG record. -/
def execGalleyErrlog (down : Bool) (frame : List Byte) (st : State) : Host.Outcome State Fault Refusal :=
  within (galCmd frame == 8) st (fun d => d.galFrame down frame)

/-- GALLEY_LOSS_OF_SIGNAL, R645: A galley port with no valid character for 10 us sets UP_LOS or DN_LOS, signals vector 56 and sends BREAK. -/
def execGalleyLossOfSignal (down : Bool) (st : State) : Host.Outcome State Fault Refusal :=
  within true st (fun d => d.galLoss down)

/-- GALLEY_ATTACH, R645: Valid characters for 10 us on a lost galley port set ATTACH, signal vector 56 and send ATTACH. -/
def execGalleyAttach (down : Bool) (st : State) : Host.Outcome State Fault Refusal :=
  within true st (fun d => d.galAttach down)

/-- GALLEY_ALERT_SEND, R647: A waiting alert is sent out of the upstream port once that port is free. -/
def execGalleyAlertSend (st : State) : Host.Outcome State Fault Refusal :=
  within true st (fun d => d.galAlert)

/-- GALLEY_CRED_LOCK, R649: A W1S write of GAL_CRED_CTL.LOCK locks GAL_KEY and EN until COLD. -/
def execGalleyCredLock (p : Path) (st : State) : Host.Outcome State Fault Refusal :=
  within true st (fun d => d.credLock p)

end Sys2Proof.Machine
end

