-- ==== Sys2Proof/Machine/ExecHbm.lean ====
section
/-! DEFINITION. The meanings of the commands of the HBM controllers. -/

namespace Sys2Proof.Machine

/-- HBM_READ_COMPLETE, R520: Read data returns from a pseudo-channel and is corrected, retried from the mirror or reported as a failure. -/
def execHbmReadComplete (rd : HbmRead) (st : State) : Host.Outcome State Fault Refusal :=
  within (hbmReadOk rd && rd.arr.all (st.dev.reqOk (48 * rd.d + rd.ch))) st (fun d => d.hbmRead rd)

/-- PANIC_RAISE, R507: A FLOW_RD read reaching AGE_NS raises panic on its pseudo-channel. -/
def execPanicRaise (pc : PchId) (arr : List HbmReq) (st : State) : Host.Outcome State Fault Refusal :=
  within (panicOk pc.ch pc.u arr && arr.all (st.dev.reqOk pc.ch)) st (fun d => d.panicRaise pc.ch pc.u arr)

/-- REFRESH_DUE, R511: A bank's refresh interval elapses and a per-bank refresh is queued, taking rank 1 at its postponement limit. -/
def execRefreshDue (ch : Nat) (u : Nat) (bank : Nat) (st : State) : Host.Outcome State Fault Refusal :=
  within (below 96 ch && below 2 u && below 32 bank) st (fun d => d.refreshDue ch u bank)

/-- STACK_TEMP_READING, R511: The 1 ms stack temperature reading updates HOT and OVERTEMP and reports MEM_TEMP at 95 C. -/
def execStackTempReading (stack : Nat) (t : Int) (st : State) : Host.Outcome State Fault Refusal :=
  within (below 6 stack && decide (-128 ≤ t) && decide (t ≤ 127)) st (fun d => d.stackReading stack t)

/-- READ_EYE_RECENTRE, R518: Every 100 ms each read eye is recentred, and MEM_TRAIN RECENTRE is reported at the edge of its range. -/
def execReadEyeRecentre (stack : Nat) (edge : Option Nat) (st : State) : Host.Outcome State Fault Refusal :=
  within (below 6 stack && (match edge with | some c => below 16 c | none => true)) st (fun d => d.recentre stack edge)

end Sys2Proof.Machine
end

