-- ==== Sys2Proof/Machine/ExecHost.lean ====
section
/-! DEFINITION. The meanings of the commands of the host rings, endpoints and register accesses. -/

namespace Sys2Proof.Machine

/-- TX_DOORBELL, R636: A HIF_TX_TAIL write or doorbell posts transmit descriptors, refused when out of range. -/
def execTxDoorbell (p : Path) (t : Nat) (v : Nat) (st : State) : Host.Outcome State Fault Refusal :=
  within (below 64 t && below 65536 v) st (fun d => d.hostWrite p (R.HIF_TX_TAIL.addr [t]) (BitVec.ofNat 32 v))

/-- TX_DESCRIPTOR_PROCESS, R629: The part fetches a transmit descriptor and its frame, stores the frame, writes DONE and injects or bypasses it. -/
def execTxDescriptorProcess (t : Nat) (desc : List Byte) (frame : Option (List Byte)) (st : State) : Host.Outcome State Fault Refusal :=
  within (below 64 t && desc.length == 32 && (match frame with | some f => f.length == leAt desc 8 2 | none => true)) st (fun d => d.txProcess t desc frame)

/-- TX_STALL_RETRY, R630: A ring stalled on a refused allocation retries every 1 us. -/
def execTxStallRetry (t : Nat) (st : State) : Host.Outcome State Fault Refusal :=
  within (below 64 t) st (fun d => d.txRetry t)

/-- RX_DOORBELL, R636: A HIF_RX_TAIL write or doorbell posts receive buffers. -/
def execRxDoorbell (p : Path) (d : Nat) (t : Nat) (v : Nat) (st : State) : Host.Outcome State Fault Refusal :=
  within (below 2 d && below (if d = 0 then 64 else 8) t && below 65536 v) st (fun s => s.rxBell p d t v)

/-- RX_FRAME_DELIVER, R633: A frame from a host egress queue is written to a receive buffer of its selected ring, with its descriptor written after
the data. -/
def execRxFrameDeliver (d : Nat) (c : Nat) (desc : List Byte) (st : State) : Host.Outcome State Fault Refusal :=
  within (below 2 d && below 8 c && desc.length == 32) st (fun s => s.rxDeliver d c desc)

/-- EXC_EN_WRITE, R635: A HIF1_CTL.EXC_EN write routes die 1 exception frames through the die 1 endpoint, refused while that link is down. -/
def execExcEnWrite (p : Path) (en : Bool) (st : State) : Host.Outcome State Fault Refusal :=
  within true st (fun d => d.hostOp p R.HIF1_CTL [] [("EXC_EN", b2n en)])

/-- MSIX_UNMASK, R627: Unmasking a vector whose pending bit is set sends one message and clears the bit. The table has no row for the other accesses to an
endpoint's own address space (R622, R708): they are this command's other forms, log entry 158. -/
def execMsixUnmask (ep : Nat) (vec : EpOp) (st : State) : Host.Outcome State Fault Refusal :=
  within (below 2 ep && epNames ep vec) st (fun d => d.epAccess ep vec)

/-- PCIE_LINK_DOWN, R634: The PCIe endpoint link goes down without a PCIe reset, so frames for the host port wait at the head of their egress queues.
-/
def execPcieLinkDown (ep : Nat) (st : State) : Host.Outcome State Fault Refusal :=
  within (below 2 ep) st (fun d => d.epDown ep)

/-- PCIE_LINK_UP, R634: The PCIe endpoint link comes up again and frames waiting for the host rings proceed. -/
def execPcieLinkUp (ep : Nat) (speed : Nat) (width : Nat) (st : State) : Host.Outcome State Fault Refusal :=
  within (linkOk ep speed width) st (fun d => d.epBack ep speed width)

/-- CLEARING_READ, R15: A read of an RC field returns its value and clears it, with a same-cycle increment kept after the clear. -/
def execClearingRead (p : Path) (off : Nat) (inc : Nat) (st : State) : Host.Outcome State Fault Refusal :=
  within (below (2 ^ 27) off) st (fun d => d.hostRead p off inc)

/-- WIDE_LOW_WORD_READ, R18: A read of the low word of a 64-bit register latches the high word in the path's read latch. -/
def execWideLowWordRead (p : Path) (off : Nat) (st : State) : Host.Outcome State Fault Refusal :=
  within (below (2 ^ 27) off) st (fun d => d.hostRead p off)

/-- REGISTER_WRITE, R13: A write to a register that has no row of its own acts on its fields by their access codes, with the lock, value and busy
checks. -/
def execRegisterWrite (p : Path) (off : Nat) (v : Word) (hw : Word) (st : State) : Host.Outcome State Fault Refusal :=
  within (below (2 ^ 27) off) st (fun d => d.registerWrite p off v hw)

/-- HOST_ACCESS_ERROR_READ, R626: A host read of an offset that holds no register, of a die-0-only register on die 1, or of a block whose clock is
stopped returns 0 and raises a HOST_ACC event. -/
def execHostAccessErrorRead (p : Path) (off : Nat) (st : State) : Host.Outcome State Fault Refusal :=
  within (below (2 ^ 27) off) st (fun d => d.hostRead p off)

end Sys2Proof.Machine
end

