-- ==== Sys2Proof/Machine/ExecMatch.lean ====
section
/-! DEFINITION. The meanings of the commands of the match memories and the L2 tables. -/

namespace Sys2Proof.Machine

/-- TCAM_WRITE, R276: MAT_TCAM_CMD WRITE writes the staged entry in one stolen slot, or in three verified steps in recovery or outside RUN. -/
def execTcamWrite (p : Path) (g : Nat) (prof : Nat) (e : TcamPut) (st : State) : Host.Outcome State Fault Refusal :=
  within (below 4 g && below 16 prof && below 32768 e.index) st (fun d => d.tcamWriteCmd p g prof e.index e.flip)

/-- TCAM_INVALIDATE, R280: MAT_TCAM_CMD INVALIDATE clears the entry's valid bit and its shadow's. -/
def execTcamInvalidate (p : Path) (g : Nat) (prof : Nat) (index : Nat) (st : State) : Host.Outcome State Fault Refusal :=
  within (below 4 g && below 16 prof && below 32768 index) st (fun d => d.hostOp p R.MAT_TCAM_CMD [g / 2, g % 2] [("OP", 2), ("PROF", prof), ("INDEX", index)])

/-- TCAM_READ, R280: MAT_TCAM_CMD READ copies the shadow entry to the staging registers. -/
def execTcamRead (p : Path) (g : Nat) (prof : Nat) (index : Nat) (st : State) : Host.Outcome State Fault Refusal :=
  within (below 4 g && below 16 prof && below 32768 index) st (fun d => d.hostOp p R.MAT_TCAM_CMD [g / 2, g % 2] [("OP", 3), ("PROF", prof), ("INDEX", index)])

/-- READ_ARRAY, R280: MAT_TCAM_CMD READ_ARRAY copies the TCAM rows, result and side data to the staging registers. -/
def execTcamReadArray (p : Path) (g : Nat) (prof : Nat) (index : Nat) (st : State) : Host.Outcome State Fault Refusal :=
  within (below 4 g && below 16 prof && below 32768 index) st (fun d => d.hostOp p R.MAT_TCAM_CMD [g / 2, g % 2] [("OP", 4), ("PROF", prof), ("INDEX", index)])

/-- TCAM_SCRUB_VISIT, R281: The scrubber compares a row with its shadow and reports a mismatch, rewriting the row when REWRITE is armed. -/
def execTcamScrubVisit (g : Nat) (block : Nat) (row : Nat) (st : State) : Host.Outcome State Fault Refusal :=
  within (below 4 g && below 16 block && below 2048 row) st (fun d => d.tcamScrub g block row)

/-- EX_LOOKUP, R290: MAT_EX_CMD LOOKUP copies an exact entry to the staging registers. -/
def execExLookup (p : Path) (g : Nat) (table : Nat) (st : State) : Host.Outcome State Fault Refusal :=
  within (below 4 g && below 256 table) st (fun d => d.hostOp p R.MAT_EX_CMD [g / 2, g % 2] [("OP", 1), ("TABLE", table)])

/-- EX_INSERT, R288: MAT_EX_CMD INSERT places an exact entry in the candidate bucket with more free entries. -/
def execExInsert (p : Path) (g : Nat) (table : Nat) (st : State) : Host.Outcome State Fault Refusal :=
  within (below 4 g && below 256 table) st (fun d => d.hostOp p R.MAT_EX_CMD [g / 2, g % 2] [("OP", 2), ("TABLE", table)])

/-- EX_DELETE, R290: MAT_EX_CMD DELETE clears an exact entry's VALID. -/
def execExDelete (p : Path) (g : Nat) (table : Nat) (st : State) : Host.Outcome State Fault Refusal :=
  within (below 4 g && below 256 table) st (fun d => d.hostOp p R.MAT_EX_CMD [g / 2, g % 2] [("OP", 3), ("TABLE", table)])

/-- REPLACE, R290: MAT_EX_CMD REPLACE rewrites the result and side data of an existing key in one write. -/
def execExReplace (p : Path) (g : Nat) (table : Nat) (st : State) : Host.Outcome State Fault Refusal :=
  within (below 4 g && below 256 table) st (fun d => d.hostOp p R.MAT_EX_CMD [g / 2, g % 2] [("OP", 4), ("TABLE", table)])

/-- DWRITE, R290: MAT_EX_CMD DWRITE writes a direct-table result at INDEX. -/
def execDirWrite (p : Path) (g : Nat) (table : Nat) (index : Nat) (st : State) : Host.Outcome State Fault Refusal :=
  within (below 4 g && below 256 table && below (2 ^ 20) index) st (fun d => d.hostOp p R.MAT_EX_CMD [g / 2, g % 2] [("OP", 5), ("TABLE", table), ("INDEX", index)])

/-- DREAD, R290: MAT_EX_CMD DREAD reads a direct-table result at INDEX. -/
def execDirRead (p : Path) (g : Nat) (table : Nat) (index : Nat) (st : State) : Host.Outcome State Fault Refusal :=
  within (below 4 g && below 256 table && below (2 ^ 20) index) st (fun d => d.hostOp p R.MAT_EX_CMD [g / 2, g % 2] [("OP", 6), ("TABLE", table), ("INDEX", index)])

/-- COUNTER_SNAPSHOT, R305: A MAT_CNT_SEL write snapshots a counter pair and clears it when CLR = 1. -/
def execCounterSnapshot (p : Path) (g : Nat) (v : Word) (st : State) : Host.Outcome State Fault Refusal :=
  within (below 4 g) st (fun d => d.hostWrite p (R.MAT_CNT_SEL.addr [g / 2, g % 2]) v)

/-- L2_LEARN_APPLY, R295: The inserter applies one learn push: a learn, a hit refresh, a static violation or a move, with an event. -/
def execL2LearnApply (d : Nat) (st : State) : Host.Outcome State Fault Refusal :=
  within (below 2 d) st (fun s => s.l2Learn d)

/-- L2_SWEEP_VISIT, R296: The L2 sweeper clears HIT, sets CLR or deletes an entry with an AGE event. -/
def execL2SweepVisit (d : Nat) (index : Nat) (st : State) : Host.Outcome State Fault Refusal :=
  within (below 2 d && below (2 ^ 19) index) st (fun s => s.l2Sweep d index)

/-- L2_LOOKUP, R302: L2_HCMD LOOKUP copies an L2 entry to L2_HENT. -/
def execL2Lookup (p : Path) (d : Nat) (st : State) : Host.Outcome State Fault Refusal :=
  within (below 2 d) st (fun s => s.hostOp p R.L2_HCMD [d] [("OP", 1)])

/-- L2_INSERT, R302: L2_HCMD INSERT writes or replaces an L2 entry whole. -/
def execL2Insert (p : Path) (d : Nat) (st : State) : Host.Outcome State Fault Refusal :=
  within (below 2 d) st (fun s => s.hostOp p R.L2_HCMD [d] [("OP", 2)])

/-- L2_DELETE, R302: L2_HCMD DELETE removes an L2 entry. -/
def execL2Delete (p : Path) (d : Nat) (st : State) : Host.Outcome State Fault Refusal :=
  within (below 2 d) st (fun s => s.hostOp p R.L2_HCMD [d] [("OP", 3)])

/-- L2_FLUSH, R302: L2_HCMD FLUSH removes every matching non-STATIC entry, with one FLUSH event each. -/
def execL2Flush (p : Path) (d : Nat) (fidm : Bool) (st : State) : Host.Outcome State Fault Refusal :=
  within (below 2 d) st (fun s => s.hostOp p R.L2_HCMD [d] [("OP", 4), ("FIDM", b2n fidm)])

end Sys2Proof.Machine
end

