-- ==== Sys2Proof/Machine/ExecModes.lean ====
section
/-! DEFINITION. The meanings of the commands of resets, boot, modes and the forme and patch loaders. -/

namespace Sys2Proof.Machine

/-- POWER_ON_RESET, R68: Release of PORESET_N after the supplies come up resets everything and starts the timed boot sequence, entering ROOT once SCLK
is stable. -/
def execPowerOnReset (refSel : Bool) (st : State) : Host.Outcome State Fault Refusal :=
  within true st (fun d => d.powerOn refSel)

/-- PIN_RESET, R61: Assertion of PORESET_N with the supplies up takes the part to COLD and then ROOT, keeping the TCLK domain, raw counter, offset,
increment and galley address. -/
def execPinReset (refSel : Bool) (st : State) : Host.Outcome State Fault Refusal :=
  within true st (fun d => d.pinReset refSel)

/-- HOST_PACKAGE_RESET, R64: A GLB_RESET write with PKG = 1 and CONFIRM = 0x5A17 performs a package reset; a write with any other CONFIRM is refused
and reported. -/
def execHostPackageReset (p : Path) (v : Word) (st : State) : Host.Outcome State Fault Refusal :=
  within true st (fun d => d.hostWrite p (R.GLB_RESET.addr []) v)

/-- RAIL_UNDERVOLTAGE, R693: A rail that stays below 92 % of nominal for 10 us puts the part in COLD and holds it there. -/
def execRailUndervoltage (st : State) : Host.Outcome State Fault Refusal :=
  within true st (fun d => d.railLow)

/-- RAIL_RECOVERED, R693: Once every rail has been within tolerance for 1 ms after an undervoltage, the part performs a power-on reset. -/
def execRailRecovered (refSel : Bool) (st : State) : Host.Outcome State Fault Refusal :=
  within true st (fun d => d.railBack refSel)

/-- DIE_SENSOR_SAMPLE, R698: The 100 us die temperature sample updates the thermal status and THERM_ALERT_N, and checks the trip threshold. -/
def execDieSensorSample (t0 : Int) (t1 : Int) (st : State) : Host.Outcome State Fault Refusal :=
  within (decide (-128 ≤ t0) && decide (t0 ≤ 127) && decide (-128 ≤ t1) && decide (t1 ≤ 127)) st (fun d => d.dieSample t0 t1)

/-- PCIE_RESET, R63: PERST_N, a hot reset or a function-level reset clears the HIF block except HIF_RX_DROP, stops the DMA rings and drops the frames
queued to port 64, counting them in HIF_RX_DROP. -/
def execPcieReset (ep : Nat) (kind : PcieReset) (st : State) : Host.Outcome State Fault Refusal :=
  within (below 2 ep) st (fun d => d.pcieReset ep kind |>.released)

/-- PCIE_ENDPOINT_READY, R708: After a PCIe reset, the endpoint's link trains and it accepts configuration requests again within the stated times. -/
def execPcieEndpointReady (ep : Nat) (link : PcieLink) (en : PcieEnables) (st : State) : Host.Outcome State Fault Refusal :=
  within (linkOk ep link.speed link.width) st (fun d => d.epReady ep link.speed link.width en.mem en.bus)

/-- BOOT_VERIFY_COMPLETE, R655: The boot ROM finishes verifying the vendor images; on success it writes them to all control stores, sets ROOT_DONE and
enters ENROL, and on failure it stays in ROOT with CODE set. -/
def execBootVerifyComplete (flash : FlashRead) (st : State) : Host.Outcome State Fault Refusal :=
  within (below 9 flash.images.length) st (fun d => d.bootDone flash)

/-- IMPRINT_SELF_TEST, R657: Imprint derivation and self-test complete in ENROL, setting ENROL_DONE, or CODE 0x04 on failure. -/
def execImprintSelfTest (st : State) : Host.Outcome State Fault Refusal :=
  within true st (fun d => d.imprint)

/-- MODE_REQUEST, R56: A GLB_MODE_REQ write with GO = 1 submits a mode transition, which the part accepts or refuses with a STATUS value in the order
of R57; `w.other` is a request over the other path in the same HCLK cycle (R58). -/
def execModeRequest (p : Path) (w : ModeWord) (st : State) : Host.Outcome State Fault Refusal :=
  within true st (fun d => d.modeWrites p w.v w.other)

/-- FLUSH, R77: A GLB_MODE_REQ write with FLUSH = 1 in DRAIN discards every queued frame and counts each one in GLB_FLUSH_CNT; in any other mode the
write is refused. -/
def execFlush (p : Path) (st : State) : Host.Outcome State Fault Refusal :=
  within true st (fun d => d.hostSet p R.GLB_MODE_REQ [] "FLUSH")

/-- DEFERRED_TRANSITION_START, R107: When forme STATE returns to IDLE, a transition that was accepted during the delivery starts after its
precondition is tested again. -/
def execDeferredTransitionStart (st : State) : Host.Outcome State Fault Refusal :=
  within true st (fun d => d.startDeferred)

/-- ENROL_TO_LOAD, R709: The transition from ENROL to LOAD completes on both dies and starts HBM training. -/
def execEnrolToLoad (st : State) : Host.Outcome State Fault Refusal :=
  within true st (fun d => d.toLoad)

/-- LOAD_TO_RUN, R71: The transition to RUN clears the tag blocks and hint caches, releases the transmitters, locks the RWL fields and opens
admission. -/
def execLoadToRun (st : State) : Host.Outcome State Fault Refusal :=
  within true st (fun d => d.loadToRun)

/-- LOAD_TO_PROOF, R709: The transition from LOAD to PROOF completes and makes the test functions available. -/
def execLoadToProof (st : State) : Host.Outcome State Fault Refusal :=
  within true st (fun d => d.loadToProof)

/-- PROOF_TO_LOAD, R83: The transition from PROOF to LOAD completes and discards the active forme. -/
def execProofToLoad (st : State) : Host.Outcome State Fault Refusal :=
  within true st (fun d => d.proofToLoad)

/-- RUN_TO_DRAIN, R73: Admission closes on every port and pipeline and, when PAUSE_EN = 1, PAUSE is sent on every port. -/
def execRunToDrain (st : State) : Host.Outcome State Fault Refusal :=
  within true st (fun d => d.runToDrain)

/-- DRAIN_TO_RUN, R78: Admission reopens while the order of each flow across the DRAIN is kept. -/
def execDrainToRun (st : State) : Host.Outcome State Fault Refusal :=
  within true st (fun d => d.drainToRun)

/-- DRAIN_TO_LOAD, R102: The part returns to LOAD, keeping the forme, the table contents and the HBM training values. -/
def execDrainToLoad (st : State) : Host.Outcome State Fault Refusal :=
  within true st (fun d => d.drainToLoad)

/-- DRAIN_TO_REST, R519: The HBM controllers empty their queues, precharge the banks, enter self-refresh and stop their clocks, and the engines are
suspended. -/
def execDrainToRest (st : State) : Host.Outcome State Fault Refusal :=
  within true st (fun d => d.drainToRest)

/-- REST_TO_RUN, R81: The part exits self-refresh, recentres the read eyes, powers the SerDes and opens admission, or aborts and stays in REST when
recentring fails. -/
def execRestToRun (eyeFail : Option Nat) (st : State) : Host.Outcome State Fault Refusal :=
  within ((match eyeFail with | some k => below 6 k | none => true)) st (fun d => d.restToRun eyeFail)

/-- DRAIN_COMPLETE, R75: DRAIN_DONE is set once every queue, wadi page, pending list and packet-role engine is empty. -/
def execDrainComplete (st : State) : Host.Outcome State Fault Refusal :=
  within true st (fun d => d.drainDone)

/-- DRAIN_TIMEOUT, R76: Expiry of TMO_MS in DRAIN with DRAIN_DONE = 0 sets DRAIN_STUCK and reports a package-level error event. -/
def execDrainTimeout (st : State) : Host.Outcome State Fault Refusal :=
  within true st (fun d => d.drainTimeout)

/-- DRAIN_PAUSE_RENEW, R73: During DRAIN with PAUSE_EN = 1, the part renews PAUSE on every port before the previous pause expires. -/
def execDrainPauseRenew (st : State) : Host.Outcome State Fault Refusal :=
  within true st (fun d => d.pauseRenew)

/-- HBM_TRAINING_COMPLETE, R516: Stack training passes on every stack and sets TRAIN_DONE. -/
def execHbmTrainingComplete (repaired : List LaneRepair) (st : State) : Host.Outcome State Fault Refusal :=
  within (repairsOk repaired) st (fun d => d.trained repaired)

/-- HBM_TRAINING_FAIL, R517: Training of a stack stops when a step fails or a lane group has more failed lanes than spares; MEM_TRAIN_STAT is recorded
and MEM_TRAIN is reported. -/
def execHbmTrainingFail (stack : Nat) (chan : TrainStop) (step : Nat) (code : Nat) (st : State) : Host.Outcome State Fault Refusal :=
  within (trainStopOk stack chan step code) st (fun d => d.trainFail stack chan step code)

/-- FORME_GO, R103: A GLB_FORME_CTL write with GO = 1 starts fetching a forme image, or is refused under R105 or R106. -/
def execFormeGo (p : Path) (v : Word) (st : State) : Host.Outcome State Fault Refusal :=
  within true st (fun d => d.hostWrite p (R.GLB_FORME_CTL.addr []) v)

/-- FORME_FETCH_COMPLETE, R101: The image is in the staging SRAM; the part checks FORMAT and MODE and, for a full forme, discards the active forme. -/
def execFormeFetchComplete (img : Option (List Byte)) (st : State) : Host.Outcome State Fault Refusal :=
  within ((match img with | some b => b.length == (st.dev.get R.GLB_FORME_LEN [] "LEN") | none => true)) st (fun d => d.formeFetched img |>.released)

/-- FORME_VERIFY_COMPLETE, R98: The digest, signature, root, SVN, directory and required sections are checked. -/
def execFormeVerifyComplete (st : State) : Host.Outcome State Fault Refusal :=
  within true st (fun d => d.formeVerified.released)

/-- FORME_VALIDATE_COMPLETE, R98: NOTRUN, BASE, capabilities, claims and capacities are checked for both dies, and a failure ends the delivery with
its cause. -/
def execFormeValidateComplete (st : State) : Host.Outcome State Fault Refusal :=
  within true st (fun d => d.formeValidated.released)

/-- FORME_QUIESCE_COMPLETE, R113: For an update with a CUCODE section, the customer area has quiesced and the part proceeds to the switch point. -/
def execFormeQuiesceComplete (st : State) : Host.Outcome State Fault Refusal :=
  within true st (fun d => d.formeQuiesced.released)

/-- FORME_QUIESCE_TIMEOUT, R113: When the customer area has not quiesced within QTMO_US, the held items are released under the old code and the
delivery ends with TIMEOUT. -/
def execFormeQuiesceTimeout (st : State) : Host.Outcome State Fault Refusal :=
  within true st (fun d => d.quiesceTimeout.released)

/-- UPDATE_SWITCH_POINT, R111: The sections of an update take effect together, and the counts, SVN and measurement log are updated. -/
def execUpdateSwitchPoint (st : State) : Host.Outcome State Fault Refusal :=
  within true st (fun d => d.formeSwitched.released)

/-- FORME_APPLY_COMPLETE, R101: A full forme is written to both dies, the tables are cleared and FORME_OK is set. -/
def execFormeApplyComplete (st : State) : Host.Outcome State Fault Refusal :=
  within true st (fun d => d.formeApplied.released)

/-- PATCH_GO, R384: A GLB_PATCH_CTL write with GO = 1 starts a vendor patch load, which is refused outside ENROL and LOAD or while a forme delivery is
in progress. -/
def execPatchGo (p : Path) (v : Word) (st : State) : Host.Outcome State Fault Refusal :=
  within true st (fun d => d.hostWrite p (R.GLB_PATCH_CTL.addr []) v)

/-- PATCH_LOAD_COMPLETE, R384: A verified patch resets every engine, is written to all clusters and sets KCS_PATCH_VER; a failed patch has no effect.
-/
def execPatchLoadComplete (img : Option (List Byte)) (st : State) : Host.Outcome State Fault Refusal :=
  within ((match img with | some b => b.length == (st.dev.get R.GLB_PATCH_LEN [] "LEN") | none => true)) st (fun d => d.patchLoaded img)

end Sys2Proof.Machine
end

