-- ==== Sys2Proof/Machine/ExecPorts.lean ====
section
/-! DEFINITION. The meanings of the commands of ports, links and lanes. -/

namespace Sys2Proof.Machine

/-- PORT_ADMIN_WRITE, R556: A MAC_PORT_CTL.ADMIN write starts or stops a port's transmitter and link hunt, and flushes at once on link down when ADMIN
= 0. -/
def execPortAdminWrite (p : Path) (port : Nat) (admin : Bool) (st : State) : Host.Outcome State Fault Refusal :=
  within (below 64 port) st (fun d => d.hostOp p R.MAC_PORT_CTL (macIx port) [("ADMIN", b2n admin)])

/-- LINK_LOCK_ACQUIRED, R536: Every lane of a port gains marker lock where used, block lock and deskew, and the port enters LOCKED. -/
def execLinkLockAcquired (port : Nat) (skew : Nat) (st : State) : Host.Outcome State Fault Refusal :=
  within (below 64 port) st (fun d => d.lockAcquired port skew)

/-- LINK_UP_DEBOUNCE_EXPIRE, R536: After UP_DB_MS in LOCKED the port enters UP, ends any hold and sets MAC_LINK_CHG. -/
def execLinkUpDebounceExpire (port : Nat) (st : State) : Host.Outcome State Fault Refusal :=
  within (below 64 port) st (fun d => if d.linkState port = 2 then d.enterUp port else d)

/-- LOSS_CONDITION, R537: A loss of signal, CDR lock, marker or block lock, or a received fault moves the port from UP to FAULT, or from LOCKED to
HUNT. -/
def execLossCondition (port : Nat) (lane : Nat) (loss : Loss) (st : State) : Host.Outcome State Fault Refusal :=
  within (below 64 port && decide (port ≤ lane) && below (port + modeLanes (st.dev.portMode port)) lane) st (fun d => d.lossAt port lane loss)

/-- LINK_DOWN_DECLARE, R536: DOWN_DB_US expires in FAULT; the link is declared down, the hold starts or a protection switch-over runs. -/
def execLinkDownDeclare (port : Nat) (st : State) : Host.Outcome State Fault Refusal :=
  within (below 64 port) st (fun d => if d.linkState port = 4 then d.declareDown port false else d)

/-- HOLD_EXPIRE, R555: The link-down hold expires, FLUSHED is set and the port's egress queues and VOQs are flushed. -/
def execHoldExpire (port : Nat) (st : State) : Host.Outcome State Fault Refusal :=
  within (below 64 port) st (fun d => d.holdExpire port)

/-- WTR_EXPIRE, R561: WORK has been UP for WTR_MS with REVERT = 1, and a revert is scheduled for PROT's next frame boundary. -/
def execWtrExpire (g : Nat) (n : Nat) (st : State) : Host.Outcome State Fault Refusal :=
  within (below 4 g && below 8 n) st (fun d => d.wtrExpire g n)

/-- PROTECTION_REVERT, R561: At PROT's frame boundary, its entries move to WORK and ACTIVE becomes 0. -/
def execProtectionRevert (g : Nat) (n : Nat) (st : State) : Host.Outcome State Fault Refusal :=
  within (below 4 g && below 8 n) st (fun d => d.protRevert g n)

/-- PROTECTION_GROUP_WRITE, R557: A MAC_PROT write that enables a group is checked and ACTIVE is set to 0. -/
def execProtectionGroupWrite (p : Path) (g : Nat) (n : Nat) (v : Word) (st : State) : Host.Outcome State Fault Refusal :=
  within (below 4 g && below 8 n) st (fun d => d.hostWrite p (R.MAC_PROT.addr [g / 2, g % 2, n]) v)

/-- INJ_BIT, R565: A W1S write of INJ_BIT inverts one transmitted bit of the lane. -/
def execInjBit (p : Path) (lane : Nat) (st : State) : Host.Outcome State Fault Refusal :=
  within (below 64 lane) st (fun d => d.hostSet p R.SDS_PRBS_CTL (macIx lane) "INJ_BIT")

/-- INJ_BURST, R565: A W1S write of INJ_BURST inverts BURST_LEN consecutive transmitted bits. -/
def execInjBurst (p : Path) (lane : Nat) (st : State) : Host.Outcome State Fault Refusal :=
  within (below 64 lane) st (fun d => d.hostSet p R.SDS_PRBS_CTL (macIx lane) "INJ_BURST")

/-- PRBS_CHECKER_LOCK, R564: The PRBS checker of a lane locks after 64 consecutive error-free bits and starts counting bits checked and bits in error.
-/
def execPrbsCheckerLock (lane : Nat) (st : State) : Host.Outcome State Fault Refusal :=
  within (below 64 lane) st (fun d => d.prbsLock lane)

/-- PRBS_CHECKER_LOSS, R564: The PRBS checker loses lock when 16 of 64 consecutive bits are in error and seeds itself again. -/
def execPrbsCheckerLoss (lane : Nat) (st : State) : Host.Outcome State Fault Refusal :=
  within (below 64 lane) st (fun d => d.prbsLoss lane)

/-- SDS_PLL_LOSS_OF_LOCK, R567: The transmit or receive PLL of a lane loses lock, raising an SDS_PLL class U error event. -/
def execSdsPllLossOfLock (lane : Nat) (tx : Bool) (st : State) : Host.Outcome State Fault Refusal :=
  within (below 64 lane) st (fun d => d.pllLoss lane tx)

end Sys2Proof.Machine
end

