-- ==== Sys2Proof/Machine/ExecSec.lean ====
section
/-! DEFINITION. The meanings of the commands of the security domain and trace. -/

namespace Sys2Proof.Machine

/-- PROG_OROOT, R666: SEC_OTP_CMD PROG_OROOT programs the next owner root slot after its authorisation is checked. -/
def execProgOroot (p : Path) (arg : Nat) (blob : Option (List Byte)) (st : State) : Host.Outcome State Fault Refusal :=
  within (below 256 arg) st (fun d => d.progWrite p arg blob)

/-- RAISE_OSVN, R665: SEC_OTP_CMD RAISE_OSVN raises the owner SVN floor. -/
def execRaiseOsvn (p : Path) (arg : Nat) (st : State) : Host.Outcome State Fault Refusal :=
  within (below 256 arg) st (fun d => d.hostOp p R.SEC_OTP_CMD [] [("OP", 2), ("ARG", arg)])

/-- RAISE_VSVN, R665: SEC_OTP_CMD RAISE_VSVN raises the vendor SVN floor. -/
def execRaiseVsvn (p : Path) (arg : Nat) (st : State) : Host.Outcome State Fault Refusal :=
  within (below 256 arg) st (fun d => d.hostOp p R.SEC_OTP_CMD [] [("OP", 3), ("ARG", arg)])

/-- ATTESTATION_START, R661: A SEC_ATT_CMD write with GO = 1 captures the attestation statement. -/
def execAttestationStart (p : Path) (st : State) : Host.Outcome State Fault Refusal :=
  within true st (fun d => d.hostOp p R.SEC_ATT_CMD [] [("GO", 1)])

/-- ATTESTATION_COMPLETE, R663: The signed statement is written to host memory by DMA and CODE is set. -/
def execAttestationComplete (dmaOk : Bool) (st : State) : Host.Outcome State Fault Refusal :=
  within true st (fun d => d.attComplete dmaOk)

/-- MONITOR_TRIP, R669: A voltage or clock monitor trips, ends the operation in progress, and sets MON until COLD. -/
def execMonitorTrip (st : State) : Host.Outcome State Fault Refusal :=
  within true st (fun d => d.monitor.released)

/-- MREG_LATCH_READ, R670: A read of SEC_MREG word 0 latches the other fifteen words. -/
def execMregLatchRead (p : Path) (st : State) : Host.Outcome State Fault Refusal :=
  within true st (fun d => d.hostRead p (R.SEC_MREG.addr [0]))

/-- TAP_BYPASS, R668: The TAP BYPASS instruction selects the bypass register. -/
def execTapBypass (st : State) : Host.Outcome State Fault Refusal :=
  within true st (fun d => d.tapBypass)

/-- TAP_SAMPLE_PRELOAD, R668: The TAP SAMPLE/PRELOAD instruction samples and preloads the boundary. -/
def execTapSamplePreload (bits : List Bool) (st : State) : Host.Outcome State Fault Refusal :=
  within true st (fun d => d.tapSample bits)

/-- TAP_EXTEST, R668: The TAP EXTEST instruction drives the boundary only while in COLD, and acts as BYPASS otherwise. -/
def execTapExtest (st : State) : Host.Outcome State Fault Refusal :=
  within true st (fun d => d.tapExtest)

/-- TRACE_CLEAR, R671: A write of TRC_CTL.CLR = 1 resets SEQ and clears the buffer. -/
def execTraceClear (p : Path) (d : Nat) (st : State) : Host.Outcome State Fault Refusal :=
  within (below 2 d) st (fun s => s.hostSet p R.TRC_CTL [d] "CLR")

/-- TRACE_ENABLE, R681: A write of TRC_CTL.EN = 1 clears STOPPED and resumes capture at the next SEQ. -/
def execTraceEnable (p : Path) (d : Nat) (v : Word) (st : State) : Host.Outcome State Fault Refusal :=
  within (below 2 d) st (fun s => s.hostWrite p (R.TRC_CTL.addr [d]) v)

/-- TRACE_MARK, R672: A TRC_MARK write stores a MARK record. -/
def execTraceMark (p : Path) (d : Nat) (v : Word) (st : State) : Host.Outcome State Fault Refusal :=
  within (below 2 d) st (fun s => s.hostWrite p (R.TRC_MARK.addr [d]) v)

/-- TRACE_STOP_COUNT_EXPIRE, R681: After POST records following a trigger, or once the buffer is full in stop mode, capture stops. -/
def execTraceStopCountExpire (d : Nat) (st : State) : Host.Outcome State Fault Refusal :=
  within (below 2 d) st (fun s => s.trcStop d)

/-- ENG_PC_SAMPLE, R679: Every 2^PER ECLK, ENG produces a micro-PC sample record for each selected engine. -/
def execEngPcSample (e : Nat) (st : State) : Host.Outcome State Fault Refusal :=
  within (below 96 e) st (fun d => d.pcSample e)

/-- TRACE_RECORD_LATCH, R682: A read of TRC_RD_DATA[0] latches the record at RD_IDX and advances RD_IDX. -/
def execTraceRecordLatch (p : Path) (d : Nat) (st : State) : Host.Outcome State Fault Refusal :=
  within (below 2 d) st (fun s => s.hostRead p (R.TRC_RD_DATA.addr [d, 0]))

end Sys2Proof.Machine
end

