-- ==== Sys2Proof/Machine/ExecTask.lean ====
section
/-! DEFINITION. The meanings of the commands of the task schedulers. -/

namespace Sys2Proof.Machine

/-- CREATE, R417: TSK_CMD CREATE creates a thread in a FREE slot from the staging registers and makes it READY. -/
def execTskCreate (p : Path) (d : Nat) (slot : Nat) (st : State) : Host.Outcome State Fault Refusal :=
  within (below 2 d && below 512 slot) st (fun s => s.hostOp p R.TSK_CMD [d] [("OP", 1), ("SLOT", slot)])

/-- KILL, R417: TSK_CMD KILL frees a READY, BLOCKED or FAULTED slot. -/
def execTskKill (p : Path) (d : Nat) (slot : Nat) (st : State) : Host.Outcome State Fault Refusal :=
  within (below 2 d && below 512 slot) st (fun s => s.hostOp p R.TSK_CMD [d] [("OP", 2), ("SLOT", slot)])

/-- REQUEUE, R417: TSK_CMD REQUEUE makes a FAULTED slot READY and restarts it at ENTRY. -/
def execTskRequeue (p : Path) (d : Nat) (slot : Nat) (st : State) : Host.Outcome State Fault Refusal :=
  within (below 2 d && below 512 slot) st (fun s => s.hostOp p R.TSK_CMD [d] [("OP", 3), ("SLOT", slot)])

/-- SETPRIO, R417: TSK_CMD SETPRIO changes a slot's priority and re-evaluates preemption. -/
def execTskSetprio (p : Path) (d : Nat) (slot : Nat) (st : State) : Host.Outcome State Fault Refusal :=
  within (below 2 d && below 512 slot) st (fun s => s.hostOp p R.TSK_CMD [d] [("OP", 4), ("SLOT", slot)])

/-- SLOT_TIMER_EXPIRE, R408: A slot timer expires, sets TIMER in the event word, and wakes or interrupts the thread. -/
def execSlotTimerExpire (d : Nat) (slot : Nat) (st : State) : Host.Outcome State Fault Refusal :=
  within (below 2 d && below 512 slot) st (fun s => s.slotTimer d slot)

/-- EVENT_LINE, R407: The rising edge of an event line's condition sets the bound bit of its slot. -/
def execEventLine (d : Nat) (line : Nat) (st : State) : Host.Outcome State Fault Refusal :=
  within (below 2 d && below 12 line) st (fun s => s.eventLine d line)

/-- SLOT_EVENT_WRITE, R406: A host W1S write of TSK_SLOT_EVT sets event bits of a slot. -/
def execSlotEventWrite (p : Path) (d : Nat) (slot : Nat) (v : Word) (st : State) : Host.Outcome State Fault Refusal :=
  within (below 2 d && below 512 slot) st (fun s => s.hostWrite p (R.TSK_SLOT_EVT.addr [d, slot]) v)

/-- WATCHDOG_BITE, R416: An engine's watchdog expires, resets the engine, marks its thread FAULTED and requeues it when REQUEUE is armed. -/
def execWatchdogBite (e : Nat) (st : State) : Host.Outcome State Fault Refusal :=
  within (below 96 e) st (fun d => d.watchdogBite e)

end Sys2Proof.Machine
end

