-- ==== Sys2Proof/Machine/ExecTime.lean ====
section
/-! DEFINITION. The meanings of the commands of the time base. -/

namespace Sys2Proof.Machine

/-- RATE, R576: TIM_CMD RATE stages a change of INC that keeps P(E) unchanged. -/
def execTimRate (p : Path) (st : State) : Host.Outcome State Fault Refusal :=
  within true st (fun d => d.hostOp p R.TIM_CMD [] [("OP", 1)])

/-- STEP, R576: TIM_CMD STEP stages an offset step by TIM_STEP_NS at E. -/
def execTimStep (p : Path) (st : State) : Host.Outcome State Fault Refusal :=
  within true st (fun d => d.hostOp p R.TIM_CMD [] [("OP", 2)])

/-- SET, R576: TIM_CMD SET stages setting presented time to the given value at E. -/
def execTimSet (p : Path) (st : State) : Host.Outcome State Fault Refusal :=
  within true st (fun d => d.hostOp p R.TIM_CMD [] [("OP", 3)])

/-- CANCEL, R576: TIM_CMD CANCEL discards a pending command whose epoch has not yet been reached. -/
def execTimCancel (p : Path) (st : State) : Host.Outcome State Fault Refusal :=
  within true st (fun d => d.hostOp p R.TIM_CMD [] [("OP", 4)])

/-- TIME_COMMAND_ARRIVE, R577: A time command reaches the TCLK domain and is tested for RANGE and LATE. -/
def execTimeCommandArrive (st : State) : Host.Outcome State Fault Refusal :=
  within true st (fun d => d.timArrive)

/-- TIME_EPOCH_REACHED, R579: At raw count E the new time parameters take effect, and gates and timers follow any step. -/
def execTimeEpochReached (st : State) : Host.Outcome State Fault Refusal :=
  within true st (fun d => d.epochReached)

/-- REF_LOST, R575: With no reference edge for 1 us, REF_LOST and HOLDOVER are set and TIM_REF is reported. -/
def execRefLost (st : State) : Host.Outcome State Fault Refusal :=
  within true st (fun d => d.refLost)

/-- REF_RELOCK, R575: The returned reference is relocked by frequency only and HOLDOVER clears. -/
def execRefRelock (st : State) : Host.Outcome State Fault Refusal :=
  within true st (fun d => d.refRelock)

/-- EVENT_TIMER_FIRE, R587: An event timer fires, driving its event line, its claiming sections and any PER_OUT pin. -/
def execEventTimerFire (d : Nat) (n : Nat) (st : State) : Host.Outcome State Fault Refusal :=
  within (below 2 d && below 8 n) st (fun s => s.timerFire d n)

/-- PPS_OUTPUT, R592: A PPS_OUT pin asserts at each whole second of presented time. -/
def execPpsOutput (k : Nat) (st : State) : Host.Outcome State Fault Refusal :=
  within (below 4 k) st (fun d => d.pps k)

/-- OUTPUT_PULSE_END, R592: A PPS_OUT or PER_OUT pulse deasserts after WIDTH_NS. -/
def execOutputPulseEnd (k : Nat) (st : State) : Host.Outcome State Fault Refusal :=
  within (below 4 k) st (fun d => d.pulseEnd k)

/-- TRIGGER_CAPTURE, R592: A selected edge on a TRIG_IN pin captures presented time, setting OVR when the previous capture was unread. -/
def execTriggerCapture (k : Nat) (st : State) : Host.Outcome State Fault Refusal :=
  within (below 4 k) st (fun d => d.trigCapture k)

/-- TIME_CAPTURE_READ, R593: A read of TIM_NOW_NS captures P and the raw count for the path's following reads. -/
def execTimeCaptureRead (p : Path) (d : Nat) (st : State) : Host.Outcome State Fault Refusal :=
  within (below 2 d) st (fun s => s.hostRead p (R.TIM_NOW_NS.addr [d]))

/-- TRIGGER_READ, R593: A read of TIM_TRIG_NS latches the rest of the capture. -/
def execTriggerRead (p : Path) (k : Nat) (st : State) : Host.Outcome State Fault Refusal :=
  within (below 4 k) st (fun d => d.hostRead p (R.TIM_TRIG_NS.addr [k]))

/-- STAMP_ENTRY, R584: A stamped frame's entry enters its region's stamp queue, or is dropped and counted when the queue is full. -/
def execStampEntry (g : Nat) (raw : Nat) (st : State) : Host.Outcome State Fault Refusal :=
  within (below 4 g && below (2 ^ 64) raw) st (fun d => d.stampEnter g raw)

/-- STAMP_QUEUE_POP, R593: A read of TIM_TSQ word 0 pops the oldest stamp entry and latches its time. -/
def execStampQueuePop (p : Path) (g : Nat) (st : State) : Host.Outcome State Fault Refusal :=
  within (below 4 g) st (fun d => d.hostRead p (R.TIM_TSQ_W0.addr [g / 2, g % 2]))

end Sys2Proof.Machine
end

