-- ==== Sys2Proof/Machine/Dispatch.lean ====
section
/-! DEFINITION. The dispatch: one arm per command, one direct call of its meaning. -/

namespace Sys2Proof.Machine

/-- The effect of a command on everything but the queue. -/
def exec (i : Instr) (s : State) : Host.Outcome State Fault Refusal :=
  match i with
  | .powerOnReset refSel => Sys2Proof.Machine.execPowerOnReset refSel s
  | .pinReset refSel => Sys2Proof.Machine.execPinReset refSel s
  | .hostPackageReset p v => Sys2Proof.Machine.execHostPackageReset p v s
  | .railUndervoltage => Sys2Proof.Machine.execRailUndervoltage s
  | .railRecovered refSel => Sys2Proof.Machine.execRailRecovered refSel s
  | .dieSensorSample t0 t1 => Sys2Proof.Machine.execDieSensorSample t0 t1 s
  | .pcieReset ep kind => Sys2Proof.Machine.execPcieReset ep kind s
  | .pcieEndpointReady ep link en => Sys2Proof.Machine.execPcieEndpointReady ep link en s
  | .bootVerifyComplete flash => Sys2Proof.Machine.execBootVerifyComplete flash s
  | .imprintSelfTest => Sys2Proof.Machine.execImprintSelfTest s
  | .modeRequest p w => Sys2Proof.Machine.execModeRequest p w s
  | .flush p => Sys2Proof.Machine.execFlush p s
  | .deferredTransitionStart => Sys2Proof.Machine.execDeferredTransitionStart s
  | .enrolToLoad => Sys2Proof.Machine.execEnrolToLoad s
  | .loadToRun => Sys2Proof.Machine.execLoadToRun s
  | .loadToProof => Sys2Proof.Machine.execLoadToProof s
  | .proofToLoad => Sys2Proof.Machine.execProofToLoad s
  | .runToDrain => Sys2Proof.Machine.execRunToDrain s
  | .drainToRun => Sys2Proof.Machine.execDrainToRun s
  | .drainToLoad => Sys2Proof.Machine.execDrainToLoad s
  | .drainToRest => Sys2Proof.Machine.execDrainToRest s
  | .restToRun eyeFail => Sys2Proof.Machine.execRestToRun eyeFail s
  | .drainComplete => Sys2Proof.Machine.execDrainComplete s
  | .drainTimeout => Sys2Proof.Machine.execDrainTimeout s
  | .drainPauseRenew => Sys2Proof.Machine.execDrainPauseRenew s
  | .hbmTrainingComplete repaired => Sys2Proof.Machine.execHbmTrainingComplete repaired s
  | .hbmTrainingFail stack chan step code => Sys2Proof.Machine.execHbmTrainingFail stack chan step code s
  | .formeGo p v => Sys2Proof.Machine.execFormeGo p v s
  | .formeFetchComplete img => Sys2Proof.Machine.execFormeFetchComplete img s
  | .formeVerifyComplete => Sys2Proof.Machine.execFormeVerifyComplete s
  | .formeValidateComplete => Sys2Proof.Machine.execFormeValidateComplete s
  | .formeQuiesceComplete => Sys2Proof.Machine.execFormeQuiesceComplete s
  | .formeQuiesceTimeout => Sys2Proof.Machine.execFormeQuiesceTimeout s
  | .updateSwitchPoint => Sys2Proof.Machine.execUpdateSwitchPoint s
  | .formeApplyComplete => Sys2Proof.Machine.execFormeApplyComplete s
  | .patchGo p v => Sys2Proof.Machine.execPatchGo p v s
  | .patchLoadComplete img => Sys2Proof.Machine.execPatchLoadComplete img s
  | .frameReceive port bytes room => Sys2Proof.Machine.execFrameReceive port bytes room s
  | .parseComplete pkt => Sys2Proof.Machine.execParseComplete pkt s
  | .descriptorReceive d => Sys2Proof.Machine.execDescriptorReceive d s
  | .patternResultReady pkt => Sys2Proof.Machine.execPatternResultReady pkt s
  | .recordReturn pkt => Sys2Proof.Machine.execRecordReturn pkt s
  | .replayEnd pkt => Sys2Proof.Machine.execReplayEnd pkt s
  | .verdictReceive d => Sys2Proof.Machine.execVerdictReceive d s
  | .recirculate g => Sys2Proof.Machine.execRecirculate g s
  | .fastInsertComplete pkt => Sys2Proof.Machine.execFastInsertComplete pkt s
  | .setupTimeout d index => Sys2Proof.Machine.execSetupTimeout d index s
  | .sweepVisit raddr => Sys2Proof.Machine.execSweepVisit raddr s
  | .exportWalkVisit raddr => Sys2Proof.Machine.execExportWalkVisit raddr s
  | .auuWb raddr => Sys2Proof.Machine.execAuuWb raddr s
  | .auuAdd raddr => Sys2Proof.Machine.execAuuAdd raddr s
  | .auuStamp raddr => Sys2Proof.Machine.execAuuStamp raddr s
  | .auuCset raddr => Sys2Proof.Machine.execAuuCset raddr s
  | .auuCdel raddr => Sys2Proof.Machine.execAuuCdel raddr s
  | .auuCwrite raddr => Sys2Proof.Machine.execAuuCwrite raddr s
  | .auuFset raddr bit => Sys2Proof.Machine.execAuuFset raddr bit s
  | .auuFclr raddr bit => Sys2Proof.Machine.execAuuFclr raddr bit s
  | .flowLookup p d => Sys2Proof.Machine.execFlowLookup p d s
  | .flowDelete p d => Sys2Proof.Machine.execFlowDelete p d s
  | .flowInsert p d => Sys2Proof.Machine.execFlowInsert p d s
  | .hintInvalidate p d v => Sys2Proof.Machine.execHintInvalidate p d v s
  | .hintInvalidateComplete d => Sys2Proof.Machine.execHintInvalidateComplete d s
  | .quoinGrant raddr => Sys2Proof.Machine.execQuoinGrant raddr s
  | .quoinWaitTimeout e => Sys2Proof.Machine.execQuoinWaitTimeout e s
  | .quoinSweepVisit raddr => Sys2Proof.Machine.execQuoinSweepVisit raddr s
  | .tornLogPop p d => Sys2Proof.Machine.execTornLogPop p d s
  | .tornRead p d => Sys2Proof.Machine.execTornRead p d s
  | .tornRestore p d => Sys2Proof.Machine.execTornRestore p d s
  | .tornEmpty p d => Sys2Proof.Machine.execTornEmpty p d s
  | .kAdd e => Sys2Proof.Machine.execKAdd e s
  | .kSub e => Sys2Proof.Machine.execKSub e s
  | .kAnd e => Sys2Proof.Machine.execKAnd e s
  | .kOr e => Sys2Proof.Machine.execKOr e s
  | .kXor e => Sys2Proof.Machine.execKXor e s
  | .kShl e => Sys2Proof.Machine.execKShl e s
  | .kShr e => Sys2Proof.Machine.execKShr e s
  | .kSar e => Sys2Proof.Machine.execKSar e s
  | .kRor e => Sys2Proof.Machine.execKRor e s
  | .kMov e => Sys2Proof.Machine.execKMov e s
  | .kMovhi e => Sys2Proof.Machine.execKMovhi e s
  | .kExtr e => Sys2Proof.Machine.execKExtr e s
  | .kInsr e => Sys2Proof.Machine.execKInsr e s
  | .kCmpeq e => Sys2Proof.Machine.execKCmpeq e s
  | .kCmpltu e => Sys2Proof.Machine.execKCmpltu e s
  | .kCmplts e => Sys2Proof.Machine.execKCmplts e s
  | .kMinu e => Sys2Proof.Machine.execKMinu e s
  | .kMaxu e => Sys2Proof.Machine.execKMaxu e s
  | .kMul e => Sys2Proof.Machine.execKMul e s
  | .kMulhu e => Sys2Proof.Machine.execKMulhu e s
  | .kPopc e => Sys2Proof.Machine.execKPopc e s
  | .kClz e => Sys2Proof.Machine.execKClz e s
  | .kBswap e => Sys2Proof.Machine.execKBswap e s
  | .kCrc64 e => Sys2Proof.Machine.execKCrc64 e s
  | .kCrc32c e => Sys2Proof.Machine.execKCrc32c e s
  | .kLdl e => Sys2Proof.Machine.execKLdl e s
  | .kStl e => Sys2Proof.Machine.execKStl e s
  | .kLds e => Sys2Proof.Machine.execKLds e s
  | .kSts e => Sys2Proof.Machine.execKSts e s
  | .kCass e => Sys2Proof.Machine.execKCass e s
  | .kFadds e => Sys2Proof.Machine.execKFadds e s
  | .kLdh e => Sys2Proof.Machine.execKLdh e s
  | .kSth e => Sys2Proof.Machine.execKSth e s
  | .kQacq e => Sys2Proof.Machine.execKQacq e s
  | .kQtry e => Sys2Proof.Machine.execKQtry e s
  | .kQread e => Sys2Proof.Machine.execKQread e s
  | .kQwrite e => Sys2Proof.Machine.execKQwrite e s
  | .kQrel e => Sys2Proof.Machine.execKQrel e s
  | .kRadd e => Sys2Proof.Machine.execKRadd e s
  | .kRstamp e => Sys2Proof.Machine.execKRstamp e s
  | .kRlook e => Sys2Proof.Machine.execKRlook e s
  | .kRins e => Sys2Proof.Machine.execKRins e s
  | .kRdel e => Sys2Proof.Machine.execKRdel e s
  | .kLdt e => Sys2Proof.Machine.execKLdt e s
  | .kLdpkt e => Sys2Proof.Machine.execKLdpkt e s
  | .kPktsend e => Sys2Proof.Machine.execKPktsend e s
  | .kPmcrd e => Sys2Proof.Machine.execKPmcrd e s
  | .kJmp e => Sys2Proof.Machine.execKJmp e s
  | .kBr e => Sys2Proof.Machine.execKBr e s
  | .kBbs e => Sys2Proof.Machine.execKBbs e s
  | .kBbc e => Sys2Proof.Machine.execKBbc e s
  | .kCall e => Sys2Proof.Machine.execKCall e s
  | .kRet e => Sys2Proof.Machine.execKRet e s
  | .kJmpr e => Sys2Proof.Machine.execKJmpr e s
  | .kDcall e => Sys2Proof.Machine.execKDcall e s
  | .kAtom e => Sys2Proof.Machine.execKAtom e s
  | .kEndatom e => Sys2Proof.Machine.execKEndatom e s
  | .kWait e => Sys2Proof.Machine.execKWait e s
  | .kYield e => Sys2Proof.Machine.execKYield e s
  | .kDone e => Sys2Proof.Machine.execKDone e s
  | .kIret e => Sys2Proof.Machine.execKIret e s
  | .kFault e => Sys2Proof.Machine.execKFault e s
  | .memoryResultReturn e => Sys2Proof.Machine.execMemoryResultReturn e s
  | .engineInterrupt e => Sys2Proof.Machine.execEngineInterrupt e s
  | .hostInterruptRaise p e => Sys2Proof.Machine.execHostInterruptRaise p e s
  | .atomicWindowLimit e => Sys2Proof.Machine.execAtomicWindowLimit e s
  | .workItemTake e => Sys2Proof.Machine.execWorkItemTake e s
  | .engineResetWrite p e => Sys2Proof.Machine.execEngineResetWrite p e s
  | .roleWrite p e role => Sys2Proof.Machine.execRoleWrite p e role s
  | .roleSwitch e => Sys2Proof.Machine.execRoleSwitch e s
  | .clusterBusGrant k req beats => Sys2Proof.Machine.execClusterBusGrant k req beats s
  | .scratchApertureAccess p k off wr => Sys2Proof.Machine.execScratchApertureAccess p k off wr s
  | .apertureTimeout p k off wr => Sys2Proof.Machine.execApertureTimeout p k off wr s
  | .pmcEvselWrite p k n v => Sys2Proof.Machine.execPmcEvselWrite p k n v s
  | .tskCreate p d slot => Sys2Proof.Machine.execTskCreate p d slot s
  | .tskKill p d slot => Sys2Proof.Machine.execTskKill p d slot s
  | .tskRequeue p d slot => Sys2Proof.Machine.execTskRequeue p d slot s
  | .tskSetprio p d slot => Sys2Proof.Machine.execTskSetprio p d slot s
  | .slotTimerExpire d slot => Sys2Proof.Machine.execSlotTimerExpire d slot s
  | .eventLine d line => Sys2Proof.Machine.execEventLine d line s
  | .slotEventWrite p d slot v => Sys2Proof.Machine.execSlotEventWrite p d slot v s
  | .watchdogBite e => Sys2Proof.Machine.execWatchdogBite e s
  | .fabricSlotMatch => Sys2Proof.Machine.execFabricSlotMatch s
  | .fabricTransferComplete g eg dataErr => Sys2Proof.Machine.execFabricTransferComplete g eg dataErr s
  | .reseqTimeout eg => Sys2Proof.Machine.execReseqTimeout eg s
  | .spillPageWrite g voq dataErr => Sys2Proof.Machine.execSpillPageWrite g voq dataErr s
  | .wadiRefill g voq => Sys2Proof.Machine.execWadiRefill g voq s
  | .wadiPageReturn g voq fail => Sys2Proof.Machine.execWadiPageReturn g voq fail s
  | .frameTransmitComplete port dataErr => Sys2Proof.Machine.execFrameTransmitComplete port dataErr s
  | .shaperRefill port cls => Sys2Proof.Machine.execShaperRefill port cls s
  | .pauseExpire port cls => Sys2Proof.Machine.execPauseExpire port cls s
  | .pfcRenew port => Sys2Proof.Machine.execPfcRenew port s
  | .gateChangeRequest p port v => Sys2Proof.Machine.execGateChangeRequest p port v s
  | .gateConfigChange port => Sys2Proof.Machine.execGateConfigChange port s
  | .gateEntryChange port => Sys2Proof.Machine.execGateEntryChange port s
  | .recoveryResetTimeout g r => Sys2Proof.Machine.execRecoveryResetTimeout g r s
  | .ledPeriodEnd g r => Sys2Proof.Machine.execLedPeriodEnd g r s
  | .hbmReadComplete rd => Sys2Proof.Machine.execHbmReadComplete rd s
  | .panicRaise pc arr => Sys2Proof.Machine.execPanicRaise pc arr s
  | .refreshDue ch u bank => Sys2Proof.Machine.execRefreshDue ch u bank s
  | .stackTempReading stack t => Sys2Proof.Machine.execStackTempReading stack t s
  | .readEyeRecentre stack edge => Sys2Proof.Machine.execReadEyeRecentre stack edge s
  | .portAdminWrite p port admin => Sys2Proof.Machine.execPortAdminWrite p port admin s
  | .linkLockAcquired port skew => Sys2Proof.Machine.execLinkLockAcquired port skew s
  | .linkUpDebounceExpire port => Sys2Proof.Machine.execLinkUpDebounceExpire port s
  | .lossCondition port lane loss => Sys2Proof.Machine.execLossCondition port lane loss s
  | .linkDownDeclare port => Sys2Proof.Machine.execLinkDownDeclare port s
  | .holdExpire port => Sys2Proof.Machine.execHoldExpire port s
  | .wtrExpire g n => Sys2Proof.Machine.execWtrExpire g n s
  | .protectionRevert g n => Sys2Proof.Machine.execProtectionRevert g n s
  | .protectionGroupWrite p g n v => Sys2Proof.Machine.execProtectionGroupWrite p g n v s
  | .injBit p lane => Sys2Proof.Machine.execInjBit p lane s
  | .injBurst p lane => Sys2Proof.Machine.execInjBurst p lane s
  | .timRate p => Sys2Proof.Machine.execTimRate p s
  | .timStep p => Sys2Proof.Machine.execTimStep p s
  | .timSet p => Sys2Proof.Machine.execTimSet p s
  | .timCancel p => Sys2Proof.Machine.execTimCancel p s
  | .timeCommandArrive => Sys2Proof.Machine.execTimeCommandArrive s
  | .timeEpochReached => Sys2Proof.Machine.execTimeEpochReached s
  | .refLost => Sys2Proof.Machine.execRefLost s
  | .refRelock => Sys2Proof.Machine.execRefRelock s
  | .eventTimerFire d n => Sys2Proof.Machine.execEventTimerFire d n s
  | .ppsOutput k => Sys2Proof.Machine.execPpsOutput k s
  | .outputPulseEnd k => Sys2Proof.Machine.execOutputPulseEnd k s
  | .triggerCapture k => Sys2Proof.Machine.execTriggerCapture k s
  | .timeCaptureRead p d => Sys2Proof.Machine.execTimeCaptureRead p d s
  | .triggerRead p k => Sys2Proof.Machine.execTriggerRead p k s
  | .stampEntry g raw => Sys2Proof.Machine.execStampEntry g raw s
  | .stampQueuePop p g => Sys2Proof.Machine.execStampQueuePop p g s
  | .errorRecord ev => Sys2Proof.Machine.execErrorRecord ev s
  | .injectionArm p d v => Sys2Proof.Machine.execInjectionArm p d v s
  | .injectionCancel p d => Sys2Proof.Machine.execInjectionCancel p d s
  | .quiesceWrite p d v => Sys2Proof.Machine.execQuiesceWrite p d v s
  | .divRelease p d => Sys2Proof.Machine.execDivRelease p d s
  | .divPurge p d => Sys2Proof.Machine.execDivPurge p d s
  | .tcamWrite p g prof e => Sys2Proof.Machine.execTcamWrite p g prof e s
  | .tcamInvalidate p g prof index => Sys2Proof.Machine.execTcamInvalidate p g prof index s
  | .tcamRead p g prof index => Sys2Proof.Machine.execTcamRead p g prof index s
  | .tcamReadArray p g prof index => Sys2Proof.Machine.execTcamReadArray p g prof index s
  | .tcamScrubVisit g block row => Sys2Proof.Machine.execTcamScrubVisit g block row s
  | .exLookup p g table => Sys2Proof.Machine.execExLookup p g table s
  | .exInsert p g table => Sys2Proof.Machine.execExInsert p g table s
  | .exDelete p g table => Sys2Proof.Machine.execExDelete p g table s
  | .exReplace p g table => Sys2Proof.Machine.execExReplace p g table s
  | .dirWrite p g table index => Sys2Proof.Machine.execDirWrite p g table index s
  | .dirRead p g table index => Sys2Proof.Machine.execDirRead p g table index s
  | .counterSnapshot p g v => Sys2Proof.Machine.execCounterSnapshot p g v s
  | .l2LearnApply d => Sys2Proof.Machine.execL2LearnApply d s
  | .l2SweepVisit d index => Sys2Proof.Machine.execL2SweepVisit d index s
  | .l2Lookup p d => Sys2Proof.Machine.execL2Lookup p d s
  | .l2Insert p d => Sys2Proof.Machine.execL2Insert p d s
  | .l2Delete p d => Sys2Proof.Machine.execL2Delete p d s
  | .l2Flush p d fidm => Sys2Proof.Machine.execL2Flush p d fidm s
  | .actWrite p d index => Sys2Proof.Machine.execActWrite p d index s
  | .actRead p d index => Sys2Proof.Machine.execActRead p d index s
  | .cpEntWrite p d z w v => Sys2Proof.Machine.execCpEntWrite p d z w v s
  | .balGwrite p d => Sys2Proof.Machine.execBalGwrite p d s
  | .balGread p d => Sys2Proof.Machine.execBalGread p d s
  | .balMwrite p d => Sys2Proof.Machine.execBalMwrite p d s
  | .balMread p d => Sys2Proof.Machine.execBalMread p d s
  | .balLwrite p d => Sys2Proof.Machine.execBalLwrite p d s
  | .balLread p d => Sys2Proof.Machine.execBalLread p d s
  | .txDoorbell p t v => Sys2Proof.Machine.execTxDoorbell p t v s
  | .txDescriptorProcess t desc frame => Sys2Proof.Machine.execTxDescriptorProcess t desc frame s
  | .txStallRetry t => Sys2Proof.Machine.execTxStallRetry t s
  | .rxDoorbell p d t v => Sys2Proof.Machine.execRxDoorbell p d t v s
  | .rxFrameDeliver d c desc => Sys2Proof.Machine.execRxFrameDeliver d c desc s
  | .excEnWrite p en => Sys2Proof.Machine.execExcEnWrite p en s
  | .msixUnmask ep vec => Sys2Proof.Machine.execMsixUnmask ep vec s
  | .galleyFrameForward down frame => Sys2Proof.Machine.execGalleyFrameForward down frame s
  | .galleyEnum down frame => Sys2Proof.Machine.execGalleyEnum down frame s
  | .galleyIdent down frame => Sys2Proof.Machine.execGalleyIdent down frame s
  | .galleyStatus down frame => Sys2Proof.Machine.execGalleyStatus down frame s
  | .galleyRd down frame => Sys2Proof.Machine.execGalleyRd down frame s
  | .galleyWr down frame => Sys2Proof.Machine.execGalleyWr down frame s
  | .galleyReset down frame => Sys2Proof.Machine.execGalleyReset down frame s
  | .galleyTime down frame => Sys2Proof.Machine.execGalleyTime down frame s
  | .galleyErrlog down frame => Sys2Proof.Machine.execGalleyErrlog down frame s
  | .galleyLossOfSignal down => Sys2Proof.Machine.execGalleyLossOfSignal down s
  | .galleyAttach down => Sys2Proof.Machine.execGalleyAttach down s
  | .galleyAlertSend => Sys2Proof.Machine.execGalleyAlertSend s
  | .galleyCredLock p => Sys2Proof.Machine.execGalleyCredLock p s
  | .progOroot p arg blob => Sys2Proof.Machine.execProgOroot p arg blob s
  | .raiseOsvn p arg => Sys2Proof.Machine.execRaiseOsvn p arg s
  | .raiseVsvn p arg => Sys2Proof.Machine.execRaiseVsvn p arg s
  | .attestationStart p => Sys2Proof.Machine.execAttestationStart p s
  | .attestationComplete dmaOk => Sys2Proof.Machine.execAttestationComplete dmaOk s
  | .monitorTrip => Sys2Proof.Machine.execMonitorTrip s
  | .mregLatchRead p => Sys2Proof.Machine.execMregLatchRead p s
  | .tapBypass => Sys2Proof.Machine.execTapBypass s
  | .tapSamplePreload bits => Sys2Proof.Machine.execTapSamplePreload bits s
  | .tapExtest => Sys2Proof.Machine.execTapExtest s
  | .traceClear p d => Sys2Proof.Machine.execTraceClear p d s
  | .traceEnable p d v => Sys2Proof.Machine.execTraceEnable p d v s
  | .traceMark p d v => Sys2Proof.Machine.execTraceMark p d v s
  | .traceStopCountExpire d => Sys2Proof.Machine.execTraceStopCountExpire d s
  | .engPcSample e => Sys2Proof.Machine.execEngPcSample e s
  | .traceRecordLatch p d => Sys2Proof.Machine.execTraceRecordLatch p d s
  | .clearingRead p off inc => Sys2Proof.Machine.execClearingRead p off inc s
  | .wideLowWordRead p off => Sys2Proof.Machine.execWideLowWordRead p off s
  | .registerWrite p off v hw => Sys2Proof.Machine.execRegisterWrite p off v hw s
  | .hostAccessErrorRead p off => Sys2Proof.Machine.execHostAccessErrorRead p off s
  | .prbsCheckerLock lane => Sys2Proof.Machine.execPrbsCheckerLock lane s
  | .prbsCheckerLoss lane => Sys2Proof.Machine.execPrbsCheckerLoss lane s
  | .sdsPllLossOfLock lane tx => Sys2Proof.Machine.execSdsPllLossOfLock lane tx s
  | .pcieLinkDown ep => Sys2Proof.Machine.execPcieLinkDown ep s
  | .pcieLinkUp ep speed width => Sys2Proof.Machine.execPcieLinkUp ep speed width s

end Sys2Proof.Machine
end

