-- ==== Sys2Proof/WellFormed.lean ====
section
/-! DEFINITION. Well-formed commands: the operands name units that the part has. What depends on the state of the part is the meaning's to ask. -/

namespace Sys2Proof

open Sys2Proof.Machine

/-- The operands of a command name units of the part, and their values fit the fields they stand for. -/
def Instr.wf (c : Instr) : Bool :=
  match c with
  | .powerOnReset _ => true
  | .pinReset _ => true
  | .hostPackageReset _ _ => true
  | .railUndervoltage => true
  | .railRecovered _ => true
  | .dieSensorSample t0 t1 => decide (-128 ≤ t0) && decide (t0 ≤ 127) && decide (-128 ≤ t1) && decide (t1 ≤ 127)
  | .pcieReset ep _ => below 2 ep
  | .pcieEndpointReady ep link _ => linkOk ep link.speed link.width
  | .bootVerifyComplete flash => below 9 flash.images.length
  | .imprintSelfTest => true
  | .modeRequest _ _ => true
  | .flush _ => true
  | .deferredTransitionStart => true
  | .enrolToLoad => true
  | .loadToRun => true
  | .loadToProof => true
  | .proofToLoad => true
  | .runToDrain => true
  | .drainToRun => true
  | .drainToLoad => true
  | .drainToRest => true
  | .restToRun eyeFail => (match eyeFail with | some k => below 6 k | none => true)
  | .drainComplete => true
  | .drainTimeout => true
  | .drainPauseRenew => true
  | .hbmTrainingComplete repaired => repairsOk repaired
  | .hbmTrainingFail stack chan step code => trainStopOk stack chan step code
  | .formeGo _ _ => true
  | .formeFetchComplete img => (match img with | some b => below (2 ^ 32) b.length | none => true)
  | .formeVerifyComplete => true
  | .formeValidateComplete => true
  | .formeQuiesceComplete => true
  | .formeQuiesceTimeout => true
  | .updateSwitchPoint => true
  | .formeApplyComplete => true
  | .patchGo _ _ => true
  | .patchLoadComplete img => (match img with | some b => below (2 ^ 32) b.length | none => true)
  | .frameReceive port _ _ => below 64 port
  | .parseComplete _ => true
  | .descriptorReceive d => below 2 d
  | .patternResultReady _ => true
  | .recordReturn _ => true
  | .replayEnd _ => true
  | .verdictReceive d => below 2 d
  | .recirculate g => below 4 g
  | .fastInsertComplete _ => true
  | .setupTimeout d _ => below 2 d
  | .sweepVisit raddr => raOk raddr
  | .exportWalkVisit raddr => raOk raddr
  | .auuWb raddr => raOk raddr
  | .auuAdd raddr => raOk raddr
  | .auuStamp raddr => raOk raddr
  | .auuCset raddr => raOk raddr
  | .auuCdel raddr => raOk raddr
  | .auuCwrite raddr => raOk raddr
  | .auuFset raddr bit => raOk raddr && below 8 bit
  | .auuFclr raddr bit => raOk raddr && below 8 bit
  | .flowLookup _ d => below 2 d
  | .flowDelete _ d => below 2 d
  | .flowInsert _ d => below 2 d
  | .hintInvalidate _ d _ => below 2 d
  | .hintInvalidateComplete d => below 2 d
  | .quoinGrant raddr => raOk raddr
  | .quoinWaitTimeout e => below 96 e
  | .quoinSweepVisit raddr => raOk raddr
  | .tornLogPop _ d => below 2 d
  | .tornRead _ d => below 2 d
  | .tornRestore _ d => below 2 d
  | .tornEmpty _ d => below 2 d
  | .kAdd e => below 96 e
  | .kSub e => below 96 e
  | .kAnd e => below 96 e
  | .kOr e => below 96 e
  | .kXor e => below 96 e
  | .kShl e => below 96 e
  | .kShr e => below 96 e
  | .kSar e => below 96 e
  | .kRor e => below 96 e
  | .kMov e => below 96 e
  | .kMovhi e => below 96 e
  | .kExtr e => below 96 e
  | .kInsr e => below 96 e
  | .kCmpeq e => below 96 e
  | .kCmpltu e => below 96 e
  | .kCmplts e => below 96 e
  | .kMinu e => below 96 e
  | .kMaxu e => below 96 e
  | .kMul e => below 96 e
  | .kMulhu e => below 96 e
  | .kPopc e => below 96 e
  | .kClz e => below 96 e
  | .kBswap e => below 96 e
  | .kCrc64 e => below 96 e
  | .kCrc32c e => below 96 e
  | .kLdl e => below 96 e
  | .kStl e => below 96 e
  | .kLds e => below 96 e
  | .kSts e => below 96 e
  | .kCass e => below 96 e
  | .kFadds e => below 96 e
  | .kLdh e => below 96 e
  | .kSth e => below 96 e
  | .kQacq e => below 96 e
  | .kQtry e => below 96 e
  | .kQread e => below 96 e
  | .kQwrite e => below 96 e
  | .kQrel e => below 96 e
  | .kRadd e => below 96 e
  | .kRstamp e => below 96 e
  | .kRlook e => below 96 e
  | .kRins e => below 96 e
  | .kRdel e => below 96 e
  | .kLdt e => below 96 e
  | .kLdpkt e => below 96 e
  | .kPktsend e => below 96 e
  | .kPmcrd e => below 96 e
  | .kJmp e => below 96 e
  | .kBr e => below 96 e
  | .kBbs e => below 96 e
  | .kBbc e => below 96 e
  | .kCall e => below 96 e
  | .kRet e => below 96 e
  | .kJmpr e => below 96 e
  | .kDcall e => below 96 e
  | .kAtom e => below 96 e
  | .kEndatom e => below 96 e
  | .kWait e => below 96 e
  | .kYield e => below 96 e
  | .kDone e => below 96 e
  | .kIret e => below 96 e
  | .kFault e => below 96 e
  | .memoryResultReturn e => below 96 e
  | .engineInterrupt e => below 96 e
  | .hostInterruptRaise _ e => below 96 e
  | .atomicWindowLimit e => below 96 e
  | .workItemTake e => below 96 e
  | .engineResetWrite _ e => below 96 e
  | .roleWrite _ e _ => below 96 e
  | .roleSwitch e => below 96 e
  | .clusterBusGrant k req beats => below 12 k && req.all (below 9) && decide (1 ≤ beats) && decide (beats ≤ 64)
  | .scratchApertureAccess _ k off _ => below 12 k && below 0x20000 off
  | .apertureTimeout _ k off _ => below 12 k && below 0x20000 off
  | .pmcEvselWrite _ k n _ => below 12 k && below 8 n
  | .tskCreate _ d slot => below 2 d && below 512 slot
  | .tskKill _ d slot => below 2 d && below 512 slot
  | .tskRequeue _ d slot => below 2 d && below 512 slot
  | .tskSetprio _ d slot => below 2 d && below 512 slot
  | .slotTimerExpire d slot => below 2 d && below 512 slot
  | .eventLine d line => below 2 d && below 12 line
  | .slotEventWrite _ d slot _ => below 2 d && below 512 slot
  | .watchdogBite e => below 96 e
  | .fabricSlotMatch => true
  | .fabricTransferComplete g eg _ => below 4 g && below 4 eg
  | .reseqTimeout eg => below 4 eg
  | .spillPageWrite g voq _ => below 4 g && below 520 voq
  | .wadiRefill g voq => below 4 g && below 520 voq
  | .wadiPageReturn g voq _ => below 4 g && below 520 voq
  | .frameTransmitComplete port _ => below 64 port
  | .shaperRefill port cls => below 64 port && (match cls with | some c => below 8 c | none => true)
  | .pauseExpire port cls => below 64 port && (match cls with | some c => below 8 c | none => true)
  | .pfcRenew port => below 64 port
  | .gateChangeRequest _ port _ => below 64 port
  | .gateConfigChange port => below 64 port
  | .gateEntryChange port => below 64 port
  | .recoveryResetTimeout g r => below 4 g && below 512 r
  | .ledPeriodEnd g r => below 4 g && below 512 r
  | .hbmReadComplete rd => hbmReadOk rd
  | .panicRaise pc arr => panicOk pc.ch pc.u arr
  | .refreshDue ch u bank => below 96 ch && below 2 u && below 32 bank
  | .stackTempReading stack t => below 6 stack && decide (-128 ≤ t) && decide (t ≤ 127)
  | .readEyeRecentre stack edge => below 6 stack && (match edge with | some c => below 16 c | none => true)
  | .portAdminWrite _ port _ => below 64 port
  | .linkLockAcquired port _ => below 64 port
  | .linkUpDebounceExpire port => below 64 port
  | .lossCondition port lane _ => below 64 port && below 64 lane
  | .linkDownDeclare port => below 64 port
  | .holdExpire port => below 64 port
  | .wtrExpire g n => below 4 g && below 8 n
  | .protectionRevert g n => below 4 g && below 8 n
  | .protectionGroupWrite _ g n _ => below 4 g && below 8 n
  | .injBit _ lane => below 64 lane
  | .injBurst _ lane => below 64 lane
  | .timRate _ => true
  | .timStep _ => true
  | .timSet _ => true
  | .timCancel _ => true
  | .timeCommandArrive => true
  | .timeEpochReached => true
  | .refLost => true
  | .refRelock => true
  | .eventTimerFire d n => below 2 d && below 8 n
  | .ppsOutput k => below 4 k
  | .outputPulseEnd k => below 4 k
  | .triggerCapture k => below 4 k
  | .timeCaptureRead _ d => below 2 d
  | .triggerRead _ k => below 4 k
  | .stampEntry g raw => below 4 g && below (2 ^ 64) raw
  | .stampQueuePop _ g => below 4 g
  | .errorRecord ev => evOk ev
  | .injectionArm _ d _ => below 2 d
  | .injectionCancel _ d => below 2 d
  | .quiesceWrite _ d _ => below 2 d
  | .divRelease _ d => below 2 d
  | .divPurge _ d => below 2 d
  | .tcamWrite _ g prof e => below 4 g && below 16 prof && below 32768 e.index
  | .tcamInvalidate _ g prof index => below 4 g && below 16 prof && below 32768 index
  | .tcamRead _ g prof index => below 4 g && below 16 prof && below 32768 index
  | .tcamReadArray _ g prof index => below 4 g && below 16 prof && below 32768 index
  | .tcamScrubVisit g block row => below 4 g && below 16 block && below 2048 row
  | .exLookup _ g table => below 4 g && below 256 table
  | .exInsert _ g table => below 4 g && below 256 table
  | .exDelete _ g table => below 4 g && below 256 table
  | .exReplace _ g table => below 4 g && below 256 table
  | .dirWrite _ g table index => below 4 g && below 256 table && below (2 ^ 20) index
  | .dirRead _ g table index => below 4 g && below 256 table && below (2 ^ 20) index
  | .counterSnapshot _ g _ => below 4 g
  | .l2LearnApply d => below 2 d
  | .l2SweepVisit d index => below 2 d && below (2 ^ 19) index
  | .l2Lookup _ d => below 2 d
  | .l2Insert _ d => below 2 d
  | .l2Delete _ d => below 2 d
  | .l2Flush _ d _ => below 2 d
  | .actWrite _ d index => below 2 d && below (2 ^ 18) index
  | .actRead _ d index => below 2 d && below (2 ^ 18) index
  | .cpEntWrite _ d z w _ => below 2 d && below 65536 z && below 2 w
  | .balGwrite _ d => below 2 d
  | .balGread _ d => below 2 d
  | .balMwrite _ d => below 2 d
  | .balMread _ d => below 2 d
  | .balLwrite _ d => below 2 d
  | .balLread _ d => below 2 d
  | .txDoorbell _ t v => below 64 t && below 65536 v
  | .txDescriptorProcess t desc frame => below 64 t && desc.length == 32 && (match frame with | some f => f.length == leAt desc 8 2 | none => true)
  | .txStallRetry t => below 64 t
  | .rxDoorbell _ d t v => below 2 d && below (if d = 0 then 64 else 8) t && below 65536 v
  | .rxFrameDeliver d c desc => below 2 d && below 8 c && desc.length == 32
  | .excEnWrite _ _ => true
  | .msixUnmask ep vec => below 2 ep && epNames ep vec
  | .galleyFrameForward _ _ => true
  | .galleyEnum _ frame => galCmd frame == 1
  | .galleyIdent _ frame => galCmd frame == 2
  | .galleyStatus _ frame => galCmd frame == 3
  | .galleyRd _ frame => galCmd frame == 4
  | .galleyWr _ frame => galCmd frame == 5
  | .galleyReset _ frame => galCmd frame == 6
  | .galleyTime _ frame => galCmd frame == 7
  | .galleyErrlog _ frame => galCmd frame == 8
  | .galleyLossOfSignal _ => true
  | .galleyAttach _ => true
  | .galleyAlertSend => true
  | .galleyCredLock _ => true
  | .progOroot _ arg _ => below 256 arg
  | .raiseOsvn _ arg => below 256 arg
  | .raiseVsvn _ arg => below 256 arg
  | .attestationStart _ => true
  | .attestationComplete _ => true
  | .monitorTrip => true
  | .mregLatchRead _ => true
  | .tapBypass => true
  | .tapSamplePreload _ => true
  | .tapExtest => true
  | .traceClear _ d => below 2 d
  | .traceEnable _ d _ => below 2 d
  | .traceMark _ d _ => below 2 d
  | .traceStopCountExpire d => below 2 d
  | .engPcSample e => below 96 e
  | .traceRecordLatch _ d => below 2 d
  | .clearingRead _ off _ => below (2 ^ 27) off
  | .wideLowWordRead _ off => below (2 ^ 27) off
  | .registerWrite _ off _ _ => below (2 ^ 27) off
  | .hostAccessErrorRead _ off => below (2 ^ 27) off
  | .prbsCheckerLock lane => below 64 lane
  | .prbsCheckerLoss lane => below 64 lane
  | .sdsPllLossOfLock lane _ => below 64 lane
  | .pcieLinkDown ep => below 2 ep
  | .pcieLinkUp ep speed width => linkOk ep speed width

end Sys2Proof
end

