-- ==== Sys2Proof/Safety.lean ====
section
/-! DEFINITION. The terms in which statements are made: what a host access needs to act, what an engine needs to issue a word, the canonical form of
the stores, what a run keeps. -/

namespace Sys2Proof.Machine

/-! ## Accesses -/

/-- R39, R43, R109, R527, R528, R626: an access of a path to a register reaches it: the part answers on the path, nothing of the path waits before it,
the instance exists, and the clock of its block runs. -/
def Dev.shows (d : Dev) (p : Path) (r : RegSpec) (ix : List Nat) : Bool :=
  d.reaches p && !d.behind p (r.addr ix) && !d.hidden ⟨r, ix, false⟩
    && (isGlb (r.addr ix) || (d.glb.mode != .root && d.boot "ROOT_DONE"))
    && !((r.restStops && d.glb.mode == .rest) || (r.lanes && d.glb.mode == .enrol))

/-- R16, R109, R642, R649, R707: a write of a value to a register of one word takes effect: it reaches the register, is not held, changes no locked field,
and neither the register's own checks nor the galley's refuse it. -/
def Dev.takes (d : Dev) (p : Path) (r : RegSpec) (ix : List Nat) (v : Nat) : Bool :=
  d.shows p r ix && !d.mustHold ⟨r, ix, false⟩ && d.lockedValue r ix v == v && !d.credLocked r && d.writeRefused ⟨r, ix, false⟩ v == 0
    && !(p == .galley && r.noWr)

/-- Registers without a row of their own whose write acts elsewhere too: schedulers look again, VOQs enter spill, PFC is sent. -/
def RegSpec.acts (r : RegSpec) : Bool := r.bucket || r.sched || r.pfc || r.is R.BUF_SPILL_CFG || r.is R.BUF_PART_LOW

/-- R625: indices that a register has, one for each of its dimensions. -/
def ixOk : List (Nat × Nat × Nat) → List Nat → Bool
  | [], [] => true
  | (lo, hi, _) :: ds, i :: ix => decide (lo ≤ i) && decide (i ≤ hi) && ixOk ds ix
  | _, _ => false

/-! ## Engines -/

/-- R342, R343, R347, R375: engine e issues the word u next: it runs, the word passes parity, waits for no register and raises no machine check. -/
def Dev.issues (d : Dev) (e : Nat) (u : UW) : Bool :=
  d.canIssue e && d.nextWord e == u && d.csGood (e / 8) (d.engOf e).ctx.upc && !(d.engOf e).stalled u && (d.causes e (d.engOf e) u).isEmpty

/-- R343, R392: the effects of a word that an engine issues, the time that its counters count apart. -/
def Dev.issued (d : Dev) (e : Nat) (u : UW) : Dev := (d.issueTime e).runWord e u (d.csWord (d.engOf e).ctx.upc).1

/-! ## The stores -/

/-- The canonical form of a store: keys rising, and no entry equal to what an unlisted key reads as. -/
def Memory.wf {α : Type} [DecidableEq α] (m : SMap α) (blank : α) : Bool := SMap.sorted m && m.all (fun x => decide (x.2 ≠ blank))

/-! ## One-time-programmable store -/

/-- R650: what the one-time-programmable store of die 0 holds. -/
structure Fuses where
  vroot : List Byte
  oroot : List (List Byte)
  dsecret : List Byte
  impChk : List Byte
  vsvn : Nat
  osvn : Nat
  deriving DecidableEq, Repr

/-- The one-time-programmable store of the part. -/
def SecS.fuses (s : SecS) : Fuses := ⟨s.vroot, s.oroot, s.dsecret, s.impChk, s.vsvn, s.osvn⟩

/-- The one-time-programmable store of the part. -/
def Dev.fuses (d : Dev) : Fuses := d.sec.fuses

/-- R650: a later store that clears nothing of an earlier one: the parts written at manufacture stand, owner roots are appended, floors do not fall. -/
def Fuses.extends (a b : Fuses) : Prop :=
  b.vroot = a.vroot ∧ b.dsecret = a.dsecret ∧ b.impChk = a.impChk ∧ a.oroot <+: b.oroot ∧ a.vsvn ≤ b.vsvn ∧ a.osvn ≤ b.osvn

/-! ## The queue -/

/-- Every command that waits is well-formed. -/
def State.queueWf (s : State) : Bool := s.pending.all Instr.wf

end Sys2Proof.Machine

/-- What a command's operands need of the part as it stands: a fetched image has the length that was asked for, a lane belongs to its port,
requests lie in the windows of their requesters. -/
def Sys2Proof.Instr.fits (c : Sys2Proof.Instr) (d : Sys2Proof.Machine.Dev) : Bool :=
  match c with
  | .formeFetchComplete (some b) => b.length == d.get Sys2Proof.Machine.R.GLB_FORME_LEN [] "LEN"
  | .patchLoadComplete (some b) => b.length == d.get Sys2Proof.Machine.R.GLB_PATCH_LEN [] "LEN"
  | .hbmReadComplete rd => rd.arr.all (d.reqOk (48 * rd.d + rd.ch))
  | .panicRaise pc arr => arr.all (d.reqOk pc.ch)
  | .lossCondition port lane _ => decide (port ≤ lane) && decide (lane < port + Sys2Proof.Machine.modeLanes (d.portMode port))
  | _ => true
end

