-- ==== Sys2Proof/Certificates/Slice0/Obligations.lean ====
section
/-! DEFINITION. The statements for the provers. `takes` and `shows` (Safety.lean) say that a host access is not refused; where a statement names the
next state by an operation of the model, that operation's docstring names the rules it follows. -/

open Sys2Proof Sys2Proof.Machine

/-! ## The queue, the step, the reset -/

/-- Model's own interface (row's form of a block): a step is the meaning of the command at the front, on the state with the queue's rest. -/
def Obligations.StepRunsTheFrontCommand : Prop :=
  ∀ (c : Instr) (cs : List Instr) (s : State), s.pending = c :: cs → step s = exec c { s with pending := cs }

/-- R571, R390, R579; that an empty queue idles for one TCLK cycle is the model's choice (log entry 1), as is that a verified TCAM write ends there (log entry
124). While the time base runs both raw counters advance by 1, and with no such write in progress, and no time command whose E has come, nothing but them and
the cycle counters of the clusters changes; a time command whose E has come acts. -/
def Obligations.EmptyQueueTicksTheRawCounters : Prop :=
  ∀ s : State, s.pending = [] →
    let raw : Two Nat := ⟨(s.dev.tim.raw.d0 + 1) % 2 ^ 64, (s.dev.tim.raw.d1 + 1) % 2 ^ 64⟩
    let due := s.dev.tim.cmd.any (fun c => c.arrived && !c.acted && decide (c.e ≤ raw.d0))
    ∃ t, step s = .next t ∧ t.pending = [] ∧
      (s.dev.tim.running = true → due = false → t.dev.tim = { s.dev.tim with raw := raw }) ∧
      (s.dev.tim.running = false → t.dev.tim = s.dev.tim) ∧
      (s.dev.tim.running = false ∨ due = false →
        { t.dev with tim := s.dev.tim, regs := s.dev.regs, mat := s.dev.mat, err := s.dev.err } = s.dev ∧
          (s.dev.mat.twr = [] → t.dev.mat = s.dev.mat ∧ t.dev.err = s.dev.err)) ∧
      (∀ c, s.dev.tim.running = true → due = true → s.dev.tim.cmd = some c → s.dev.mat.twr = [] →
        let d := { s.dev with tim := { s.dev.tim with raw := raw } }.timAct c
        { t.dev with regs := d.regs } = d)

/-- R17, R61, R571, R71, R650: what reset leaves: every register reads its reset value, the part is in ROOT, both raw counters are 0, no flow record, cell,
VOQ or thread exists, and no command waits. That this is the reset after power-on, and that a store of which the rules say nothing starts empty, are the model's
choices (log entries 7 and 9). -/
def Obligations.ResetLeavesEveryRegisterAtItsResetValue : Prop :=
  (∀ (r : RegSpec) (ix : List Nat), r ∈ R.all → State.reset.dev.getW r ix = r.reset) ∧
    State.reset.dev.glb.mode = .root ∧ State.reset.dev.tim.raw = ⟨0, 0⟩ ∧ State.reset.dev.flw.slots = [] ∧ State.reset.dev.buf.cells = []
    ∧ State.reset.dev.buf.voq = [] ∧ State.reset.dev.tsk.slots = [] ∧ State.reset.dev.sec.oroot = [] ∧ State.reset.pending = []

/-- Model's own interface: n steps that go on take the n oldest commands, first in first out. -/
def Obligations.StepsTakeCommandsFirstInFirstOut : Prop :=
  ∀ (n : Nat) (s t : State), Host.Core.run core n s = .next t → t.pending = s.pending.drop n

/-- Every command whose operands name units of the part runs: it answers a next state, and no other outcome; five commands also need operands that fit
the part as it stands (a fetched image of the length asked for, a lane of the port, requests that the stacks take). -/
def Obligations.EveryWellFormedCommandRuns : Prop :=
  ∀ (c : Instr) (s : State), c.wf = true → c.fits s.dev = true → ∃ t, exec c s = .next t

/-- A command whose operands name no unit of the part stops with the fault noSuchUnit: port 64 at a MAC, engine 96, cluster 12, die 2. The model's choice
(log entry 2): the part never shows such a command. -/
def Obligations.ACommandOfNoUnitStops : Prop :=
  ∀ (s : State) (b full : Bool) (fr : List Byte) (n rest : Nat),
    (64 ≤ n → exec (.frameReceive n fr ⟨b, full, rest⟩) s = .fault .noSuchUnit ∧ exec (.linkUpDebounceExpire n) s = .fault .noSuchUnit) ∧
    (96 ≤ n → exec (.watchdogBite n) s = .fault .noSuchUnit ∧ exec (.kAdd n) s = .fault .noSuchUnit) ∧
    (2 ≤ n → exec (.verdictReceive n) s = .fault .noSuchUnit ∧ exec (.pcieLinkDown n) s = .fault .noSuchUnit)

/-! ## Completion, family by family -/

/-- R61–R65, R68, R693, R698, R708, R655, R657: resets, heat and boot run. -/
def Obligations.ResetsHeatAndBootComplete : Prop :=
  ∀ (s : State) (p : Path) (refSel : Bool) (v : Word) (t0 t1 : Int) (ep speed width : Nat) (mem bus : Bool) (kind : PcieReset) (flash : FlashRead),
    exec (.powerOnReset refSel) s = .next { s with dev := (s.dev.packageReset 0 true).strap refSel } ∧
    (s.dev.glb.hold = .none → exec (.pinReset refSel) s = .next { s with dev := (s.dev.packageReset 1 false).strap refSel }) ∧
    (s.dev.takes p R.GLB_RESET [] v.toNat = true → v.toNat % 2 = 1 → v.toNat / 2 ^ 16 = 0x5A17 →
      exec (.hostPackageReset p v) s = .next { s with dev := s.dev.packageReset 2 false }) ∧
    (s.dev.glb.hold ≠ .thermal → ∃ d, exec .railUndervoltage s = .next { s with dev := d } ∧ d.glb.mode = .cold ∧ d.glb.hold = .rails
      ∧ d.glb.prev = s.dev.glb.mode ∧ d.tim.running = false) ∧
    (s.dev.glb.hold = .rails → exec (.railRecovered refSel) s = .next { s with dev := (s.dev.packageReset 0 true).strap refSel }) ∧
    (-128 ≤ t0 → t0 < 115 → -128 ≤ t1 → t1 < 115 → s.dev.glb.mode ≠ .cold →
      exec (.dieSensorSample t0 t1) s = .next { s with dev := { s.dev with glb := { s.dev.glb with die0 := t0, die1 := t1 } }.alertPin }) ∧
    (-128 ≤ t0 → t0 ≤ 127 → -128 ≤ t1 → t1 ≤ 127 → 115 ≤ t0 ∨ 115 ≤ t1 → s.dev.glb.mode ≠ .cold →
      exec (.dieSensorSample t0 t1) s = .next { s with dev := { s.dev with glb := { s.dev.glb with die0 := t0, die1 := t1 } }.thermalTrip }) ∧
    (ep < 2 → exec (.pcieReset ep kind) s = .next { s with dev := (s.dev.pcieReset ep kind).released }) ∧
    (linkOk ep speed width = true → exec (.pcieEndpointReady ep ⟨speed, width⟩ ⟨mem, bus⟩) s = .next { s with dev := s.dev.epReady ep speed width mem bus }) ∧
    (flash.images.length < 9 → exec (.bootVerifyComplete flash) s = .next { s with dev := s.dev.bootDone flash }) ∧
    (s.dev.glb.mode = .enrol → s.dev.boot "ENROL_DONE" = false →
      let d := { s.dev with sec := { s.dev.sec with pk := sliceB (Config.slhPublic s.dev.sec.seed) 0 64 } }
      exec .imprintSelfTest s = .next { s with dev :=
        if d.sec.imp16 = d.sec.impChk then d.put R.GLB_BOOT_STATUS [] "ENROL_DONE" 1 else d.put R.GLB_BOOT_STATUS [] "CODE" 4 })

/-- R54–R58, R71, R77, R81–R83, R102, R107, R519, R709: a mode request is accepted, of two in one cycle it is no matter which path is named first, and
each transition that is in progress completes. -/
def Obligations.ModeTransitionsComplete : Prop :=
  ∀ (s : State) (p : Path) (v w : Word) (b : Mode),
    (s.dev.takes p R.GLB_MODE_REQ [] v.toNat = true → hasBit v.toNat 3 = true → hasBit v.toNat 8 = false → s.dev.glb.trans = none →
      let d := s.dev.put R.GLB_MODE_REQ [] "TARGET" (v.toNat % 8)
      permitted s.dev.glb.mode (Mode.of (v.toNat % 8)) = true → d.refusal (Mode.of (v.toNat % 8)) = none →
      exec (.modeRequest p ⟨v, none⟩) s = .next { s with dev :=
        { d with glb := { d.glb with trans := some (Mode.of (v.toNat % 8)), deferred := d.glb.loader.state != 0 } }.put R.GLB_MODE_REQ [] "STATUS" 2 }) ∧
    (exec (.modeRequest .galley ⟨v, some w⟩) s = exec (.modeRequest .pcie ⟨w, some v⟩) s) ∧
    (s.dev.takes p R.GLB_MODE_REQ [] (s.dev.setWord R.GLB_MODE_REQ [] "FLUSH") = true → s.dev.glb.mode = .drain →
      exec (.flush p) s = .next { s with dev := (s.dev.put R.GLB_MODE_REQ [] "TARGET" (s.dev.get R.GLB_MODE_REQ [] "TARGET")).flushAll }) ∧
    (s.dev.glb.trans = some b → s.dev.glb.deferred = true → s.dev.glb.loader.state = 0 → s.dev.refusal b = none →
      exec .deferredTransitionStart s = .next { s with dev := { s.dev with glb := { s.dev.glb with deferred := false } } }) ∧
    (s.dev.moving .enrol .load = true → exec .enrolToLoad s = .next { s with dev := s.dev.enter .load }) ∧
    (s.dev.moving .load .run = true → exec .loadToRun s = .next { s with dev := (s.dev.enter .run).clearFlows.startPorts.gateChanges }) ∧
    (s.dev.moving .load .proof = true → exec .loadToProof s = .next { s with dev := s.dev.enter .proof }) ∧
    (s.dev.moving .proof .load = true → s.dev.testing = false → exec .proofToLoad s = .next { s with dev := (s.dev.enter .load).formeDiscard }) ∧
    (s.dev.moving .run .drain = true → exec .runToDrain s = .next { s with dev := s.dev.runToDrain } ∧ s.dev.runToDrain.glb.mode = .drain) ∧
    (s.dev.moving .drain .run = true → exec .drainToRun s = .next { s with dev := s.dev.enter .run }) ∧
    (s.dev.moving .drain .load = true → exec .drainToLoad s = .next { s with dev := (s.dev.enter .load).stopPorts }) ∧
    (s.dev.moving .drain .rest = true → exec .drainToRest s = .next { s with dev := s.dev.drainToRest }) ∧
    (s.dev.moving .rest .run = true →
      let d := ((s.dev.enter .run).srefTrace 7).thaw.sref 0
      exec (.restToRun none) s = .next { s with dev := { d with flw := { d.flw with hint := [] } }.startPorts })

/-- R73, R75, R76, R516, R517: DRAIN ends, times out or renews its PAUSE; the training of a stack passes or stops, each stack by itself: a stack that passed
shows TRAINED beside one that stopped, and one that stopped does not stop again. -/
def Obligations.DrainAndTrainingComplete : Prop :=
  ∀ (s : State) (repaired : List LaneRepair) (stack st code : Nat) (stop : TrainStop),
    (s.dev.glb.mode = .drain → s.dev.drained = true → exec .drainComplete s = .next { s with dev := s.dev.put R.GLB_BOOT_STATUS [] "DRAIN_DONE" 1 }) ∧
    (s.dev.glb.mode = .drain → s.dev.glb.drainTmo ≠ 0 → s.dev.boot "DRAIN_DONE" = false → s.dev.boot "DRAIN_STUCK" = false →
      exec .drainTimeout s = .next { s with dev := (s.dev.put R.GLB_BOOT_STATUS [] "DRAIN_STUCK" 1).errEvent (mkEvent 0 0x02 0 2 1 []) }) ∧
    (s.dev.glb.mode = .drain → s.dev.bit R.GLB_DRAIN_CFG [] "PAUSE_EN" = true → exec .drainPauseRenew s = .next { s with dev := s.dev.pauseAll }) ∧
    (repairsOk repaired = true → stack < 6 → s.dev.training stack = true →
      exec (.hbmTrainingComplete repaired) s = .next { s with dev := s.dev.trained repaired } ∧
        (s.dev.trained repaired).bit R.MEM_STACK_STAT [stack / 3, stack % 3] "TRAINED" = true) ∧
    (trainStopOk stack stop st code = true → s.dev.training stack = true →
      ∃ t, exec (.hbmTrainingFail stack stop st code) s = .next t ∧ t.dev.training stack = false ∧
        { t.dev with hbm := s.dev.hbm } = { ((s.dev.repair stop.repaired).trainEvent stack st code stop.chan) with hbm := s.dev.hbm }) ∧
    (trainStopOk stack stop st code = true → s.dev.training stack = false → exec (.hbmTrainingFail stack stop st code) s = .next s)

/-- R96–R115, R380–R384: a forme delivery and a patch load go from step to step; a check that fails ends the delivery with its cause. -/
def Obligations.FormeAndPatchStepsComplete : Prop :=
  ∀ (s : State) (p : Path) (v : Word) (b : List Byte),
    let ld := s.dev.glb.loader
    let fail := fun (e : FErr) => ({ s with dev := (s.dev.formeFail e).released } : State)
    (s.dev.takes p R.GLB_FORME_CTL [] v.toNat = true → v.toNat % 2 = 1 → ld.state = 0 → s.dev.glb.patching = false → s.dev.glb.trans = none →
      exec (.formeGo p v) s = .next { s with dev := (s.dev.put R.GLB_FORME_CTL [] "QTMO_US" (v.toNat / 2 ^ 16)).loaderTo 1 }) ∧
    (ld.state = 1 → s.dev.dmaUp = true → b.length = s.dev.get R.GLB_FORME_LEN [] "LEN" →
      exec (.formeFetchComplete (some b)) s = .next
        (if !fHead b then fail (FErr.plain 1) else if !s.dev.formeMode b then fail (FErr.plain 0xF) else if !fFormat b b.length then fail (FErr.plain 1)
        else
          let d := if fFull b then s.dev.formeDiscard else s.dev
          { s with dev := ({ d with glb := { d.glb with loader := { d.glb.loader with img := b } } }.loaderTo 2).released })) ∧
    (ld.state = 1 → exec (.formeFetchComplete none) s = .next (fail (FErr.plain 2))) ∧
    (ld.state = 2 → exec .formeVerifyComplete s = .next
      (match s.dev.formeVerify ld.img with | none => { s with dev := (s.dev.loaderTo 3).released } | some e => fail e)) ∧
    (ld.state = 3 → fFull ld.img = true → exec .formeValidateComplete s = .next
      (match s.dev.fValidate ld.img with | none => { s with dev := (s.dev.loaderTo 5).released } | some e => fail e)) ∧
    (ld.state = 4 → s.dev.quiet = true → exec .formeQuiesceComplete s = .next { s with dev := s.dev.loaderTo 5 }) ∧
    (ld.state = 4 → exec .formeQuiesceTimeout s = .next (fail (FErr.plain 0x10))) ∧
    (ld.state = 5 → fFull ld.img = true →
      exec .formeApplyComplete s = .next { s with dev := ((s.dev.formeApply ld.img).formeEnd (FErr.plain 0)).released }) ∧
    (ld.state = 5 → fFull ld.img = false →
      exec .updateSwitchPoint s = .next { s with dev := ((List.range 64).foldl Dev.select ((s.dev.formeUpdate ld.img).formeEnd (FErr.plain 0))).released }) ∧
    (s.dev.takes p R.GLB_PATCH_CTL [] v.toNat = true → v.toNat % 2 = 1 → s.dev.glb.patching = false → s.dev.glb.mode = .enrol ∨ s.dev.glb.mode = .load →
      ld.state = 0 →
      exec (.patchGo p v) s = .next { s with dev := { s.dev with glb := { s.dev.glb with patching := true } }.put R.GLB_PATCH_STATUS [] "STATE" 1 }) ∧
    (s.dev.glb.patching = true → s.dev.dmaUp = true → b.length = s.dev.get R.GLB_PATCH_LEN [] "LEN" →
      exec (.patchLoadComplete (some b)) s = .next
        (match s.dev.patchCheck b with | none => { s with dev := s.dev.patchApply b } | some (c, r) => { s with dev := s.dev.patchFail c r })) ∧
    (s.dev.glb.patching = true → exec (.patchLoadComplete none) s = .next { s with dev := s.dev.patchFail 2 0xFF })

/-- R144–R153, R189–R203, R235–R262: the steps of a packet run. -/
def Obligations.PacketStepsComplete : Prop :=
  ∀ (s : State) (port n g d i left : Nat) (fr : List Byte) (slot full : Bool) (p : Pkt) (rest : List Nat) (ls : List Link) (v : Verdict)
    (e : PEnt),
    (port < 64 → exec (.frameReceive port fr ⟨slot, full, left⟩) s = .next { s with dev := s.dev.frameReceive port fr slot full left }) ∧
    (s.dev.pkt n = some p → p.stage = .arrived → exec (.parseComplete n) s = .next { s with dev := s.dev.parseComplete n }) ∧
    (d < 2 → s.dev.pk.link.get d = .desc n :: ls → exec (.descriptorReceive d) s = .next { s with dev := (s.dev.linkTake d).pump }) ∧
    (s.dev.pkt n = some p → p.pat.isSome = true → exec (.patternResultReady n) s = .next { s with dev := s.dev.patternReady n }) ∧
    (s.dev.pkt n = some p → p.ret = false → p.stage = .window ∨ p.stage = .remote ∨ (p.stage = .replay ∧ p.img = none) →
      let x := if (s.dev.pendOf (homeDie (p.h.getD 0)) p).isSome then (s.dev, none) else s.dev.readFor p
      exec (.recordReturn n) s = .next { s with dev := (x.1.setPkt n { p with rd := x.2, ret := true }).pump }) ∧
    (s.dev.pkt n = some p → s.dev.pk.run.getD p.g [] = n :: rest → p.ret = false →
      exec (.replayEnd n) s = .next { s with dev := (s.dev.setPkt n { p with ret := true }).pump }) ∧
    (d < 2 → s.dev.pk.link.get d = .verd v :: ls → exec (.verdictReceive d) s = .next { s with dev := (s.dev.linkTake d).pump }) ∧
    (g < 4 → s.dev.pk.recirc.getD g [] = n :: rest → exec (.recirculate g) s = .next { s with dev := s.dev.recirculate g }) ∧
    (s.dev.pkt n = some p → (s.dev.flw.pend.get (homeDie (p.h.getD 0))).find? (fun e => e.kind == .fast && e.pkts.head? == some n) = some e →
      exec (.fastInsertComplete n) s = .next { s with dev := s.dev.fastInsert n }) ∧
    (d < 2 → (s.dev.flw.pend.get d).find? (fun e => e.idx == i) = some e → e.kind = .fast ∨ e.kind = .setup →
      exec (.setupTimeout d i) s = .next { s with dev := s.dev.setupTimeout d i })

/-- R155–R165, R208, R219, R230, R338: sweeper, walker and quoin visits run, and an update unit applies the oldest operation of a record; in REST no unit
applies one (R519). -/
def Obligations.RecordUpdatesComplete : Prop :=
  ∀ (s : State) (ra e bit : Nat) (o : AuuOp) (rest : List AuuOp) (w : Wb) (tok dp doct m : Nat) (bs : List Byte),
    raOk ra = true →
    let popped := { s.dev with flw := { s.dev.flw with auuq := rest } }
    (exec (.sweepVisit ra) s = .next { s with dev := s.dev.sweepVisit ra }) ∧
    (exec (.exportWalkVisit ra) s = .next { s with dev := s.dev.exportVisit ra }) ∧
    (s.dev.glb.mode = .rest → ∀ c ∈ [Instr.auuWb ra, .auuAdd ra, .auuStamp ra, .auuCset ra, .auuCdel ra, .auuCwrite ra], exec c s = .next s) ∧
    (s.dev.glb.mode ≠ .rest → auuPopWb ra s.dev.flw.auuq = some (o, rest) → o.kind = .wb w → exec (.auuWb ra) s = .next { s with dev := popped.auuWb ra w }) ∧
    (s.dev.glb.mode ≠ .rest → auuPop ra s.dev.flw.auuq = some (o, rest) →
      (o.kind = .add e tok dp doct → exec (.auuAdd ra) s = .next { s with dev := popped.auuApply ra (.add e tok dp doct) }) ∧
      (o.kind = .stamp e tok → exec (.auuStamp ra) s = .next { s with dev := popped.auuApply ra (.stamp e tok) }) ∧
      (o.kind = .cset → exec (.auuCset ra) s = .next { s with dev := popped.auuCset ra }) ∧
      (o.kind = .cdel → s.dev.cdelStalls ra = false → exec (.auuCdel ra) s = .next { s with dev := popped.auuCdel ra }) ∧
      (o.kind = .cwrite e tok m bs → exec (.auuCwrite ra) s = .next { s with dev := popped.auuApply ra (.cwrite e tok m bs) })) ∧
    (bit < 8 → (s.dev.slot ra).st ≠ .empty → (s.dev.recUse ra).2 = true →
      exec (.auuFset ra bit) s =
        .next { s with dev := (s.dev.recUse ra).1.auuStore ra { (s.dev.slot ra).body with flags := withBit (s.dev.slot ra).body.flags bit true } } ∧
      exec (.auuFclr ra bit) s =
        .next { s with dev := (s.dev.recUse ra).1.auuStore ra { (s.dev.slot ra).body with flags := withBit (s.dev.slot ra).body.flags bit false } }) ∧
    (exec (.quoinGrant ra) s = .next { s with dev := s.dev.quoinGrant ra }) ∧
    (e < 96 → exec (.quoinWaitTimeout e) s = .next { s with dev := s.dev.quoinTimeout e }) ∧
    (exec (.quoinSweepVisit ra) s = .next { s with dev := (s.dev.meet ra).1 })

/-- R166–R168, R181, R232, R234, R614: the host's flow, hint, torn-record and divert commands run. -/
def Obligations.HostFlowCommandsComplete : Prop :=
  ∀ (s : State) (p : Path) (d : Nat) (v : Word), d < 2 →
    (s.dev.takes p R.FLW_HCMD [d] 1 = true → exec (.flowLookup p d) s = .next { s with dev := s.dev.hostLookup d }) ∧
    (s.dev.takes p R.FLW_HCMD [d] 2 = true → exec (.flowDelete p d) s = .next { s with dev := s.dev.hostDelete d }) ∧
    (s.dev.takes p R.FLW_HCMD [d] 3 = true → exec (.flowInsert p d) s = .next { s with dev := s.dev.hostInsert d }) ∧
    (s.dev.takes p R.FLW_MIR_CTL [d] v.toNat = true → hasBit v.toNat 1 = true →
      exec (.hintInvalidate p d v) s = .next { s with dev := (s.dev.fieldsWrite R.FLW_MIR_CTL [d] v.toNat).put R.FLW_MIR_CTL [d] "INV_BUSY" 1 }) ∧
    (s.dev.bit R.FLW_MIR_CTL [d] "INV_BUSY" = true →
      exec (.hintInvalidateComplete d) s = .next { s with dev :=
        { s.dev with flw := { s.dev.flw with hint := s.dev.flw.hint.filter (fun x => x.1 / 2 ^ 21 != d) } }.put R.FLW_MIR_CTL [d] "INV_BUSY" 0 }) ∧
    (s.dev.shows p R.FLW_QN_TORN_LOG [d] = true → exec (.tornLogPop p d) s = .next { s with dev := s.dev.tornPop p d }) ∧
    (s.dev.takes p R.FLW_QN_RCMD [d] 1 = true → exec (.tornRead p d) s = .next { s with dev := s.dev.tornReadCmd d }) ∧
    (s.dev.takes p R.FLW_QN_RCMD [d] 2 = true → exec (.tornRestore p d) s = .next { s with dev := s.dev.tornRestoreCmd d }) ∧
    (s.dev.takes p R.FLW_QN_RCMD [d] 3 = true → exec (.tornEmpty p d) s = .next { s with dev := s.dev.tornEmptyCmd d }) ∧
    (s.dev.takes p R.FLW_DIV_CMD [d] 1 = true → exec (.divRelease p d) s = .next { s with dev := s.dev.divRelease d }) ∧
    (s.dev.takes p R.FLW_DIV_CMD [d] 2 = true → exec (.divPurge p d) s = .next { s with dev := s.dev.divPurge d })

/-- R342, R348: a word that the engine issues and whose ALU slot names a row runs whole by that row's command. -/
def Obligations.AluWordsComplete : Prop :=
  ∀ x ∈ [(Instr.kAdd, 0x01), (Instr.kSub, 0x02), (Instr.kAnd, 0x03), (Instr.kOr, 0x04), (Instr.kXor, 0x05), (Instr.kShl, 0x06), (Instr.kShr, 0x07),
      (Instr.kSar, 0x08), (Instr.kRor, 0x09), (Instr.kMov, 0x0A), (Instr.kMovhi, 0x0B), (Instr.kExtr, 0x0C), (Instr.kInsr, 0x0D)]
    ++ [(Instr.kCmpeq, 0x0E), (Instr.kCmpltu, 0x0F), (Instr.kCmplts, 0x10), (Instr.kMinu, 0x11), (Instr.kMaxu, 0x12), (Instr.kMul, 0x13),
      (Instr.kMulhu, 0x14), (Instr.kPopc, 0x15), (Instr.kClz, 0x16), (Instr.kBswap, 0x17), (Instr.kCrc64, 0x18), (Instr.kCrc32c, 0x19)],
    ∀ (e : Nat) (u : UW) (s : State), e < 96 → s.dev.issues e u = true → u.aop = x.2 → exec (x.1 e) s = .next { s with dev := s.dev.issued e u }

/-- R342, R349: the same of the memory slot. -/
def Obligations.MemoryWordsComplete : Prop :=
  ∀ x ∈ [(Instr.kLdl, 0x01), (Instr.kStl, 0x02), (Instr.kLds, 0x03), (Instr.kSts, 0x04), (Instr.kCass, 0x05), (Instr.kFadds, 0x06), (Instr.kLdh, 0x07),
      (Instr.kSth, 0x08), (Instr.kQacq, 0x09), (Instr.kQtry, 0x0A), (Instr.kQread, 0x0B)]
    ++ [(Instr.kQwrite, 0x0C), (Instr.kQrel, 0x0D), (Instr.kRadd, 0x0E), (Instr.kRstamp, 0x0F), (Instr.kRlook, 0x10), (Instr.kRins, 0x11),
      (Instr.kRdel, 0x12), (Instr.kLdt, 0x13), (Instr.kLdpkt, 0x14), (Instr.kPktsend, 0x15), (Instr.kPmcrd, 0x16)],
    ∀ (e : Nat) (u : UW) (s : State), e < 96 → s.dev.issues e u = true → u.mop = x.2 → exec (x.1 e) s = .next { s with dev := s.dev.issued e u }

/-- R342, R350, R375: the same of the branch slot; FAULT raises its machine check. -/
def Obligations.BranchWordsComplete : Prop :=
  (∀ x ∈ [(Instr.kJmp, 0x01), (Instr.kBr, 0x02), (Instr.kBbs, 0x03), (Instr.kBbc, 0x04), (Instr.kCall, 0x05), (Instr.kRet, 0x06), (Instr.kJmpr, 0x07),
      (Instr.kDcall, 0x08), (Instr.kAtom, 0x09), (Instr.kEndatom, 0x0A), (Instr.kWait, 0x0B), (Instr.kYield, 0x0C), (Instr.kDone, 0x0D),
      (Instr.kIret, 0x0E)],
    ∀ (e : Nat) (u : UW) (s : State), e < 96 → s.dev.issues e u = true → u.bop = x.2 → exec (x.1 e) s = .next { s with dev := s.dev.issued e u }) ∧
  ∀ (e : Nat) (u : UW) (s : State), e < 96 → s.dev.canIssue e = true → s.dev.nextWord e = u → s.dev.csGood (e / 8) (s.dev.engOf e).ctx.upc = true →
    (s.dev.engOf e).stalled u = false → s.dev.causes e (s.dev.engOf e) u = [9] → u.bop = 0x0F →
    exec (.kFault e) s = .next { s with dev := s.dev.mcheck e 9 (s.dev.engOf e).ctx.upc false }

/-- R342, R360, R364–R366, R372, R387, R389, R391, R24: the events of the engines run. -/
def Obligations.EngineEventsComplete : Prop :=
  ∀ (s : State) (p : Path) (e n k off beats : Nat) (i : Infl) (w : Win) (role : Bool) (req : List Nat) (v : Word),
    (e < 96 → (s.dev.engOf e).infl.find? (fun i => i.vals.isSome) = some i → (s.dev.engOf e).turn = none →
      exec (.memoryResultReturn e) s = .next { s with dev := (s.dev.ldhTime e).updEng e (fun g => g.land i (i.vals.getD [])) }) ∧
    (e < 96 → lowIrq (s.dev.engOf e).irqs = some n → s.dev.canIssue e = true → (s.dev.engOf e).handler = none → (s.dev.engOf e).win = none →
      exec (.engineInterrupt e) s = .next { s with dev := s.dev.takeIrq e n }) ∧
    (e < 96 → s.dev.takes p R.KSN_ENG_IRQ (engIx e) 1 = true → exec (.hostInterruptRaise p e) s = .next { s with dev := s.dev.raiseIrq e 3 }) ∧
    (e < 96 → (s.dev.engOf e).win = some w → lowIrq (s.dev.engOf e).irqs = none →
      exec (.atomicWindowLimit e) s = .next { s with dev := (s.dev.updEng e Eng.restoreWin).mcheck e 6 w.at_ false }) ∧
    (e < 96 → (s.dev.engOf e).win = some w → lowIrq (s.dev.engOf e).irqs = some n → (s.dev.engOf e).handler = none →
      exec (.atomicWindowLimit e) s = .next { s with dev := ((s.dev.updEng e Eng.restoreWin).pmc e 0x0C 1).takeIrq e n }) ∧
    (e < 96 → exec (.workItemTake e) s = .next { s with dev := s.dev.itemTake e }) ∧
    (e < 96 → s.dev.takes p R.KSN_ENG_RESET (engIx e) 1 = true → exec (.engineResetWrite p e) s = .next { s with dev := s.dev.engResetAll e false }) ∧
    (e < 96 → s.dev.takes p R.KSN_ENG_CFG (engIx e) (2 * b2n role) = true → exec (.roleWrite p e role) s = .next { s with dev := s.dev.roleWrite p e role }) ∧
    (e < 96 → exec (.roleSwitch e) s = .next { s with dev := s.dev.roleSwitch e }) ∧
    (k < 12 → req.all (below 9) = true → 1 ≤ beats → beats ≤ 64 → exec (.clusterBusGrant k req beats) s = .next { s with dev := s.dev.busGrant k req beats }) ∧
    (k < 12 → off < 0x20000 → s.dev.reaches p = true → s.dev.behind p (apertureOff k off) = false → s.dev.accErr (apertureOff k off) = none →
      exec (.scratchApertureAccess p k off none) s = .next { s with dev := s.dev.scrAccess p k (off / 4 * 4) none } ∧
      exec (.scratchApertureAccess p k off (some v)) s = .next { s with dev := s.dev.scrAccess p k (off / 4 * 4) (some v) } ∧
      exec (.apertureTimeout p k off none) s = .next { s with dev := (s.dev.ret p 0).hostAcc p 4 (apertureOff k off) 0 false } ∧
      exec (.apertureTimeout p k off (some v)) s = .next { s with dev := s.dev.hostAcc p 4 (apertureOff k off) v.toNat true }) ∧
    (k < 12 → n < 8 → s.dev.takes p R.PMC_EVSEL (clIx k ++ [n]) v.toNat = true →
      exec (.pmcEvselWrite p k n v) s = .next { s with dev := s.dev.evselWrite k n v.toNat })

/-- R406–R409, R416–R418: the commands and events of the task schedulers run. -/
def Obligations.TaskCommandsComplete : Prop :=
  ∀ (s : State) (p : Path) (d slot line e : Nat) (v : Word), d < 2 → slot < 512 →
    (s.dev.takes p R.TSK_CMD [d] (0x10000000 + slot) = true → exec (.tskCreate p d slot) s = .next { s with dev := s.dev.tskCreate d slot }) ∧
    (s.dev.takes p R.TSK_CMD [d] (0x20000000 + slot) = true → exec (.tskKill p d slot) s = .next { s with dev := s.dev.tskKill d slot }) ∧
    (s.dev.takes p R.TSK_CMD [d] (0x30000000 + slot) = true → exec (.tskRequeue p d slot) s = .next { s with dev := s.dev.tskRequeue d slot }) ∧
    (s.dev.takes p R.TSK_CMD [d] (0x40000000 + slot) = true → exec (.tskSetprio p d slot) s = .next { s with dev := s.dev.tskSetprio d slot }) ∧
    (exec (.slotTimerExpire d slot) s = .next { s with dev := s.dev.slotTimer d slot }) ∧
    (line < 12 → (s.dev.tsk.edges.get d).contains line = true → s.dev.bit R.TSK_LINE [d, line] "EN" = true →
      let x := { s.dev with tsk := { s.dev.tsk with edges := s.dev.tsk.edges.upd d (·.erase line) } }
      exec (.eventLine d line) s =
        .next { s with dev := x.setEvents d (x.get R.TSK_LINE [d, line] "SLOT") (2 ^ x.get R.TSK_LINE [d, line] "BIT") }) ∧
    (s.dev.takes p R.TSK_SLOT_EVT [d, slot] v.toNat = true →
      exec (.slotEventWrite p d slot v) s = .next { s with dev := s.dev.setEvents d slot (v.toNat % 2 ^ 31) }) ∧
    (e < 96 → exec (.watchdogBite e) s = .next { s with dev := s.dev.watchdogBite e })

/-- R426, R441–R453, R471–R475, R487, R489, R547, R551: fabric, spill, egress and stream events run. -/
def Obligations.FabricAndEgressEventsComplete : Prop :=
  ∀ (s : State) (p : Path) (g eg voq port c r : Nat) (x : Nat × Xfer) (err : Bool) (v : Word), g < 4 → eg < 4 → voq < 520 → port < 64 → c < 8 → r < 512 →
    (let a := s.dev.arrivals
      let b := if a.compat then a.slotCompat else a.slotNative
      let c := if a.running then { b with buf := { b.buf with slot := b.buf.slot + 1 } } else a
      exec .fabricSlotMatch s = .next { s with dev := c.buf.xfer.foldl Dev.cutArrive c }) ∧
    (s.dev.xferDone g eg = some x → exec (.fabricTransferComplete g eg err) s = .next { s with dev := s.dev.finishXfer g eg x.1 x.2 err false }) ∧
    (exec (.reseqTimeout eg) s = .next { s with dev := s.dev.reseqTimeout eg }) ∧
    (exec (.spillPageWrite g voq err) s = .next { s with dev := s.dev.spillWrite g voq err }) ∧
    (exec (.wadiRefill g voq) s = .next { s with dev := s.dev.wadiRefill g voq }) ∧
    (exec (.wadiPageReturn g voq err) s = .next { s with dev := s.dev.wadiReturn g voq err }) ∧
    (exec (.frameTransmitComplete port err) s = .next { s with dev := s.dev.txEnd port err }) ∧
    (exec (.shaperRefill port none) s = .next { s with dev := s.dev.shaperRefill port none } ∧
      exec (.shaperRefill port (some c)) s = .next { s with dev := s.dev.shaperRefill port (some c) }) ∧
    ((s.dev.egrOf port).pause ≠ 0 →
      exec (.pauseExpire port none) s = .next { s with dev := (s.dev.updEgr port (fun g => { g with pause := 0 })).select port }) ∧
    ((s.dev.egrOf port).pfc.getD c 0 ≠ 0 →
      exec (.pauseExpire port (some c)) s = .next { s with dev := (s.dev.updEgr port (fun g => { g with pfc := setAt g.pfc c 0 })).select port }) ∧
    (exec (.pfcRenew port) s = .next { s with dev := s.dev.pfcRenew port }) ∧
    (s.dev.takes p R.SCH_GATE_CTL (schP port) v.toNat = true → exec (.gateChangeRequest p port v) s = .next { s with dev := s.dev.gateCtlWrite p port v.toNat }) ∧
    (s.dev.bit R.SCH_GATE_CTL (schP port) "PENDING" = true → exec (.gateConfigChange port) s = .next { s with dev := s.dev.gateConfig port }) ∧
    (s.dev.bit R.SCH_GATE_CTL (schP port) "OPER" = true → (s.dev.egrOf port).olen ≠ 0 →
      exec (.gateEntryChange port) s = .next { s with dev := s.dev.gateEntry port }) ∧
    (s.dev.get R.TSN_RCV_W0 (rw g ++ [r]) "RESET_MS" ≠ 0 → s.dev.bit R.TSN_RCV_W0 (rw g ++ [r]) "VALID" = true →
      exec (.recoveryResetTimeout g r) s =
        .next { s with dev := (s.dev.put R.TSN_RCV_ST (rw g ++ [r]) "FRESH" 1).bump R.TSN_RCV_CNT (rw g ++ [r] ++ [6]) "COUNT" 1 }) ∧
    (exec (.ledPeriodEnd g r) s = .next { s with dev := s.dev.ledPeriod g r })

/-- R499, R505–R508, R511–R514, R518, R520: the events of the HBM controllers run; a slot goes to an overdue refresh, then to the oldest read past its panic
age, then to a page read under panic; a drain begins at HI writes and ends at LO; all of a bucket and all of its mirror copy lie in one row of one bank. -/
def Obligations.HbmEventsComplete : Prop :=
  ∀ (s : State) (rd : HbmRead) (arr : List HbmReq) (ch u bank stack c i b o : Nat) (t : Int),
    let p := s.dev.pch ch u
    let page := p.rq.findIdx? (fun w => w.req.req == 7)
    (hbmReadOk rd = true → rd.arr.all (s.dev.reqOk (48 * rd.d + rd.ch)) = true →
      exec (.hbmReadComplete rd) s = .next { s with dev := s.dev.hbmRead rd }) ∧
    (panicOk ch u arr = true → arr.all (s.dev.reqOk ch) = true → exec (.panicRaise ⟨ch, u⟩ arr) s = .next { s with dev := s.dev.panicRaise ch u arr }) ∧
    (ch < 96 → u < 2 → bank < 32 → s.dev.asleep ch = false → p.rq = [] → p.wq = [] → p.owed = [] →
      ∃ d, exec (.refreshDue ch u bank) s = .next { s with dev := d } ∧ (d.pch ch u).owed = [] ∧ (d.pch ch u).openRow bank = none) ∧
    (p.overdue = some bank → (s.dev.pick ch u).1 = .refresh bank) ∧
    (p.overdue = none → p.rq.findIdx? (s.dev.panicked ch) = some i → (s.dev.pick ch u).1 = .read i) ∧
    (p.overdue = none → p.rq.findIdx? (s.dev.panicked ch) = none → s.dev.srPanic (ch / 48) (ch % 48) u = true → page = some i → (s.dev.pick ch u).1 = .read i) ∧
    (s.dev.get R.MEM_WDRAIN [ch / 48] "HI" ≤ p.wq.length → ((s.dev.drainState ch u).pch ch u).drain = true) ∧
    (s.dev.get R.MEM_WDRAIN [ch / 48] "LO" < s.dev.get R.MEM_WDRAIN [ch / 48] "HI" → p.wq.length ≤ s.dev.get R.MEM_WDRAIN [ch / 48] "LO" →
      ((s.dev.drainState ch u).pch ch u).drain = false) ∧
    (stack < 6 → b < 2 ^ 23 → o < 512 →
      flowAt stack (bucketSa b + o) = flowPart stack b o false ∧ flowAt (mirrorStack stack) (mirrorSa b + o) = flowPart stack b o true ∧
      { saMap (bucketSa b + o) with col := 0 } = { saMap (bucketSa b) with col := 0 } ∧
      { saMap (mirrorSa b + o) with col := 0 } = { saMap (bucketSa b) with row := (saMap (bucketSa b)).row + 4096, col := 0 }) ∧
    (stack < 6 → -128 ≤ t → t < 105 → s.dev.glb.mode ≠ .cold →
      exec (.stackTempReading stack t) s = .next { s with dev := (s.dev.stackTemp stack t).alertPin }) ∧
    (stack < 6 → c < 16 → s.dev.tracks (stack / 3) = true →
      exec (.readEyeRecentre stack (some c)) s = .next { s with dev := s.dev.trainEvent stack 0 6 c }) ∧
    (stack < 6 → c < 16 → s.dev.tracks (stack / 3) = false → exec (.readEyeRecentre stack (some c)) s = .next s) ∧
    (stack < 6 → exec (.readEyeRecentre stack none) s = .next s)

/-- R533–R537, R553–R567: the commands and events of ports, links and lanes run. -/
def Obligations.PortAndLinkEventsComplete : Prop :=
  ∀ (s : State) (p : Path) (port lane skew g n : Nat) (admin tx : Bool) (l : Loss) (v : Word), port < 64 → lane < 64 → g < 4 → n < 8 →
    let ix := [g / 2, g % 2, n]
    (s.dev.takes p R.MAC_PORT_CTL (macIx port) (b2n admin) = true → exec (.portAdminWrite p port admin) s = .next { s with dev := s.dev.adminWrite port admin }) ∧
    (exec (.linkLockAcquired port skew) s = .next { s with dev := s.dev.lockAcquired port skew }) ∧
    (s.dev.linkState port = 2 → exec (.linkUpDebounceExpire port) s = .next { s with dev := s.dev.enterUp port }) ∧
    (port ≤ lane → lane < port + modeLanes (s.dev.portMode port) → exec (.lossCondition port lane l) s = .next { s with dev := s.dev.lossAt port lane l }) ∧
    (s.dev.linkState port = 4 → exec (.linkDownDeclare port) s = .next { s with dev := s.dev.declareDown port false }) ∧
    (s.dev.bit R.MAC_LINK (macIx port) "HOLD" = true →
      (s.dev.activePort port = port → exec (.holdExpire port) s = .next { s with dev := (s.dev.flushPort port).linkChg port }) ∧
      (s.dev.activePort port ≠ port → exec (.holdExpire port) s = .next { s with dev := (s.dev.put R.MAC_LINK (macIx port) "HOLD" 0).linkChg port })) ∧
    (s.dev.bit R.MAC_PROT ix "EN" = true → s.dev.bit R.MAC_PROT ix "REVERT" = true → s.dev.bit R.MAC_PROT ix "ACTIVE" = true →
      s.dev.linkUp (16 * g + s.dev.get R.MAC_PROT ix "WORK") = true → s.dev.egr.revert.contains (8 * g + n) = false →
      exec (.wtrExpire g n) s = .next { s with dev := { s.dev with egr := { s.dev.egr with revert := s.dev.egr.revert ++ [8 * g + n] } } }) ∧
    (s.dev.bit R.MAC_PROT ix "REVERT" = true → s.dev.egr.revert.contains (8 * g + n) = true → (s.dev.egrOf (16 * g + s.dev.get R.MAC_PROT ix "PROT")).tx = none →
      exec (.protectionRevert g n) s = .next { s with dev := s.dev.switchOver g n }) ∧
    (s.dev.takes p R.MAC_PROT ix v.toNat = true →
      exec (.protectionGroupWrite p g n v) s = .next { s with dev := s.dev.protWrite p g n v.toNat }) ∧
    (s.dev.takes p R.SDS_PRBS_CTL (macIx lane) (s.dev.setWord R.SDS_PRBS_CTL (macIx lane) "INJ_BIT") = true →
      exec (.injBit p lane) s = .next { s with dev := s.dev.prbsWrite (macIx lane) (s.dev.setWord R.SDS_PRBS_CTL (macIx lane) "INJ_BIT") }) ∧
    (s.dev.takes p R.SDS_PRBS_CTL (macIx lane) (s.dev.setWord R.SDS_PRBS_CTL (macIx lane) "INJ_BURST") = true →
      exec (.injBurst p lane) s = .next { s with dev := s.dev.prbsWrite (macIx lane) (s.dev.setWord R.SDS_PRBS_CTL (macIx lane) "INJ_BURST") }) ∧
    (s.dev.bit R.SDS_PRBS_CTL (macIx lane) "CHK_EN" = true → s.dev.lanesOn = true →
      let d := if s.dev.bit R.SDS_RX_STAT (macIx lane) "CDR_LOCK" then s.dev else s.dev.laneLocked lane
      exec (.prbsCheckerLock lane) s = .next { s with dev := d.put R.SDS_PRBS_STAT (macIx lane) "CHK_LOCK" 1 }) ∧
    (exec (.prbsCheckerLoss lane) s = .next { s with dev := s.dev.prbsLoss lane }) ∧
    (exec (.sdsPllLossOfLock lane tx) s = .next { s with dev := s.dev.pllLoss lane tx })

/-- R575–R593: the commands and events of the time base run. -/
def Obligations.TimeCommandsComplete : Prop :=
  ∀ (s : State) (p : Path) (d n k g raw : Nat) (c : TimCmd), d < 2 → n < 8 → k < 4 → g < 4 → raw < 2 ^ 64 →
    (s.dev.takes p R.TIM_CMD [] 0x10000000 = true → exec (.timRate p) s = .next { s with dev := s.dev.timCommand p 1 }) ∧
    (s.dev.takes p R.TIM_CMD [] 0x20000000 = true → exec (.timStep p) s = .next { s with dev := s.dev.timCommand p 2 }) ∧
    (s.dev.takes p R.TIM_CMD [] 0x30000000 = true → exec (.timSet p) s = .next { s with dev := s.dev.timCommand p 3 }) ∧
    (s.dev.takes p R.TIM_CMD [] 0x40000000 = true → exec (.timCancel p) s = .next { s with dev := s.dev.timCancel }) ∧
    (s.dev.tim.cmd = some c → c.arrived = false → timRange s.dev.tim c = false → s.dev.tim.raw.d0 + 128 ≤ c.e →
      exec .timeCommandArrive s = .next { s with dev := { s.dev with tim := { s.dev.tim with cmd := some { c with arrived := true } } } }) ∧
    (exec .timeEpochReached s = .next { s with dev := s.dev.epochReached }) ∧
    (exec .refLost s = .next { s with dev := s.dev.refLost }) ∧
    (exec .refRelock s = .next { s with dev := s.dev.refRelock }) ∧
    (s.dev.bit R.TIM_ETMR_CTL [d, n] "EN" = true → exec (.eventTimerFire d n) s = .next { s with dev := s.dev.timerFire d n }) ∧
    (s.dev.get R.TIM_IO_CFG [k] "FUNC" = 1 → exec (.ppsOutput k) s = .next { s with dev := s.dev.pinAssert k }) ∧
    (exec (.outputPulseEnd k) s = .next { s with dev := s.dev.pin k (fun q => { q with out := false }) }) ∧
    (s.dev.get R.TIM_IO_CFG [k] "FUNC" = 2 → exec (.triggerCapture k) s = .next { s with dev := s.dev.trigCapture k }) ∧
    (s.dev.shows p R.TIM_NOW_NS [d] = true → exec (.timeCaptureRead p d) s = .next { s with dev := s.dev.nowRead p d }) ∧
    (s.dev.shows p R.TIM_TRIG_NS [k] = true → exec (.triggerRead p k) s = .next { s with dev := s.dev.trigRead p k }) ∧
    (exec (.stampEntry g raw) s = .next { s with dev := s.dev.stampEnter g raw }) ∧
    (s.dev.shows p R.TIM_TSQ_W0 [g / 2, g % 2] = true → exec (.stampQueuePop p g) s = .next { s with dev := s.dev.stampPop p g })

/-- R601, R605, R608, R616, R671–R682: error records, injections, quiescing and the commands of trace run: an event of a source that can act is recorded by the
source's own operation, with its armed response (log entry 153); every other is recorded. -/
def Obligations.ErrorAndTraceCommandsComplete : Prop :=
  ∀ (s : State) (p : Path) (d e : Nat) (v : Word) (ev : ErrEvent), d < 2 →
    (∀ x, evOk ev = true → s.dev.eventOp ev = some x → exec (.errorRecord ev) s = .next { s with dev := x }) ∧
    (evOk ev = true → s.dev.eventOp ev = none → s.dev.injArmed ev.d ev.code ev.inst = false →
      exec (.errorRecord ev) s = .next { s with dev := s.dev.errEvent ev }) ∧
    (evOk ev = true → s.dev.eventOp ev = none → s.dev.injArmed ev.d ev.code ev.inst = true →
      exec (.errorRecord ev) s = .next { s with dev := (s.dev.injPlanted ev.d).errEvent ev true }) ∧
    (s.dev.takes p R.ERR_INJ [d] v.toNat = true → hasBit v.toNat 31 = true → hasBit v.toNat 30 = false →
      exec (.injectionArm p d v) s = .next { s with dev := s.dev.injArm p d v.toNat }) ∧
    (s.dev.takes p R.ERR_INJ [d] (s.dev.setWord R.ERR_INJ [d] "CANCEL") = true →
      exec (.injectionCancel p d) s = .next { s with dev := (s.dev.injFields d (s.dev.setWord R.ERR_INJ [d] "CANCEL")).injCancel d }) ∧
    (s.dev.takes p R.ERR_QUIESCE [d] v.toNat = true → exec (.quiesceWrite p d v) s = .next { s with dev := s.dev.fieldsWrite R.ERR_QUIESCE [d] v.toNat }) ∧
    (s.dev.takes p R.TRC_CTL [d] (s.dev.setWord R.TRC_CTL [d] "CLR") = true →
      exec (.traceClear p d) s = .next { s with dev := s.dev.trcCtl d (s.dev.setWord R.TRC_CTL [d] "CLR") }) ∧
    (s.dev.takes p R.TRC_CTL [d] v.toNat = true → exec (.traceEnable p d v) s = .next { s with dev := s.dev.trcCtl d v.toNat }) ∧
    (s.dev.takes p R.TRC_MARK [d] v.toNat = true → exec (.traceMark p d v) s = .next { s with dev := s.dev.trace d 6 1 (leBytes 4 v.toNat) }) ∧
    ((s.dev.trc.get d).post = some 0 →
      let x := (s.dev.put R.TRC_STAT [d] "STOPPED" 1).put R.TRC_CTL [d] "EN" 0
      exec (.traceStopCountExpire d) s = .next { s with dev := { x with trc := x.trc.upd d (fun t => { t with post := none }) } }) ∧
    (e < 96 → exec (.engPcSample e) s = .next { s with dev := s.dev.engTrace e 3 0 }) ∧
    (s.dev.shows p R.TRC_RD_DATA [d, 0] = true → exec (.traceRecordLatch p d) s = .next { s with dev := s.dev.trcLatch p d })

/-- R276–R281, R288–R290, R305: the commands of the TCAM, the exact and direct tables and the counters run. -/
def Obligations.MatchCommandsComplete : Prop :=
  ∀ (s : State) (p : Path) (g prof index table di block row flip : Nat) (v : Word), g < 4 → prof < 16 → index < 32768 → table < 256 → di < 2 ^ 20 →
    block < 16 → row < 2048 →
    let ix := [g / 2, g % 2]
    (s.dev.takes p R.MAT_TCAM_CMD ix (2 ^ 28 + prof * 2 ^ 24 + index) = true →
      let x := { s.dev with mat := { s.dev.mat with flip := flip } }.tcamWrite g prof index
      exec (.tcamWrite p g prof ⟨index, flip⟩) s = .next { s with dev := { x with mat := { x.mat with flip := 0 } } }) ∧
    (s.dev.takes p R.MAT_TCAM_CMD ix (2 * 2 ^ 28 + prof * 2 ^ 24 + index) = true →
      exec (.tcamInvalidate p g prof index) s = .next { s with dev := s.dev.tcamInvalidate g prof index }) ∧
    (s.dev.takes p R.MAT_TCAM_CMD ix (3 * 2 ^ 28 + prof * 2 ^ 24 + index) = true →
      exec (.tcamRead p g prof index) s = .next { s with dev := s.dev.tcamRead g prof index }) ∧
    (s.dev.takes p R.MAT_TCAM_CMD ix (4 * 2 ^ 28 + prof * 2 ^ 24 + index) = true →
      exec (.tcamReadArray p g prof index) s = .next { s with dev := s.dev.tcamReadArray g prof index }) ∧
    (exec (.tcamScrubVisit g block row) s = .next { s with dev := s.dev.tcamScrub g block row }) ∧
    (s.dev.takes p R.MAT_EX_CMD ix (2 ^ 28 + table * 2 ^ 20) = true → exec (.exLookup p g table) s = .next { s with dev := s.dev.exLookup g table }) ∧
    (s.dev.takes p R.MAT_EX_CMD ix (2 * 2 ^ 28 + table * 2 ^ 20) = true → exec (.exInsert p g table) s = .next { s with dev := s.dev.exInsert g table }) ∧
    (s.dev.takes p R.MAT_EX_CMD ix (3 * 2 ^ 28 + table * 2 ^ 20) = true → exec (.exDelete p g table) s = .next { s with dev := s.dev.exDelete g table }) ∧
    (s.dev.takes p R.MAT_EX_CMD ix (4 * 2 ^ 28 + table * 2 ^ 20) = true → exec (.exReplace p g table) s = .next { s with dev := s.dev.exReplace g table }) ∧
    (s.dev.takes p R.MAT_EX_CMD ix (5 * 2 ^ 28 + table * 2 ^ 20 + di) = true →
      exec (.dirWrite p g table di) s = .next { s with dev := s.dev.dirWrite g table di }) ∧
    (s.dev.takes p R.MAT_EX_CMD ix (6 * 2 ^ 28 + table * 2 ^ 20 + di) = true →
      exec (.dirRead p g table di) s = .next { s with dev := s.dev.dirRead g table di }) ∧
    (s.dev.takes p R.MAT_CNT_SEL ix v.toNat = true → exec (.counterSnapshot p g v) s = .next { s with dev := s.dev.cntSnapshot g v.toNat })

/-- R295, R296, R302, R309, R323, R331, R340: the commands of the L2 tables and of the action, cell-plan and balancer stores run. -/
def Obligations.L2AndActionCommandsComplete : Prop :=
  ∀ (s : State) (p : Path) (d i index z : Nat) (fidm : Bool) (v : Word), d < 2 → i < 2 ^ 19 → index < 2 ^ 18 → z < 65536 →
    (exec (.l2LearnApply d) s = .next { s with dev := s.dev.l2Learn d }) ∧
    (exec (.l2SweepVisit d i) s = .next { s with dev := s.dev.l2Sweep d i }) ∧
    (s.dev.takes p R.L2_HCMD [d] 1 = true → exec (.l2Lookup p d) s = .next { s with dev := s.dev.l2Lookup d }) ∧
    (s.dev.takes p R.L2_HCMD [d] 2 = true → exec (.l2Insert p d) s = .next { s with dev := s.dev.l2Insert d }) ∧
    (s.dev.takes p R.L2_HCMD [d] 3 = true → exec (.l2Delete p d) s = .next { s with dev := s.dev.l2Delete d }) ∧
    (s.dev.takes p R.L2_HCMD [d] (4 + 256 * b2n fidm) = true → exec (.l2Flush p d fidm) s = .next { s with dev := s.dev.l2Flush d fidm }) ∧
    (s.dev.takes p R.ACT_CMD [d] (2 ^ 28 + index) = true → exec (.actWrite p d index) s = .next { s with dev := s.dev.actWrite d index }) ∧
    (s.dev.takes p R.ACT_CMD [d] (2 * 2 ^ 28 + index) = true → exec (.actRead p d index) s = .next { s with dev := s.dev.actRead d index }) ∧
    (s.dev.takes p R.CP_ENT_W0 [d, z] v.toNat = true → exec (.cpEntWrite p d z 0 v) s = .next { s with dev := s.dev.cpWrite d z 0 v.toNat }) ∧
    (s.dev.takes p R.CP_ENT_W1 [d, z] v.toNat = true → exec (.cpEntWrite p d z 1 v) s = .next { s with dev := s.dev.cpWrite d z 1 v.toNat }) ∧
    (s.dev.takes p R.BAL_CMD [d] (2 ^ 28) = true → exec (.balGwrite p d) s = .next { s with dev := s.dev.balGwrite d }) ∧
    (s.dev.takes p R.BAL_CMD [d] (2 * 2 ^ 28) = true → exec (.balGread p d) s = .next { s with dev := s.dev.balGread d }) ∧
    (s.dev.takes p R.BAL_CMD [d] (3 * 2 ^ 28) = true → exec (.balMwrite p d) s = .next { s with dev := s.dev.balMwrite d }) ∧
    (s.dev.takes p R.BAL_CMD [d] (4 * 2 ^ 28) = true → exec (.balMread p d) s = .next { s with dev := s.dev.balMread d }) ∧
    (s.dev.takes p R.BAL_CMD [d] (5 * 2 ^ 28) = true → exec (.balLwrite p d) s = .next { s with dev := s.dev.balLwrite d }) ∧
    (s.dev.takes p R.BAL_CMD [d] (6 * 2 ^ 28) = true → exec (.balLread p d) s = .next { s with dev := s.dev.balLread d })

/-- R622–R637, R708: the commands of the host rings and endpoints run; of the host's accesses to an endpoint, a word of the MSI-X table takes what a write gives
it and reads so, and one that the endpoint does not take completes as Unsupported Request or Configuration Request Retry Status, or is discarded (log entry 158). -/
def Obligations.HostRingCommandsComplete : Prop :=
  ∀ (s : State) (p : Path) (t d c ep vec v speed width off : Nat) (en mem bus d3 : Bool) (desc : List Byte) (frame : List Byte) (w : Word),
    (t < 64 → v < 65536 → s.dev.takes p R.HIF_TX_TAIL [t] v = true → exec (.txDoorbell p t v) s = .next { s with dev := s.dev.fieldsWrite R.HIF_TX_TAIL [t] v }) ∧
    (t < 64 → desc.length = 32 → frame.length = leAt desc 8 2 →
      exec (.txDescriptorProcess t desc (some frame)) s = .next { s with dev := s.dev.txProcess t desc (some frame) }) ∧
    (t < 64 → desc.length = 32 → exec (.txDescriptorProcess t desc none) s = .next { s with dev := s.dev.txProcess t desc none }) ∧
    (t < 64 → exec (.txStallRetry t) s = .next { s with dev := s.dev.txRetry t }) ∧
    (d < 2 → t < (if d = 0 then 64 else 8) → v < 65536 → s.dev.takes p R.HIF_RX_TAIL [d, t] v = true →
      exec (.rxDoorbell p d t v) s = .next { s with dev := s.dev.fieldsWrite R.HIF_RX_TAIL [d, t] v }) ∧
    (d < 2 → c < 8 → desc.length = 32 → exec (.rxFrameDeliver d c desc) s = .next { s with dev := s.dev.rxDeliver d c desc }) ∧
    (s.dev.takes p R.HIF1_CTL [] (b2n en) = true → exec (.excEnWrite p en) s = .next { s with dev := s.dev.fieldsWrite R.HIF1_CTL [] (b2n en) }) ∧
    (ep < 2 → vec < epVecs ep → exec (.msixUnmask ep (.unmask vec)) s = .next { s with dev := s.dev.unmask ep vec }) ∧
    (ep < 2 → off < 4096 → off % 4 = 0 → s.dev.epLinked ep = true →
      (s.dev.epTakes ep = false → exec (.msixUnmask ep (.write off w)) s = .next s ∧
        exec (.msixUnmask ep (.read off)) s = .next { s with dev := s.dev.updEp ep (fun e => { e with cpl := .unsupported }) }) ∧
      (s.dev.epTakes ep = true → off / 16 = 0x80 + vec → vec < epVecs ep →
        exec (.msixUnmask ep (.write off w)) s = .next { s with dev := s.dev.updEp ep (fun e => e.setVecWord vec (off / 4 % 4) w.toNat) } ∧
        exec (.msixUnmask ep (.read off)) s =
          .next { s with dev := s.dev.updEp ep (fun e => { e with cpl := .data ((s.dev.hif.ep.get ep).vecWord vec (off / 4 % 4)) }) }) ∧
      ((s.dev.hif.ep.get ep).ready = false →
        exec (.msixUnmask ep (.readConfig off)) s = .next { s with dev := s.dev.updEp ep (fun e => { e with cpl := .retry }) } ∧
        exec (.msixUnmask ep (.config mem bus d3)) s = .next { s with dev := s.dev.updEp ep (fun e => { e with cpl := .retry }) }) ∧
      ((s.dev.hif.ep.get ep).ready = true →
        exec (.msixUnmask ep (.readConfig off)) s = .next { s with dev := s.dev.cfgRead ep off } ∧
        exec (.msixUnmask ep (.config mem bus d3)) s =
          .next { s with dev := s.dev.updEp ep (fun e => { e with memEn := mem, busEn := bus, d3 := d3 }.release) })) ∧
    (ep < 2 → exec (.pcieLinkDown ep) s =
      .next { s with dev := { s.dev with hif := { s.dev.hif with ep := s.dev.hif.ep.upd ep (fun e => { e with up := false }) } }.setW R.HIF_STAT [ep] 0 }) ∧
    (linkOk ep speed width = true → exec (.pcieLinkUp ep speed width) s = .next { s with dev := s.dev.epBack ep speed width })

/-- R640–R649: the frames and events of the galley chain run: a part acts on a request addressed to it that arrives whole with a good CRC. -/
def Obligations.GalleyFramesComplete : Prop :=
  ∀ (s : State) (p : Path) (down : Bool) (fr a : List Byte) (l : List (List Byte)), s.dev.glb.mode ≠ .cold →
    (galGood fr = true → s.dev.galMine fr = false →
      exec (.galleyFrameForward down fr) s = .next { s with dev := (s.dev.galSig down 1).galForward down fr }) ∧
    (∀ x ∈ [(Instr.galleyEnum, 1), (Instr.galleyIdent, 2), (Instr.galleyStatus, 3), (Instr.galleyRd, 4), (Instr.galleyWr, 5), (Instr.galleyReset, 6),
        (Instr.galleyTime, 7), (Instr.galleyErrlog, 8)],
      galCmd fr = x.2 → hasBit (byteAt fr 2) 7 = false → galGood fr = true → s.dev.galMine fr = true →
      exec (x.1 down fr) s = .next { s with dev := ((s.dev.galSig down 1).galForward down fr).galAct down fr }) ∧
    (exec (.galleyLossOfSignal down) s = .next { s with dev := s.dev.galLoss down }) ∧
    (exec (.galleyAttach down) s = .next { s with dev := s.dev.galAttach down }) ∧
    (s.dev.gal.alerts = a :: l → exec .galleyAlertSend s = .next { s with dev := s.dev.galAlert }) ∧
    (s.dev.takes p R.GAL_CRED_CTL [] (2 + s.dev.get R.GAL_CRED_CTL [] "EN") = true →
      exec (.galleyCredLock p) s = .next { s with dev := s.dev.fieldsWrite R.GAL_CRED_CTL [] (2 + s.dev.get R.GAL_CRED_CTL [] "EN") })

/-- R661–R670: the commands of the security domain run. -/
def Obligations.SecurityCommandsComplete : Prop :=
  ∀ (s : State) (p : Path) (arg : Nat) (blob : Option (List Byte)) (st : List Byte) (bits : List Bool), arg < 256 →
    (s.dev.takes .pcie R.SEC_OTP_CMD [] (2 ^ 28 + arg) = true → exec (.progOroot .pcie arg blob) s = .next { s with dev := s.dev.progOroot arg blob }) ∧
    (s.dev.takes p R.SEC_OTP_CMD [] (2 * 2 ^ 28 + arg) = true → otpMode s.dev.glb.mode = true → s.dev.sec.osvn ≤ arg → arg ≤ 128 →
      arg ≤ s.dev.get R.GLB_FORME_INFO [] "SVN" →
      exec (.raiseOsvn p arg) s = .next { s with dev := ({ s.dev with sec := { s.dev.sec with osvn := arg } }.measure 8 1 0 arg []).otpDone 0 }) ∧
    (s.dev.takes p R.SEC_OTP_CMD [] (3 * 2 ^ 28 + arg) = true → otpMode s.dev.glb.mode = true → s.dev.sec.vsvn ≤ arg → arg ≤ 128 →
      s.dev.sec.vendorSvn.all (fun v => decide (arg ≤ v)) = true →
      exec (.raiseVsvn p arg) s = .next { s with dev := ({ s.dev with sec := { s.dev.sec with vsvn := arg } }.measure 8 0 0 arg []).otpDone 0 }) ∧
    (s.dev.takes p R.SEC_ATT_CMD [] 1 = true → s.dev.bit R.SEC_ATT_STAT [] "BUSY" = false → s.dev.attests = true → s.dev.bit R.SEC_STAT [] "MON" = false →
      exec (.attestationStart p) s = .next { s with dev :=
        ({ s.dev with sec := { s.dev.sec with stmt := some s.dev.statement } }.put R.SEC_ATT_STAT [] "BUSY" 1).put R.SEC_ATT_STAT [] "LOGN" s.dev.sec.logn }) ∧
    (s.dev.sec.stmt = some st → s.dev.dmaUp = true →
      exec (.attestationComplete true) s = .next { s with dev :=
        (s.dev.dma (s.dev.get R.SEC_ATT_ADDR_LO [] "ADDR_LO" + s.dev.get R.SEC_ATT_ADDR_HI [] "ADDR_HI" * 2 ^ 32)
          (st ++ sliceB (Config.slhSign s.dev.sec.seed st (ascii "VT6400-ATTEST")) 0 49856)).attDone 0 }) ∧
    (exec .monitorTrip s = .next { s with dev := s.dev.monitor.released }) ∧
    (s.dev.shows p R.SEC_MREG [0] = true → exec (.mregLatchRead p) s = .next { s with dev := s.dev.mregRead p }) ∧
    (exec .tapBypass s = .next { s with dev := { s.dev with sec := { s.dev.sec with tapBypass := true } } }) ∧
    (exec (.tapSamplePreload bits) s = .next { s with dev := { s.dev with sec := { s.dev.sec with tap := bits, tapBypass := false } } }) ∧
    (s.dev.glb.mode = .cold → exec .tapExtest s = .next { s with dev := { s.dev with sec := { s.dev.sec with tapBypass := false } } }) ∧
    (s.dev.glb.mode ≠ .cold → exec .tapExtest s = .next { s with dev := { s.dev with sec := { s.dev.sec with tapBypass := true } } })

/-! ## Host accesses -/

/-- R13, R18, R626: a host access that is not held back: a read of an RC register of one word returns its value, clears it and keeps a same-cycle
increment (what the lanes have counted up to then, a free count, is in the value); a read of the low word of a 64-bit register latches the high word; a read that meets no register or a stopped block returns 0 and is reported. -/
def Obligations.RegisterReadsComplete : Prop :=
  ∀ (s : State) (p : Path) (off inc t : Nat) (h : Hit) (f : RField), off < 2 ^ 27 → aperOf off = none → capWord off = none →
    (findReg off = some h → s.dev.shows p h.r h.ix = true → off = h.r.addr h.ix → h.high = false → h.r.wide = false →
      (h.r.is R.SEC_MREG || h.r.is R.TRC_RD_DATA) = false → readers.find? (fun r => r.1.is h.r) = none → h.r.fields.find? (fun f => f.acc == .rc) = some f →
      let d := s.dev.tally h
      exec (.clearingRead p off inc) s = .next { s with dev :=
        ((d.setW h.r h.ix (rcCleared h.r (d.getW h.r h.ix) 63 0)).withInc h.r h.ix inc).ret p (d.view p h.r h.ix % 2 ^ 32) } ∧
        (h.r.is R.SDS_PRBS_ERR = false → ∀ x : Dev, x.withInc h.r h.ix inc = x.bump h.r h.ix f.name inc)) ∧
    (findReg off = some h → s.dev.shows p h.r h.ix = true → off = h.r.addr h.ix → h.high = false → h.r.wide = true →
      readers.find? (fun r => r.1.is h.r) = none → h.r.fields.any (fun f => f.acc == .rc) = false →
      let d := s.dev.tally h
      exec (.wideLowWordRead p off) s = .next { s with dev :=
        (d.setLatch p { d.latch p with rl := some (off, d.view p h.r h.ix / 2 ^ 32) }).ret p (d.view p h.r h.ix % 2 ^ 32) }) ∧
    (s.dev.reaches p = true → s.dev.behind p off = false → s.dev.accErr off = some t →
      exec (.hostAccessErrorRead p off) s = .next { s with dev := (s.dev.ret p 0).hostAcc p t off 0 false })

/-- R13, R14: a write of a register that has no row of its own sets its RW fields, sets its W1S bits and clears its W1C bits that the word names, and a W1C
bit that the part sets in the same cycle stays set; a register on which a scheduler, a spill threshold or a PFC generator rests acts there too. -/
def Obligations.RegisterWriteActsByAccessCode : Prop :=
  ∀ (s : State) (p : Path) (off : Nat) (v hw : Word) (h : Hit), off < 2 ^ 27 → aperOf off = none → findReg off = some h → off = h.r.addr h.ix →
    h.high = false → h.r.wide = false → s.dev.takes p h.r h.ix v.toNat = true → writers.find? (fun w => w.1.is h.r) = none →
    let cur := s.dev.getW h.r h.ix
    let w := h.r.fields.foldl (fieldWrite cur v.toNat) cur % 2 ^ 32
    let keep := fun (x : Nat) => (h.r.fields.filter (fun f => f.acc == .w1c)).foldl
      (fun x f => setBits x f.hi f.lo (Nat.lor (bitsOf x f.hi f.lo) (bitsOf hw.toNat f.hi f.lo))) x
    (h.r.acts = false → exec (.registerWrite p off v hw) s = .next { s with dev := (s.dev.setW h.r h.ix w).setW h.r h.ix (keep w) }) ∧
    (h.r.acts = true →
      let d := if h.r.bucket then s.dev.shaped (fun d => d.fieldsWrite h.r h.ix v.toNat) else s.dev.fieldsWrite h.r h.ix v.toNat
      let d := if h.r.is R.BUF_SPILL_CFG || h.r.is R.BUF_PART_LOW then d.spillScan (h.ix.getD 0 0) else d
      let d := if h.r.pfc then d.pfcLook (laneOf h.ix) else d
      let d := if h.r.sched || h.r.bucket then d.lookAll else d
      exec (.registerWrite p off v hw) s = .next { s with dev := if d.glb.mode = .cold then d else d.setW h.r h.ix (keep (d.getW h.r h.ix)) })

/-! ## Engines: results and frames -/

/-- R346, R348: the ALU rows compute the table, at each width, in the arithmetic of bit vectors of that width: MOVHI, INSR, BSWAP and the CRC rows by the bits and
bytes of their results, MULHU by the product of naturals. -/
def Obligations.AluRowsComputeTheTable : Prop :=
  ∀ (u : UW) (rd : Nat → Nat), u.width < 4 →
    let n := uwBits u
    let x := BitVec.ofNat n (rd u.srca)
    let y := BitVec.ofNat n (if u.immEn then sext32 u.imm else rd u.srcb)
    let s := if u.sh = 0 then y.toNat % 64 else u.sh
    let ones := BitVec.ofNat n (2 ^ (u.imm % 64 + 1) - 1)
    (u.aop = 0x01 → aluResult u rd = (x + y).toNat) ∧ (u.aop = 0x02 → aluResult u rd = (x - y).toNat) ∧
    (u.aop = 0x03 → aluResult u rd = (x &&& y).toNat) ∧ (u.aop = 0x04 → aluResult u rd = (x ||| y).toNat) ∧
    (u.aop = 0x05 → aluResult u rd = (x ^^^ y).toNat) ∧ (u.aop = 0x06 → aluResult u rd = (x <<< s).toNat) ∧
    (u.aop = 0x07 → aluResult u rd = (x >>> s).toNat) ∧ (u.aop = 0x08 → aluResult u rd = (x.sshiftRight s).toNat) ∧
    (u.aop = 0x09 → aluResult u rd = (x.rotateRight s).toNat) ∧ (u.aop = 0x0A → aluResult u rd = y.toNat) ∧
    (u.aop = 0x0B → aluResult u rd = (BitVec.ofNat 32 u.imm ++ BitVec.ofNat 32 (rd u.srca)).toNat % 2 ^ n) ∧
    (u.aop = 0x0C → aluResult u rd = ((x >>> u.sh) &&& ones).toNat) ∧
    (u.aop = 0x0D → aluResult u rd < 2 ^ n ∧ ∀ i < n, hasBit (aluResult u rd) i =
      if u.sh ≤ i ∧ i ≤ u.sh + u.imm % 64 then x.getLsbD (i - u.sh) else (BitVec.ofNat n (rd u.dst)).getLsbD i) ∧
    (u.aop = 0x14 → aluResult u rd = x.toNat * y.toNat / 2 ^ 64 % 2 ^ n) ∧
    (u.aop = 0x17 → aluResult u rd < 2 ^ n ∧ ∀ j < n / 8, aluResult u rd / 256 ^ j % 256 = x.toNat / 256 ^ (n / 8 - 1 - j) % 256) ∧
    (u.aop = 0x18 → aluResult u rd = crc64 (rd u.srca) ((List.range (n / 8)).map (fun i => BitVec.ofNat 8 (y.toNat / 256 ^ (n / 8 - 1 - i))))) ∧
    (u.aop = 0x19 → aluResult u rd = crc32cT (rd u.srca % 2 ^ 32) ((List.range (n / 8)).map (fun i => BitVec.ofNat 8 (y.toNat / 256 ^ (n / 8 - 1 - i))))) ∧
    (u.aop = 0x0E → aluResult u rd = b2n (x == y)) ∧ (u.aop = 0x0F → aluResult u rd = b2n (x.ult y)) ∧ (u.aop = 0x10 → aluResult u rd = b2n (x.slt y)) ∧
    (u.aop = 0x11 → aluResult u rd = min x.toNat y.toNat) ∧ (u.aop = 0x12 → aluResult u rd = max x.toNat y.toNat) ∧
    (u.aop = 0x13 → aluResult u rd = (x * y).toNat) ∧
    (u.aop = 0x15 → aluResult u rd = ((List.range n).filter (fun i => x.getLsbD i)).length) ∧
    (u.aop = 0x16 → aluResult u rd ≤ n ∧ x.toNat < 2 ^ (n - aluResult u rd) ∧ (aluResult u rd < n → 2 ^ (n - aluResult u rd - 1) ≤ x.toNat))

/-- R341, R342, R348: a word whose ALU slot alone names a row writes its destination register and nothing else: w0 stays 0, the micro-PC goes to the next
address, and no other engine, no memory, no record and no thread changes. -/
def Obligations.AnAluWordWritesItsDestinationAlone : Prop :=
  ∀ x ∈ [(Instr.kAdd, 0x01), (Instr.kSub, 0x02), (Instr.kAnd, 0x03), (Instr.kOr, 0x04), (Instr.kXor, 0x05), (Instr.kShl, 0x06), (Instr.kShr, 0x07),
      (Instr.kSar, 0x08), (Instr.kRor, 0x09), (Instr.kMov, 0x0A), (Instr.kMovhi, 0x0B), (Instr.kExtr, 0x0C), (Instr.kInsr, 0x0D)]
    ++ [(Instr.kCmpeq, 0x0E), (Instr.kCmpltu, 0x0F), (Instr.kCmplts, 0x10), (Instr.kMinu, 0x11), (Instr.kMaxu, 0x12), (Instr.kMul, 0x13),
      (Instr.kMulhu, 0x14), (Instr.kPopc, 0x15), (Instr.kClz, 0x16), (Instr.kBswap, 0x17), (Instr.kCrc64, 0x18), (Instr.kCrc32c, 0x19)],
    ∀ (e : Nat) (u : UW) (s : State), e < 96 → s.dev.issues e u = true → u.aop = x.2 → u.mop = 0 → u.bop = 0 → u.dst < (s.dev.engOf e).ctx.w.length →
      ∃ t, exec (x.1 e) s = .next t ∧ (t.dev.engOf e).rd 0 = 0 ∧ (t.dev.engOf e).ctx.w.length = (s.dev.engOf e).ctx.w.length ∧
        (u.dst ≠ 0 → (t.dev.engOf e).rd u.dst = aluResult u (s.dev.engOf e).rd % 2 ^ 64) ∧
        (∀ r, r ≠ u.dst → (t.dev.engOf e).rd r = (s.dev.engOf e).rd r) ∧
        (t.dev.engOf e).ctx.upc = ((s.dev.engOf e).ctx.upc + 1) % 2 ^ 14 ∧
        { t.dev.engOf e with ctx := (s.dev.engOf e).ctx } = s.dev.engOf e ∧ (t.dev.engOf e).ctx.stack = (s.dev.engOf e).ctx.stack ∧
        (∀ j, j ≠ e → t.dev.engOf j = s.dev.engOf j) ∧ { t.dev.eng with eng := s.dev.eng.eng } = s.dev.eng ∧
        { t.dev with eng := s.dev.eng, regs := s.dev.regs, free := s.dev.free } = s.dev

/-- R349, R341: a word whose memory slot alone names a row, STL, stores the bytes of its source registers at its effective address in the engine's local
memory: every other byte reads as before, the memory keeps its canonical form, no working register and no other engine changes. -/
def Obligations.AnStlWordStoresItsBytesAlone : Prop :=
  ∀ (e : Nat) (u : UW) (s : State), e < 96 → s.dev.issues e u = true → u.mop = 0x02 → u.aop = 0 → u.bop = 0 → (s.dev.engOf e).win = none →
    let g := s.dev.engOf e
    ∃ t, exec (.kStl e) s = .next t ∧
      (∀ i (h : i < (u.storeBytes g).length), SMap.get (t.dev.engOf e).lmem (u.ea g + i) 0#8 = (u.storeBytes g)[i]) ∧
      (∀ a, a < u.ea g ∨ u.ea g + (u.storeBytes g).length ≤ a → SMap.get (t.dev.engOf e).lmem a 0#8 = SMap.get g.lmem a 0#8) ∧
      (Memory.wf g.lmem 0#8 = true → Memory.wf (t.dev.engOf e).lmem 0#8 = true) ∧
      { t.dev.engOf e with lmem := g.lmem, ctx := g.ctx } = g ∧ (t.dev.engOf e).ctx = { g.ctx with upc := (g.ctx.upc + 1) % 2 ^ 14 } ∧
      (∀ j, j ≠ e → t.dev.engOf j = s.dev.engOf j) ∧ { t.dev with eng := s.dev.eng, regs := s.dev.regs, free := s.dev.free } = s.dev

/-- R24: a reset of one engine clears its local memory, in the packet role its registers and micro-PC, increments its owner epoch, and changes no state of
any other engine and no other epoch. -/
def Obligations.AnEngineResetTouchesNoOtherEngine : Prop :=
  ∀ (s : State) (p : Path) (e : Nat), e < 96 → s.dev.takes p R.KSN_ENG_RESET (engIx e) 1 = true →
    ∃ t, exec (.engineResetWrite p e) s = .next t ∧ (t.dev.engOf e).lmem = [] ∧
      (s.dev.get R.KSN_ENG_CFG (engIx e) "ROLE" = 0 → t.dev.engOf e = Eng.zero) ∧ t.dev.epoch e = (s.dev.epoch e + 1) % 2 ^ 16 ∧
      ∀ j, j < 96 → j ≠ e → t.dev.engOf j = s.dev.engOf j ∧ t.dev.epoch j = s.dev.epoch j

/-- R218: a QACQ whose address is equal to or below one that its engine has been granted is refused with ORDER (code 2), unless the engine has four (R215):
the engine's quoins, every quoin and every record stand. -/
def Obligations.AQacqOutOfOrderIsRefused : Prop :=
  ∀ (d : Dev) (e ra tok : Nat) (wi : Bool), e < 96 → d.claims e < 4 → (d.owned e).any (fun r => decide (ra ≤ r)) = true →
    d.qacq e ra tok wi false = (d.pmc e 0x09 1).qreturn e (e / 48) tok 2 ∧ (d.qacq e ra tok wi false).heldQuoins e = d.heldQuoins e ∧
      (d.qacq e ra tok wi false).flw = d.flw

/-- R387: the bus of a cluster is granted to the requester of highest rank, which drops to the lowest; the others keep their order. -/
def Obligations.TheBusWinnerDropsToTheLowestRank : Prop :=
  ∀ (s : State) (k beats w : Nat) (req : List Nat), k < 12 → req.all (below 9) = true → 1 ≤ beats → beats ≤ 64 →
    (s.dev.busRank k).find? (fun r => req.contains r) = some w →
    ∃ t, exec (.clusterBusGrant k req beats) s = .next t ∧ t.dev.busRank k = (s.dev.busRank k).filter (· != w) ++ [w] ∧
      t.dev.bit R.KSN_BUS_STAT (clIx k) "BUSY" = true ∧ t.dev.get R.KSN_BUS_STAT (clIx k) "OWNER" = w % 16 ∧
      ∀ j, j ≠ k → t.dev.busRank j = s.dev.busRank j

/-! ## Register accesses -/

/-- R14: a W1C bit that the part sets in the cycle in which a host write clears it remains set, in every register that has W1C bits. -/
def Obligations.AW1cBitSetByThePartStaysSet : Prop :=
  ∀ (s : State) (p : Path) (off i : Nat) (v hw : Word) (h : Hit) (f : RField), off < 2 ^ 27 → aperOf off = none → findReg off = some h →
    off = h.r.addr h.ix → h.high = false → s.dev.takes p h.r h.ix v.toNat = true → f ∈ h.r.fields → f.acc = .w1c → f.lo ≤ i → i ≤ f.hi →
    hasBit hw.toNat i = true →
    ∃ t, exec (.registerWrite p off v hw) s = .next t ∧ hasBit (t.dev.getW h.r h.ix) i = true

/-- R15, R684: a read of an RC counter returns the value without an increment of the same cycle, and the counter holds that increment after the clear: every RC
register but the two whose read takes an entry off a queue. Of a 64-bit counter, the read of the low word latches the high word; the errors of a PRBS checker
saturate; SCH_QPEAK, a peak since its last read, then shows the cells of its queue at least. What a lane has counted up to the read is in the value. -/
def Obligations.AClearingReadKeepsTheSameCycleIncrement : Prop :=
  ∀ (s : State) (p : Path) (off inc : Nat) (h : Hit) (f : RField), off < 2 ^ 27 → aperOf off = none → capWord off = none → findReg off = some h →
    s.dev.shows p h.r h.ix = true → off = h.r.addr h.ix → h.high = false → (h.r.is R.FLW_QN_TORN_LOG || h.r.is R.TIM_TSQ_W0) = false →
    h.r.fields.find? (fun f => f.acc == .rc) = some f →
    let shown := (s.dev.tally h).view p h.r h.ix
    ∃ t, exec (.clearingRead p off inc) s = .next t ∧ (t.dev.latch p).last = shown % 2 ^ 32 ∧
      (h.r.wide = true → (t.dev.latch p).rl = some (off, shown / 2 ^ 32)) ∧
      bitsOf (t.dev.view p h.r h.ix) f.hi f.lo = (if h.r.is R.SDS_PRBS_ERR then min inc (2 ^ 32 - 1)
        else if h.r.is R.SCH_QPEAK then max (inc % 2 ^ 19) (s.dev.get R.SCH_QDEPTH h.ix "CELLS") else inc % 2 ^ (f.hi + 1 - f.lo))

/-- R16: a write while RWL fields are locked: the value that acts carries every locked field as it stands and every other field as written, and the write is
reported, TYPE LOCKED, exactly when it would have changed a locked field. -/
def Obligations.LockedFieldsStandAgainstAWrite : Prop :=
  ∀ (s : State) (off : Nat) (v : Word) (h : Hit), off < 2 ^ 27 → aperOf off = none → findReg off = some h → off = h.r.addr h.ix → h.high = false →
    h.r.wide = false → s.dev.shows .pcie h.r h.ix = true → s.dev.mustHold h = false → s.dev.credLocked h.r = false → s.dev.locks = true →
    writers.find? (fun w => w.1.is h.r) = none → h.r.acts = false →
    let w := s.dev.lockedValue h.r h.ix v.toNat
    let told := if w = v.toNat then s.dev else s.dev.hostAcc .pcie 1 off v.toNat true
    s.dev.writeRefused h w = 0 →
      (∀ f ∈ h.r.fields, bitsOf w f.hi f.lo = if f.acc = .rwl then bitsOf (s.dev.getW h.r h.ix) f.hi f.lo else bitsOf v.toNat f.hi f.lo) ∧
      ∃ t, exec (.registerWrite .pcie off v 0#32) s = .next t ∧ t.dev.getW h.r h.ix = (told.fieldsWrite h.r h.ix w).getW h.r h.ix ∧
        { t.dev with regs := told.regs } = told ∧
        ∀ f ∈ h.r.fields, f.acc = .rwl → bitsOf (t.dev.getW h.r h.ix) f.hi f.lo = bitsOf (s.dev.getW h.r h.ix) f.hi f.lo

/-- R18: a write of the low word of a 64-bit register is staged and changes nothing but the path's write latch; the write of the high word that follows sets
both halves. Said of TIM_EPOCH with no time command pending. -/
def Obligations.ALowWordIsStagedForItsHighWord : Prop :=
  ∀ (s : State) (p : Path) (lo hi : Word), s.dev.shows p R.TIM_EPOCH [] = true → s.dev.mustHold ⟨R.TIM_EPOCH, [], false⟩ = false →
    s.dev.bit R.TIM_CMD_STAT [] "PENDING" = false → (s.dev.latch p).wl = none →
    let off := R.TIM_EPOCH.addr []
    ∃ t u, exec (.registerWrite p off lo 0#32) s = .next t ∧ t.dev.getW R.TIM_EPOCH [] = s.dev.getW R.TIM_EPOCH [] ∧
      (t.dev.latch p).wl = some (off, lo.toNat) ∧ exec (.registerWrite p (off + 4) hi 0#32) t = .next u ∧
      u.dev.getW R.TIM_EPOCH [] = hi.toNat * 2 ^ 32 + lo.toNat ∧ (u.dev.latch p).wl = none

/-- R64, R77, R626, R649: a write of GLB_RESET with PKG = 1 and a wrong CONFIRM, a FLUSH outside DRAIN, a write where no register stands, and a write of a
locked galley key: each does nothing but report a host access error, of TYPE VALUE (3), VALUE, ABSENT (5) and LOCKED (1). -/
def Obligations.RefusedWritesOnlyReport : Prop :=
  ∀ (s : State) (p : Path) (v : Word) (off t n : Nat),
    (s.dev.takes p R.GLB_RESET [] v.toNat = true → v.toNat % 2 = 1 → v.toNat / 2 ^ 16 ≠ 0x5A17 →
      exec (.hostPackageReset p v) s = .next { s with dev := s.dev.hostAcc p 3 (R.GLB_RESET.addr []) v.toNat true }) ∧
    (s.dev.takes p R.GLB_MODE_REQ [] (s.dev.setWord R.GLB_MODE_REQ [] "FLUSH") = true → s.dev.glb.mode ≠ .drain →
      let d := s.dev.put R.GLB_MODE_REQ [] "TARGET" (s.dev.get R.GLB_MODE_REQ [] "TARGET")
      exec (.flush p) s = .next { s with dev := d.hostAcc p 3 (R.GLB_MODE_REQ.addr []) (s.dev.setWord R.GLB_MODE_REQ [] "FLUSH") true }) ∧
    (off < 2 ^ 27 → s.dev.reaches p = true → s.dev.behind p off = false → s.dev.accErr off = some t → findReg off = none →
      exec (.registerWrite p off v 0#32) s = .next { s with dev := s.dev.hostAcc p t off v.toNat true }) ∧
    (n < 8 → s.dev.shows p R.GAL_KEY [n] = true → s.dev.bit R.GAL_CRED_CTL [] "LOCK" = true → s.dev.mustHold ⟨R.GAL_KEY, [n], false⟩ = false →
      ∃ m, exec (.registerWrite p (R.GAL_KEY.addr [n]) v 0#32) s =
        .next { s with dev := { s.dev.hostAcc p 1 (R.GAL_KEY.addr [n]) v.toNat true with regs := m } } ∧
          ∀ r ix, r ∈ R.all → ixOk r.dims ix = true →
            ({ s.dev with regs := m }).getW r ix = (s.dev.hostAcc p 1 (R.GAL_KEY.addr [n]) v.toNat true).getW r ix)

/-- R625: an access reaches the register instance whose offset it names: every instance of every register of the part's map is the one that its BAR0 offset
finds, and the offset 4 above a 64-bit one finds its high word. -/
def Obligations.EveryRegisterIsFoundAtItsOffset : Prop :=
  ∀ (r : RegSpec) (ix : List Nat), r ∈ R.all → ixOk r.dims ix = true →
    findReg (r.addr ix) = some ⟨r, ix, false⟩ ∧ (r.wide = true → findReg (r.addr ix + 4) = some ⟨r, ix, true⟩)

/-! ## Modes, heat, the security domain -/

/-- R57: a mode request (a write with GO = 1 and FLUSH = 0) is answered with the first value that applies, in the order of the rule; a refused one leaves the
mode. -/
def Obligations.AModeRequestIsAnsweredInOrder : Prop :=
  ∀ (s : State) (p : Path) (v : Word), s.dev.takes p R.GLB_MODE_REQ [] v.toNat = true → hasBit v.toNat 3 = true → hasBit v.toNat 8 = false →
    let a := s.dev.glb.mode
    let b := Mode.of (v.toNat % 8)
    let listed := [(Mode.enrol, Mode.load), (.load, .run), (.load, .proof), (.proof, .load), (.run, .drain), (.drain, .run), (.drain, .load),
      (.drain, .rest), (.rest, .run)].contains (a, b)
    let code := if s.dev.glb.trans.isSome then 3
      else if !listed then 4
      else if a == .load && b == .run && !s.dev.boot "FORME_OK" then 6
      else if a == .load && !s.dev.boot "TRAIN_DONE" then 7
      else if (a == .enrol && !s.dev.boot "ENROL_DONE") || (a == .drain && b != .run && !s.dev.boot "DRAIN_DONE") || (a == .proof && s.dev.testing) then 5
      else 2
    ∃ t, exec (.modeRequest p ⟨v, none⟩) s = .next t ∧ t.dev.get R.GLB_MODE_REQ [] "STATUS" = code ∧ t.dev.glb.mode = a ∧
      (code ≠ 2 → t.dev.glb = s.dev.glb)

/-- R107: a transition that was accepted during a delivery is tested again when the loader is idle: refused, TRANS returns to 0, the mode is unchanged, STATUS
names the failed precondition, and vector 57 is signalled. -/
def Obligations.ADeferredRequestIsTestedAgain : Prop :=
  ∀ (s : State) (b : Mode) (c : Nat), s.dev.glb.trans = some b → s.dev.glb.deferred = true → s.dev.glb.loader.state = 0 → s.dev.refusal b = some c →
    ∃ t, exec .deferredTransitionStart s = .next t ∧ t.dev.glb.trans = none ∧ t.dev.glb.mode = s.dev.glb.mode ∧
      t.dev.get R.GLB_MODE_REQ [] "STATUS" = c ∧ t.dev.hif.ep.d0 = s.dev.hif.ep.d0.signal 57 ∧ t.dev.hif.ep.d1 = s.dev.hif.ep.d1

/-- R699: THERM_ALERT_N is driven low when a die's reading reaches ALERT_C and while a stack has OVERTEMP, and returns high when every die is 3 °C below and
no stack has it; between, it stands. An alert changes nothing else in the part. -/
def Obligations.TheAlertPinFollowsTheReadings : Prop :=
  ∀ (s : State) (t0 t1 : Int), -128 ≤ t0 → t0 < 115 → -128 ≤ t1 → t1 < 115 → s.dev.glb.mode ≠ .cold →
    let d := { s.dev with glb := { s.dev.glb with die0 := t0, die1 := t1 } }
    let c : Int := s.dev.get R.GLB_THERM_CFG [] "ALERT_C"
    let warm := ∃ j < 6, s.dev.bit R.MEM_STACK_STAT [j / 3, j % 3] "OVERTEMP" = true
    ∃ t, exec (.dieSensorSample t0 t1) s = .next t ∧
      ((warm ∨ c ≤ t0 ∨ c ≤ t1) → t.dev = d.put R.GLB_THERM_STAT [] "ALERT" 1) ∧
      (¬ warm → t0 ≤ c - 3 → t1 ≤ c - 3 → t.dev = d.put R.GLB_THERM_STAT [] "ALERT" 0) ∧
      (¬ warm → t0 < c → t1 < c → c - 3 < t0 ∨ c - 3 < t1 → t.dev = d)

/-- R698, R61: a reading of 115 °C or more trips the part: it enters COLD with cause thermal (4), THERM_TRIP_N low, and is held there: a release of PORESET_N
that is not a power-on leaves it in COLD while a reading stands too high. One-time-programmable memory is untouched. -/
def Obligations.AThermalTripHoldsThePartInCold : Prop :=
  ∀ (s : State) (t0 t1 : Int), -128 ≤ t0 → t0 ≤ 127 → -128 ≤ t1 → t1 ≤ 127 → 115 ≤ t0 ∨ 115 ≤ t1 → s.dev.glb.mode ≠ .cold →
    ∃ t, exec (.dieSensorSample t0 t1) s = .next t ∧ t.dev.glb.mode = .cold ∧ t.dev.glb.hold = .thermal ∧ t.dev.glb.trip = true ∧
      t.dev.get R.GLB_RESET_CAUSE [] "CAUSE" = 4 ∧ t.dev.fuses = s.dev.fuses ∧
      ∀ r, ∃ u, exec (.pinReset r) t = .next u ∧ u.dev.glb.mode = .cold

/-- R665: a command of the one-time-programmable store in a mode that does not run it ends with CODE MODE, and a floor out of range with CODE RANGE; each
changes nothing else. -/
def Obligations.ARefusedOtpCommandChangesNothing : Prop :=
  ∀ (s : State) (p : Path) (arg : Nat), arg < 256 → s.dev.takes p R.SEC_OTP_CMD [] (2 * 2 ^ 28 + arg) = true → s.dev.takes p R.SEC_OTP_CMD [] (3 * 2 ^ 28 + arg) = true →
    let ended := fun (c : Nat) => ({ s with dev := s.dev.put R.SEC_OTP_STAT [] "CODE" c } : State)
    (¬ (s.dev.glb.mode = .enrol ∨ s.dev.glb.mode = .load ∨ s.dev.glb.mode = .run ∨ s.dev.glb.mode = .drain) →
      exec (.raiseOsvn p arg) s = .next (ended 1) ∧ exec (.raiseVsvn p arg) s = .next (ended 1)) ∧
    (s.dev.glb.mode = .enrol ∨ s.dev.glb.mode = .load ∨ s.dev.glb.mode = .run ∨ s.dev.glb.mode = .drain →
      (arg < s.dev.sec.osvn ∨ 128 < arg ∨ s.dev.get R.GLB_FORME_INFO [] "SVN" < arg → exec (.raiseOsvn p arg) s = .next (ended 5)) ∧
      (arg < s.dev.sec.vsvn ∨ 128 < arg ∨ (∃ v ∈ s.dev.sec.vendorSvn, v < arg) → exec (.raiseVsvn p arg) s = .next (ended 5)))

/-- R650: programmed bits of the one-time-programmable store are never cleared: from every state, a step keeps what was written at manufacture and every
programmed owner root, and lowers no floor. -/
def Obligations.ProgrammedBitsAreNeverCleared : Prop := ∀ s t : State, step s = .next t → s.dev.fuses.extends t.dev.fuses

/-! ## Finding a record -/

/-- R139, R212: the candidate buckets of H, by its bits: both lie on the home die, in different stacks, and each of their seven slots has an address. -/
def Obligations.CandidatesLieOnTheHomeDieInDifferentStacks : Prop :=
  ∀ h : Nat,
    let d := h / 2 ^ 63 % 2
    let j := h / 2 ^ 48 % 2 ^ 15 % 3
    candA h = (3 * d + j, h / 2 ^ 24 % 2 ^ 23) ∧ candB h = (3 * d + (j + 1 + h / 2 ^ 47 % 2) % 3, h / 2 % 2 ^ 23) ∧ (candA h).1 ≠ (candB h).1 ∧
      ∀ (alt : Bool) (i : Nat), i < 7 → raDie (candSlot h alt i) = d ∧ raSlot (candSlot h alt i) = i ∧ raOk (candSlot h alt i) = true

/-- R145: a lookup that finds a slot finds one of the key's candidates, not EMPTY, that holds that key and form; a lookup that misses has read both tag blocks, and
no candidate slot whose tag matches holds the key. -/
def Obligations.ALookupFindsTheSlotOfItsKey : Prop :=
  ∀ (d : Dev) (key : List Byte) (h : Nat) (hint : Option (Nat × Nat)),
    (∀ ra, d.lookup key h hint = .hit ra →
      (∃ alt i, i < 7 ∧ ra = candSlot h alt i ∧ (d.slot ra).ktag = ktagOf h alt) ∧ (d.slot ra).st ≠ .empty ∧ (d.slot ra).form = byteAt key 0 ∧
        (d.slot ra).body.key = key) ∧
    (d.lookup key h hint = .miss →
      (d.tagRead (candA h).1 (candA h).2).1 = true ∧ (d.tagRead (candB h).1 (candB h).2).1 = true ∧
        ∀ alt i, i < 7 → let q := d.slot (candSlot h alt i)
          q.st ≠ .empty → q.form = byteAt key 0 → q.ktag = ktagOf h alt → q.body.key ≠ key)

/-! ## Records, threads, time -/

/-- R208, R209: ADD applied to a VALID record adds to PKTS modulo 2^40 and to OCTETS modulo 2^48 and changes nothing else of the record, whatever quoin is held
on it; applied to a slot that is not VALID it does nothing but return NOREC (6). -/
def Obligations.AddNeedsAValidRecordAndNoQuoin : Prop :=
  ∀ (s : State) (ra e tok dp doct : Nat) (o : AuuOp) (rest : List AuuOp), raOk ra = true → auuPop ra s.dev.flw.auuq = some (o, rest) →
    o.kind = .add e tok dp doct → s.dev.glb.mode ≠ .rest →
    let d := { s.dev with flw := { s.dev.flw with auuq := rest } }
    ((s.dev.slot ra).st ≠ .valid → exec (.auuAdd ra) s = .next { s with dev := d.complete e tok [6] }) ∧
    ((s.dev.slot ra).st = .valid → s.dev.auuReadable ra = true →
      ∃ t, exec (.auuAdd ra) s = .next t ∧ (t.dev.slot ra).body.pkts = ((s.dev.slot ra).body.pkts + dp) % 2 ^ 40 ∧
        (t.dev.slot ra).body.octets = ((s.dev.slot ra).body.octets + doct) % 2 ^ 48 ∧ (t.dev.slot ra).st = .valid ∧
        { (t.dev.slot ra).body with pkts := (s.dev.slot ra).body.pkts, octets := (s.dev.slot ra).body.octets } = (s.dev.slot ra).body ∧
        ∀ q, q ≠ ra → t.dev.slot q = s.dev.slot q)

/-- R406, R408, R409: a host write of a slot's event word sets the bits it names and clears none; a running thread's engine gets MSG when a bit of INTMASK becomes
set, and none when every bit was set before; a thread that waits becomes READY when a bit of its mask is set, and waits on when none is. -/
def Obligations.EventBitsAreOnlySet : Prop :=
  ∀ (s : State) (p : Path) (d slot : Nat) (v : Word), d < 2 → slot < 512 → s.dev.takes p R.TSK_SLOT_EVT [d, slot] v.toNat = true →
    let new := Nat.lor (s.dev.tevt d slot) (v.toNat % 2 ^ 31)
    let x := s.dev.setW R.TSK_SLOT_EVT [d, slot] new
    (s.dev.tst d slot ≠ 2 → s.dev.tst d slot ≠ 3 ∨ Nat.land new (s.dev.tslot d slot).mask = 0 → exec (.slotEventWrite p d slot v) s = .next { s with dev := x }) ∧
    (s.dev.tst d slot = 3 → Nat.land new (s.dev.tslot d slot).mask ≠ 0 →
      exec (.slotEventWrite p d slot v) s =
        .next { s with dev := (x.setTslot d slot { s.dev.tslot d slot with how := 1, timed := false }).becomeReady d slot }) ∧
    (s.dev.tst d slot = 2 → Nat.land (Nat.xor new (s.dev.tevt d slot)) (s.dev.tslot d slot).intm = 0 →
      exec (.slotEventWrite p d slot v) s = .next { s with dev := x }) ∧
    (s.dev.tst d slot = 2 → Nat.land (Nat.xor new (s.dev.tevt d slot)) (s.dev.tslot d slot).intm ≠ 0 →
      ∃ t, exec (.slotEventWrite p d slot v) s = .next t ∧ t.dev.tevt d slot = new ∧ 2 ∈ (t.dev.engOf (s.dev.get R.TSK_SLOT_ST [d, slot] "ENGINE")).irqs)

/-- R572, R573, R576: at raw count E, RATE leaves the presented time as it is, STEP adds its signed ns, and SET makes it the set value; a command that has
arrived is then done, and the parameters before it are kept for the events before E, older ones only while a stamp waits to be converted. -/
def Obligations.TimeCommandsActAtTheirEpoch : Prop :=
  (∀ (t : TimS) (c : TimCmd) (n : Nat), c.op = 1 → c.v = n → (t.apply c).inc = n ∧ (t.apply c).pAt c.e = t.pAt c.e) ∧
  (∀ (t : TimS) (c : TimCmd), c.op = 2 → (t.apply c).inc = t.inc ∧ (t.apply c).pAt c.e = t.pAt c.e + c.v * (nsUnit : Nat)) ∧
  (∀ (t : TimS) (c : TimCmd), c.op = 3 → (t.apply c).inc = t.inc ∧ (t.apply c).pAt c.e = c.v * (nsUnit : Nat)) ∧
  ∀ (d : Dev) (c : TimCmd), d.tim.cmd = some c → c.arrived = true →
    (d.epochPassed = if c.acted = false ∧ c.e ≤ d.tim.raw.d0 then d.timAct c else d) ∧ (d.timForce c).tim.cmd = some { c with acted := true } ∧
    (c.acted = false → d.timEpoch.tim = { ({ d.tim with raw := d.tim.raw.both (max c.e) }).apply c with
      cmd := none, old := (c.e, d.tim.offset, d.tim.inc) :: (if d.tim.due.all (·.isEmpty) then [] else d.tim.old) }) ∧
    (c.acted = true → d.timEpoch.tim = { d.tim with cmd := none }) ∧ d.timEpoch.bit R.TIM_CMD_STAT [] "PENDING" = false ∧
      d.timEpoch.get R.TIM_CMD_STAT [] "CODE" = 0

/-- R584, R586: a stamp entry joins its region's queue at the end; while the queue holds 32 entries the entry is dropped and counted, and TIM_LOST_ID keeps
the first lost ID; R575: it carries the HOLDOVER of the moment it was taken. -/
def Obligations.AFullStampQueueDropsAndCounts : Prop :=
  ∀ (s : State) (g raw : Nat) (e : Due) (rest : List Due), g < 4 → s.dev.tim.due.getD g [] = e :: rest → g < s.dev.tim.tsq.length →
    let q := s.dev.tim.tsq.getD g []
    ∃ t, exec (.stampEntry g raw) s = .next t ∧
      (q.length < 32 → ∃ x : Stamp, t.dev.tim.tsq.getD g [] = q ++ [x] ∧ x.id = e.id ∧ x.port = e.port ∧ x.status = e.status ∧ x.hold = e.hold) ∧
      (32 ≤ q.length → t.dev.tim.tsq = s.dev.tim.tsq ∧
        t.dev.get R.TIM_STAMP_LOST [g / 2, g % 2] "COUNT" = (s.dev.get R.TIM_STAMP_LOST [g / 2, g % 2] "COUNT" + 1) % 2 ^ 32 ∧
        (s.dev.bit R.TIM_LOST_ID [g / 2, g % 2] "VALID" = true → t.dev.getW R.TIM_LOST_ID [g / 2, g % 2] = s.dev.getW R.TIM_LOST_ID [g / 2, g % 2]) ∧
        (s.dev.bit R.TIM_LOST_ID [g / 2, g % 2] "VALID" = false → t.dev.get R.TIM_LOST_ID [g / 2, g % 2] "ID" = e.id % 2 ^ 16))

/-- R592, R593: a trigger capture replaces the one before it and sets OVR when that one has not been read; a read of TIM_NOW_NS captures the presented time and
the raw count of its die for its path, and leaves the captures of the other die and of the other path. -/
def Obligations.CapturesStayApartAndOvrTellsALostOne : Prop :=
  ∀ (s : State) (d k : Nat), d < 2 → k < 4 →
    (s.dev.get R.TIM_IO_CFG [k] "FUNC" = 2 →
      ∃ t, exec (.triggerCapture k) s = .next t ∧ t.dev.bit R.TIM_TRIG_STAT [k] "NEW" = true ∧ t.dev.get R.TIM_TRIG_NS [k] "NS" = pNs (s.dev.now 0) ∧
        (s.dev.bit R.TIM_TRIG_STAT [k] "NEW" = true → t.dev.bit R.TIM_TRIG_STAT [k] "OVR" = true) ∧
        (s.dev.bit R.TIM_TRIG_STAT [k] "NEW" = false → t.dev.bit R.TIM_TRIG_STAT [k] "OVR" = s.dev.bit R.TIM_TRIG_STAT [k] "OVR")) ∧
    (s.dev.shows .pcie R.TIM_NOW_NS [d] = true →
      ∃ t, exec (.timeCaptureRead .pcie d) s = .next t ∧ t.dev.tim.capP.get d = ⟨s.dev.now d, s.dev.tim.raw.get d⟩ ∧
        t.dev.tim.capP.get (1 - d) = s.dev.tim.capP.get (1 - d) ∧ t.dev.tim.capG = s.dev.tim.capG ∧ t.dev.hif.pcie.last = pNs (s.dev.now d)) ∧
    (s.dev.shows .galley R.TIM_NOW_NS [d] = true →
      ∃ t, exec (.timeCaptureRead .galley d) s = .next t ∧ t.dev.tim.capG.get d = ⟨s.dev.now d, s.dev.tim.raw.get d⟩ ∧
        t.dev.tim.capG.get (1 - d) = s.dev.tim.capG.get (1 - d) ∧ t.dev.tim.capP = s.dev.tim.capP ∧ t.dev.hif.galley.last = pNs (s.dev.now d))

/-! ## Diverts, trace, messages, the galley chain -/

/-- R614: RELEASE of a diverted record that is neither TORN nor PENDING nor held, once the operations of it that wait at its update unit are applied, clears
DIVERTED and leaves the rest of the record; it ends with CODE OK. -/
def Obligations.ReleaseClearsDiverted : Prop :=
  ∀ (s : State) (p : Path) (d : Nat), d < 2 → s.dev.takes p R.FLW_DIV_CMD [d] 1 = true →
    let ra := s.dev.get R.FLW_DIV_LOC [d] "RADDR"
    let x := Dev.auuDrain ra s.dev.flw.auuq.length s.dev
    raDie ra = d → (x.slot ra).st = .valid → (x.slot ra).body.diverted = true → x.heldBy ra = false → x.auuReadable ra = true →
    ∃ t, exec (.divRelease p d) s = .next t ∧ (t.dev.slot ra).body.diverted = false ∧ (t.dev.slot ra).st = .valid ∧
      { (t.dev.slot ra).body with flags := (x.slot ra).body.flags } = (x.slot ra).body ∧ t.dev.get R.FLW_DIV_STAT [d] "CODE" = 0 ∧
      ∀ q, q ≠ ra → t.dev.slot q = x.slot q

/-- R671: a write of TRC_CTL.CLR = 1 empties the die's trace buffer: SEQ returns to 0, WRAPPED and STOPPED are cleared, every index reads 32 bytes of 0, and the
other die's buffer stands. -/
def Obligations.TraceClearEmptiesTheBuffer : Prop :=
  ∀ (s : State) (p : Path) (d : Nat), d < 2 → s.dev.takes p R.TRC_CTL [d] (s.dev.setWord R.TRC_CTL [d] "CLR") = true →
    ∃ t, exec (.traceClear p d) s = .next t ∧ t.dev.get R.TRC_SEQ [d] "SEQ" = 0 ∧ t.dev.bit R.TRC_STAT [d] "WRAPPED" = false ∧
      t.dev.bit R.TRC_STAT [d] "STOPPED" = false ∧ (∀ i, SMap.get (t.dev.trc.get d).buf i (List.replicate 32 0#8) = List.replicate 32 0#8) ∧
      t.dev.trc.get (1 - d) = s.dev.trc.get (1 - d)

/-- R682: a read of TRC_RD_DATA[0] latches the record at the path's RD_IDX and advances that index by 1 modulo 131,072; the other path's index and latch stand,
and no record is removed. That the writer has by then stored what its FIFOs held is the model's choice (log entry 96). -/
def Obligations.ATraceReadAdvancesItsPathAlone : Prop :=
  ∀ (s : State) (d : Nat), d < 2 →
    (s.dev.shows .pcie R.TRC_RD_DATA [d, 0] = true →
      ∃ t, exec (.traceRecordLatch .pcie d) s = .next t ∧ (t.dev.trc.get d).latP = SMap.get ((s.dev.trcSettle d).trc.get d).buf (s.dev.trcIdx .pcie d) (List.replicate 32 0#8) ∧
        t.dev.trcIdx .pcie d = (s.dev.trcIdx .pcie d + 1) % 131072 ∧ t.dev.trcIdx .galley d = s.dev.trcIdx .galley d ∧
        { t.dev.trc.get d with latP := (s.dev.trc.get d).latP } = (s.dev.trcSettle d).trc.get d) ∧
    (s.dev.shows .galley R.TRC_RD_DATA [d, 0] = true →
      ∃ t, exec (.traceRecordLatch .galley d) s = .next t ∧ (t.dev.trc.get d).latG = SMap.get ((s.dev.trcSettle d).trc.get d).buf (s.dev.trcIdx .galley d) (List.replicate 32 0#8) ∧
        t.dev.trcIdx .galley d = (s.dev.trcIdx .galley d + 1) % 131072 ∧ t.dev.trcIdx .pcie d = s.dev.trcIdx .pcie d ∧
        (t.dev.trc.get d).buf = ((s.dev.trcSettle d).trc.get d).buf ∧ (t.dev.trc.get d).latP = (s.dev.trc.get d).latP)

/-- R627, R708: an occurrence of a masked vector sets its pending bit, once, and sends nothing; unmasking the vector at an endpoint that takes accesses then sends
one message and clears the bit; at one that does not, it is discarded. -/
def Obligations.AMaskedVectorSendsOneMessageWhenUnmasked : Prop :=
  (∀ (e : Endpoint) (v : Nat), e.masked.contains v = true →
    (e.signal v).sent = e.sent ∧ v ∈ (e.signal v).pending ∧ (e.signal v).signal v = e.signal v) ∧
  ∀ (s : State) (k v : Nat), k < 2 → v < epVecs k →
    (s.dev.epTakes k = true → (s.dev.hif.ep.get k).sends = true → (s.dev.hif.ep.get k).pending = [v] →
      ∃ t, exec (.msixUnmask k (.unmask v)) s = .next t ∧ (t.dev.hif.ep.get k).sent = (s.dev.hif.ep.get k).sent ++ [v] ∧ (t.dev.hif.ep.get k).pending = [] ∧
        (t.dev.hif.ep.get k).masked = (s.dev.hif.ep.get k).masked.filter (· != v)) ∧
    (s.dev.epTakes k = false → exec (.msixUnmask k (.unmask v)) s = .next s)

/-- R640: a frame that the part does not consume goes out of the other port with TTL one less and a good CRC, its other bytes as they arrived; one that
arrives with TTL 0 is discarded and counted; one whose CRC is wrong is counted, and its copy fails its own check. -/
def Obligations.AForwardedFrameCarriesTtlLessOne : Prop :=
  ∀ (s : State) (down : Bool) (fr : List Byte), s.dev.glb.mode ≠ .cold → s.dev.galMine fr = false → 8 ≤ fr.length →
    ∃ t, exec (.galleyFrameForward down fr) s = .next t ∧
      (galGood fr = true → byteAt fr 4 ≠ 0 →
        ∃ out, t.dev.gal.sent = s.dev.gal.sent ++ [(!down, out)] ∧ galGood out = true ∧ byteAt out 4 = byteAt fr 4 - 1 ∧
          ∀ i, i + 2 < fr.length → i ≠ 4 → byteAt out i = byteAt fr i) ∧
      (byteAt fr 4 = 0 → t.dev.gal.sent = s.dev.gal.sent) ∧
      (byteAt fr 4 = 0 → t.dev.get R.GAL_TTL_DROP [] "COUNT" = (s.dev.get R.GAL_TTL_DROP [] "COUNT" + 1) % 2 ^ 32) ∧
      (galGood fr = false → byteAt fr 4 ≠ 0 → ∃ out, t.dev.gal.sent = s.dev.gal.sent ++ [(!down, out)] ∧ galGood out = false) ∧
      (galGood fr = false → t.dev.get R.GAL_CRC_ERR [] "COUNT" = (s.dev.get R.GAL_CRC_ERR [] "COUNT" + 1) % 2 ^ 32)
end

