-- ==== Sys2Proof/Laws/Lookup.lean ====
section
/-! SUPPORT. Laws of the register map: a register instance is the one that its BAR0 offset finds. -/

namespace Sys2Proof.Machine

/-- The offset of some indices from a register's own. -/
def ixOff : List (Nat × Nat × Nat) → List Nat → Nat
  | (_, _, st) :: ds, i :: ix => i * st + ixOff ds ix
  | _, _ => 0

/-- The offset of the highest indices. -/
def ixSpan (ds : List (Nat × Nat × Nat)) : Nat := ixOff ds (ds.map (fun x => x.2.1))

/-- Every stride is wider than what it steps over, with the bytes of a register. -/
def nested (w : Nat) : List (Nat × Nat × Nat) → Bool
  | [] => true
  | (_, _, st) :: ds => decide (ixSpan ds + w ≤ st) && nested w ds

/-- The bytes of a register. -/
def RegSpec.size (r : RegSpec) : Nat := if r.wide then 8 else 4

theorem ixOff_le {ds : List (Nat × Nat × Nat)} {ix : List Nat} (h : ixOk ds ix = true) : ixOff ds ix ≤ ixSpan ds := by
  induction ds generalizing ix with
  | nil => cases ix <;> simp [ixOff, ixSpan]
  | cons x ds ih =>
    obtain ⟨lo, hi, st⟩ := x
    cases ix with
    | nil => simp [ixOff]
    | cons i ix =>
      simp only [ixOk, Bool.and_eq_true, decide_eq_true_eq] at h
      have h1 := ih h.2
      have h2 := Nat.mul_le_mul_right st h.1.2
      simp only [ixOff, ixSpan, List.map_cons]
      unfold ixSpan at h1
      omega

/-- What decodeIx answers adds up to the offset. -/
theorem decodeIx_sound {ds : List (Nat × Nat × Nat)} {rem : Nat} {ix : List Nat} {rem' : Nat} (h : decodeIx ds rem = some (ix, rem')) :
    rem = ixOff ds ix + rem' ∧ ixOk ds ix = true := by
  induction ds generalizing rem ix rem' with
  | nil => simp only [decodeIx, Option.some.injEq, Prod.mk.injEq] at h; obtain ⟨rfl, rfl⟩ := h; simp [ixOff, ixOk]
  | cons x ds ih =>
    obtain ⟨lo, hi, st⟩ := x
    simp only [decodeIx] at h
    split at h
    · cases h
    · rename_i hlo
      rw [Option.map_eq_some_iff] at h
      obtain ⟨⟨jx, r⟩, h1, h2⟩ := h
      cases h2
      obtain ⟨h3, h4⟩ := ih h1
      have h5 : min (rem / st) hi * st ≤ rem := Nat.le_trans (Nat.mul_le_mul_right _ (Nat.min_le_left _ _)) (Nat.div_mul_le_self _ _)
      simp only [ixOff, ixOk, h4, Bool.and_true, Bool.and_eq_true, decide_eq_true_eq]
      omega

/-- Indices within their ranges are read back, with less than a register left over. -/
theorem decodeIx_complete {w : Nat} {ds : List (Nat × Nat × Nat)} {ix : List Nat} (hn : nested w ds = true) (h : ixOk ds ix = true) {b : Nat} (hb : b < w) :
    decodeIx ds (ixOff ds ix + b) = some (ix, b) := by
  induction ds generalizing ix with
  | nil => cases ix <;> simp_all [ixOff, ixOk, decodeIx]
  | cons x ds ih =>
    obtain ⟨lo, hi, st⟩ := x
    cases ix with
    | nil => simp [ixOk] at h
    | cons i ix =>
      simp only [ixOk, Bool.and_eq_true, decide_eq_true_eq] at h
      simp only [nested, Bool.and_eq_true, decide_eq_true_eq] at hn
      have h1 := ixOff_le h.2
      have h2 : (ixOff ((lo, hi, st) :: ds) (i :: ix) + b) / st = i := by
        rw [show ixOff ((lo, hi, st) :: ds) (i :: ix) + b = (ixOff ds ix + b) + i * st by simp only [ixOff]; omega,
          Nat.add_mul_div_right _ _ (by omega), Nat.div_eq_of_lt (by omega), Nat.zero_add]
      simp only [decodeIx, h2, Nat.min_eq_left h.1.2]
      rw [if_neg (by omega), show ixOff ((lo, hi, st) :: ds) (i :: ix) + b - i * st = ixOff ds ix + b by simp only [ixOff]; omega, ih hn.2 h.2]
      rfl

theorem addr_eq (r : RegSpec) (ix : List Nat) : r.addr ix = r.off + ixOff r.dims ix := by
  unfold RegSpec.addr
  congr 1
  generalize r.dims = ds
  induction ds generalizing ix with
  | nil => rfl
  | cons x ds ih => cases ix <;> simp [ixOff, ih]

/-- Two offsets and their ends lie in one stride from some base on. -/
def sameBlock (s a ea b eb : Nat) : Bool :=
  let m := min a b
  decide (max ea eb ≤ m + s) || decide (max ea eb ≤ m - m % s + s)

/-- A register of la bytes at offset a and an array of registers of lb bytes at offset b share no byte. -/
def clearOf (a la lb : Nat) : List (Nat × Nat × Nat) → Nat → Bool
  | [], b => decide (a + la ≤ b) || decide (b + lb ≤ a)
  | (lo, hi, t) :: es, b =>
    decide (a + la ≤ b) || decide (b + ixSpan ((lo, hi, t) :: es) + lb ≤ a) || decide (hi < 4) && (List.range (hi + 1)).all (fun i => clearOf a la lb es (b + i * t))

/-- Two arrays of registers of la and lb bytes at offsets a and b share no byte. -/
def disjoint : List (Nat × Nat × Nat) → Nat → List (Nat × Nat × Nat) → Nat → Nat → Nat → Bool
  | [], a, es, b, la, lb => clearOf a la lb es b
  | (lo, hi, s) :: ds, a, es, b, la, lb =>
    decide (a + ixSpan ((lo, hi, s) :: ds) + la ≤ b) || decide (b + ixSpan es + lb ≤ a)
      || (match es with
        | (_, _, t) :: es' => s == t && sameBlock s a (a + ixSpan ds + la) b (b + ixSpan es' + lb) && disjoint ds a es' b la lb
        | [] => false)
      || decide (hi < 4) && (List.range (hi + 1)).all (fun i => disjoint ds (a + i * s) es b la lb)

theorem sameBlock_sound {s a ea b eb i j x y : Nat} (h : sameBlock s a ea b eb = true) (hx : a + x < ea) (hy : b + y < eb) (hij : i ≠ j) :
    a + (i * s + x) ≠ b + (j * s + y) := by
  have key : ∀ B, B ≤ min a b → max ea eb ≤ B + s → a + (i * s + x) ≠ b + (j * s + y) := by
    intro B h1 h2 he
    rcases Nat.lt_or_gt_of_ne hij with h3 | h3
    · have := Nat.mul_le_mul_right s (Nat.succ_le_of_lt h3)
      rw [Nat.succ_mul] at this
      omega
    · have := Nat.mul_le_mul_right s (Nat.succ_le_of_lt h3)
      rw [Nat.succ_mul] at this
      omega
  simp only [sameBlock, Bool.or_eq_true, decide_eq_true_eq] at h
  rcases h with h | h
  · exact key _ (Nat.le_refl _) h
  · exact key _ (Nat.sub_le _ _) h

theorem clearOf_sound {es : List (Nat × Nat × Nat)} {a b la lb : Nat} (h : clearOf a la lb es b = true) {jx : List Nat} (hj : ixOk es jx = true)
    {x y : Nat} (hx : x < la) (hy : y < lb) : a + x ≠ b + ixOff es jx + y := by
  induction es generalizing b jx with
  | nil =>
    cases jx with
    | nil => simp only [clearOf, Bool.or_eq_true, decide_eq_true_eq, ixOff] at h ⊢; omega
    | cons j jx => simp [ixOk] at hj
  | cons q es ih =>
    have h2 := ixOff_le hj
    obtain ⟨lo, hi', t⟩ := q
    simp only [clearOf, Bool.or_eq_true, Bool.and_eq_true, decide_eq_true_eq, List.all_eq_true, List.mem_range] at h
    rcases h with (h | h) | h
    · omega
    · omega
    · cases jx with
      | nil => simp [ixOk] at hj
      | cons j jx =>
        simp only [ixOk, Bool.and_eq_true, decide_eq_true_eq] at hj
        have h3 := ih (h.2 j (by omega)) hj.2
        simp only [ixOff]
        omega

theorem disjoint_sound {ds es : List (Nat × Nat × Nat)} {a b la lb : Nat} (h : disjoint ds a es b la lb = true) {ix jx : List Nat}
    (hi : ixOk ds ix = true) (hj : ixOk es jx = true) {x y : Nat} (hx : x < la) (hy : y < lb) : a + ixOff ds ix + x ≠ b + ixOff es jx + y := by
  induction ds generalizing es a b ix jx with
  | nil =>
    cases ix with
    | nil => simpa [ixOff] using clearOf_sound (by simpa [disjoint] using h) hj hx hy
    | cons i ix => simp [ixOk] at hi
  | cons p ds ih =>
    have h1 := ixOff_le hi
    have h2 := ixOff_le hj
    obtain ⟨lo, hi', s⟩ := p
    unfold disjoint at h
    simp only [Bool.or_eq_true, Bool.and_eq_true, decide_eq_true_eq, List.all_eq_true, List.mem_range] at h
    cases ix with
    | nil => simp [ixOk] at hi
    | cons i ix =>
      simp only [ixOk, Bool.and_eq_true, decide_eq_true_eq] at hi
      rcases h with ((h | h) | h) | h
      · omega
      · omega
      · cases es with
        | nil => simp at h
        | cons q es =>
          obtain ⟨lo2, hi2, t⟩ := q
          cases jx with
          | nil => simp [ixOk] at hj
          | cons j jx =>
            simp only [ixOk, Bool.and_eq_true, decide_eq_true_eq] at hj
            simp only [Bool.and_eq_true, beq_iff_eq] at h
            obtain ⟨⟨rfl, h3⟩, h4⟩ := h
            have h5 := ih h4 hi.2 hj.2
            have h6 := ixOff_le hi.2
            have h7 := ixOff_le hj.2
            simp only [ixOff]
            by_cases hij : i = j
            · subst hij; omega
            · have := sameBlock_sound h3 (i := i) (j := j) (x := ixOff ds ix + x) (y := ixOff es jx + y) (by omega) (by omega) hij
              omega
      · have h3 := ih (h.2 i (by omega)) hi.2 hj
        simp only [ixOff]
        omega

/-- The instances of two registers share no byte. -/
def RegSpec.clear (r q : RegSpec) : Bool :=
  disjoint r.dims r.off q.dims q.off r.size q.size ||
    match q.dims with
    | (_, hi, t) :: es => decide (hi < 4) && (List.range (hi + 1)).all (fun i => disjoint r.dims r.off es (q.off + i * t) r.size q.size)
    | [] => false

theorem clear_sound {r q : RegSpec} (h : r.clear q = true) {ix jx : List Nat} (hi : ixOk r.dims ix = true) (hj : ixOk q.dims jx = true) {x y : Nat}
    (hx : x < r.size) (hy : y < q.size) : r.off + ixOff r.dims ix + x ≠ q.off + ixOff q.dims jx + y := by
  unfold RegSpec.clear at h
  rw [Bool.or_eq_true] at h
  rcases h with h | h
  · exact disjoint_sound h hi hj hx hy
  · generalize q.dims = es at h hj ⊢
    cases es with
    | nil => simp at h
    | cons p es =>
      obtain ⟨lo, hi', t⟩ := p
      cases jx with
      | nil => simp [ixOk] at hj
      | cons j jx =>
        simp only [ixOk, Bool.and_eq_true, decide_eq_true_eq, List.all_eq_true, List.mem_range] at h hj
        have h3 := disjoint_sound (h.2 j (by omega)) hi hj.2 hx hy
        simp only [ixOff]
        omega

/-- A register whose instances no other register of the list overlaps. -/
def RegSpec.alone (r : RegSpec) (l : List RegSpec) : Bool := l.all (fun q => q == r || r.clear q)

theorem hit_none {r q : RegSpec} (h : r.clear q = true) {ix : List Nat} (hi : ixOk r.dims ix = true) {b : Nat} (hb : b < r.size) :
    q.hit (r.addr ix + b) = none := by
  rw [addr_eq]
  unfold RegSpec.hit
  split
  · rfl
  · rename_i hlt
    cases hd : decodeIx q.dims (r.off + ixOff r.dims ix + b - q.off) with
    | none => rfl
    | some x =>
      obtain ⟨jx, rem⟩ := x
      obtain ⟨h1, h2⟩ := decodeIx_sound hd
      dsimp only
      split
      · have hq : 0 < q.size := by unfold RegSpec.size; split <;> omega
        exact absurd (show _ = q.off + ixOff q.dims jx + 0 by omega) (clear_sound h hi h2 hb hq)
      · split
        · rename_i h3 h4
          simp only [Bool.and_eq_true, decide_eq_true_eq] at h4
          have hq : 4 < q.size := by unfold RegSpec.size; rw [if_pos h4.2]; omega
          exact absurd (show _ = q.off + ixOff q.dims jx + 4 by omega) (clear_sound h hi h2 hb hq)
        · rfl

theorem hit_self {r : RegSpec} (hn : nested r.size r.dims = true) {ix : List Nat} (hi : ixOk r.dims ix = true) : r.hit (r.addr ix) = some ⟨r, ix, false⟩ := by
  rw [addr_eq]
  unfold RegSpec.hit
  rw [if_neg (by omega), show r.off + ixOff r.dims ix - r.off = ixOff r.dims ix + 0 by omega, decodeIx_complete hn hi (show 0 < r.size by unfold RegSpec.size; split <;> omega)]
  rfl

theorem findSome_hit {r : RegSpec} {l : List RegSpec} (hm : r ∈ l) (ha : r.alone l = true) (hn : nested r.size r.dims = true) {ix : List Nat}
    (hi : ixOk r.dims ix = true) : l.findSome? (fun q => q.hit (r.addr ix)) = some ⟨r, ix, false⟩ := by
  induction l with
  | nil => cases hm
  | cons q l ih =>
    simp only [RegSpec.alone, List.all_cons, Bool.and_eq_true] at ha
    simp only [List.findSome?_cons]
    by_cases hq : q = r
    · subst hq; rw [hit_self hn hi]
    · have h1 : r.clear q = true := by
        have := ha.1
        simpa [hq] using this
      have h2 := hit_none h1 hi (b := 0) (by unfold RegSpec.size; split <;> omega)
      rw [Nat.add_zero] at h2
      rw [h2]
      exact ih (by simpa [Ne.symm hq] using hm) (by simpa [RegSpec.alone] using ha.2)

/-- R625: the offset of a register instance finds that instance. -/
theorem findReg_addr {r : RegSpec} (hm : r ∈ R.all) (ha : r.alone R.all = true) (hn : nested r.size r.dims = true) {ix : List Nat} (hi : ixOk r.dims ix = true) :
    findReg (r.addr ix) = some ⟨r, ix, false⟩ := findSome_hit hm ha hn hi

end Sys2Proof.Machine
end

