-- ==== Sys2Proof/Laws/Maps.lean ====
section
/-! SUPPORT. Laws of the sparse tables and of the pair of copies: a read after a write, and the canonical form that every table operation keeps. -/

namespace Sys2Proof.Machine

variable {α : Type}

theorem SMap.look_put_same (m : SMap α) (k : Nat) (v : α) : SMap.look (SMap.put m k v) k = some v := by
  induction m with
  | nil => simp [SMap.put, SMap.look]
  | cons x m ih =>
    obtain ⟨j, w⟩ := x
    simp only [SMap.put]
    split
    · simp [SMap.look]
    · split
      · simp [SMap.look]
      · rename_i h
        simp [SMap.look, h, ih]

theorem SMap.look_put_ne (m : SMap α) {k j : Nat} (v : α) (h : j ≠ k) : SMap.look (SMap.put m k v) j = SMap.look m j := by
  induction m with
  | nil => simp [SMap.put, SMap.look, Ne.symm h]
  | cons x m ih =>
    obtain ⟨i, w⟩ := x
    simp only [SMap.put]
    split
    · simp [SMap.look, Ne.symm h]
    · split
      · rename_i hik
        subst hik
        simp [SMap.look, Ne.symm h]
      · simp [SMap.look, ih]

theorem SMap.look_del_same (m : SMap α) (k : Nat) : SMap.look (SMap.del m k) k = none := by
  induction m with
  | nil => rfl
  | cons x m ih =>
    obtain ⟨i, w⟩ := x
    simp only [SMap.del]
    split
    · exact ih
    · rename_i h
      simp [SMap.look, h, ih]

theorem SMap.look_del_ne (m : SMap α) {k j : Nat} (h : j ≠ k) : SMap.look (SMap.del m k) j = SMap.look m j := by
  induction m with
  | nil => rfl
  | cons x m ih =>
    obtain ⟨i, w⟩ := x
    simp only [SMap.del]
    split
    · rename_i hik
      subst hik
      simp [SMap.look, Ne.symm h, ih]
    · simp [SMap.look, ih]

@[simp] theorem SMap.get_put_same (m : SMap α) (k : Nat) (v d : α) : SMap.get (SMap.put m k v) k d = v := by
  simp [SMap.get, SMap.look_put_same]

theorem SMap.get_put_ne (m : SMap α) {k j : Nat} (v d : α) (h : j ≠ k) : SMap.get (SMap.put m k v) j d = SMap.get m j d := by
  simp [SMap.get, SMap.look_put_ne m v h]

@[simp] theorem SMap.get_del_same (m : SMap α) (k : Nat) (d : α) : SMap.get (SMap.del m k) k d = d := by
  simp [SMap.get, SMap.look_del_same]

theorem SMap.get_del_ne (m : SMap α) {k j : Nat} (d : α) (h : j ≠ k) : SMap.get (SMap.del m k) j d = SMap.get m j d := by
  simp [SMap.get, SMap.look_del_ne m h]

@[simp] theorem SMap.get_set_same [DecidableEq α] (m : SMap α) (k : Nat) (v d : α) : SMap.get (SMap.set m k v d) k d = v := by
  unfold SMap.set
  split
  · rename_i h
    simp [h]
  · simp

theorem SMap.get_set_ne [DecidableEq α] (m : SMap α) {k j : Nat} (v d e : α) (h : j ≠ k) : SMap.get (SMap.set m k v d) j e = SMap.get m j e := by
  unfold SMap.set
  split
  · exact SMap.get_del_ne m e h
  · exact SMap.get_put_ne m v e h

/-- A key lies below every key of a table. -/
def SMap.under (k : Nat) (m : SMap α) : Prop := ∀ x ∈ m, k < x.1

theorem SMap.sorted_cons (x : Nat × α) (m : SMap α) : SMap.sorted (x :: m) = true ↔ SMap.under x.1 m ∧ SMap.sorted m = true := by
  obtain ⟨j, v⟩ := x
  induction m generalizing j v with
  | nil => simp [SMap.sorted, SMap.under]
  | cons y m ih =>
    obtain ⟨k, w⟩ := y
    have hk := ih k w
    simp only [SMap.sorted, Bool.and_eq_true, decide_eq_true_eq]
    constructor
    · rintro ⟨h1, h2⟩
      refine ⟨?_, h2⟩
      intro z hz
      rcases List.mem_cons.mp hz with rfl | hz
      · exact h1
      · exact Nat.lt_trans h1 ((hk.mp h2).1 z hz)
    · rintro ⟨h1, h2⟩
      exact ⟨h1 _ List.mem_cons_self, h2⟩

theorem SMap.under_del {j : Nat} (m : SMap α) (k : Nat) (h : SMap.under j m) : SMap.under j (SMap.del m k) := by
  induction m with
  | nil => exact h
  | cons x m ih =>
    obtain ⟨i, w⟩ := x
    have hm : SMap.under j m := fun z hz => h z (List.mem_cons_of_mem _ hz)
    simp only [SMap.del]
    split
    · exact ih hm
    · intro z hz
      rcases List.mem_cons.mp hz with rfl | hz
      · exact h _ List.mem_cons_self
      · exact ih hm z hz

theorem SMap.under_put {j : Nat} (m : SMap α) {k : Nat} (v : α) (hk : j < k) (h : SMap.under j m) : SMap.under j (SMap.put m k v) := by
  induction m with
  | nil => intro z hz; simp [SMap.put] at hz; subst hz; exact hk
  | cons x m ih =>
    obtain ⟨i, w⟩ := x
    have hm : SMap.under j m := fun z hz => h z (List.mem_cons_of_mem _ hz)
    have hi : j < i := h _ List.mem_cons_self
    simp only [SMap.put]
    split
    · intro z hz
      simp only [List.mem_cons] at hz
      rcases hz with rfl | rfl | hz
      · exact hk
      · exact hi
      · exact hm z hz
    · split
      · intro z hz
        rcases List.mem_cons.mp hz with rfl | hz
        · exact hk
        · exact hm z hz
      · intro z hz
        rcases List.mem_cons.mp hz with rfl | hz
        · exact hi
        · exact ih hm z hz

theorem SMap.sorted_del (m : SMap α) (k : Nat) (h : SMap.sorted m = true) : SMap.sorted (SMap.del m k) = true := by
  induction m with
  | nil => exact h
  | cons x m ih =>
    obtain ⟨i, w⟩ := x
    have hx := (SMap.sorted_cons _ _).mp h
    simp only [SMap.del]
    split
    · exact ih hx.2
    · exact (SMap.sorted_cons _ _).mpr ⟨SMap.under_del m k hx.1, ih hx.2⟩

theorem SMap.sorted_put (m : SMap α) (k : Nat) (v : α) (h : SMap.sorted m = true) : SMap.sorted (SMap.put m k v) = true := by
  induction m with
  | nil => rfl
  | cons x m ih =>
    obtain ⟨i, w⟩ := x
    have hx := (SMap.sorted_cons _ _).mp h
    simp only [SMap.put]
    split
    · rename_i hki
      refine (SMap.sorted_cons _ _).mpr ⟨?_, h⟩
      intro z hz
      rcases List.mem_cons.mp hz with rfl | hz
      · exact hki
      · exact Nat.lt_trans hki (hx.1 z hz)
    · rename_i hki
      split
      · rename_i hik
        subst hik
        exact (SMap.sorted_cons _ _).mpr hx
      · rename_i hik
        exact (SMap.sorted_cons _ _).mpr ⟨SMap.under_put m v (by simp only; omega) hx.1, ih hx.2⟩

theorem SMap.sorted_set [DecidableEq α] (m : SMap α) (k : Nat) (v d : α) (h : SMap.sorted m = true) : SMap.sorted (SMap.set m k v d) = true := by
  unfold SMap.set
  split
  · exact SMap.sorted_del m k h
  · exact SMap.sorted_put m k v h

theorem SMap.mem_del {m : SMap α} {k : Nat} {x : Nat × α} (h : x ∈ SMap.del m k) : x ∈ m := by
  induction m with
  | nil => exact h
  | cons y m ih =>
    obtain ⟨i, w⟩ := y
    simp only [SMap.del] at h
    split at h
    · exact List.mem_cons_of_mem _ (ih h)
    · rcases List.mem_cons.mp h with rfl | h
      · exact List.mem_cons_self
      · exact List.mem_cons_of_mem _ (ih h)

theorem SMap.mem_put {m : SMap α} {k : Nat} {v : α} {x : Nat × α} (h : x ∈ SMap.put m k v) : x = (k, v) ∨ x ∈ m := by
  induction m with
  | nil => simpa [SMap.put] using h
  | cons y m ih =>
    obtain ⟨i, w⟩ := y
    simp only [SMap.put] at h
    split at h
    · simpa using h
    · split at h
      · rcases List.mem_cons.mp h with rfl | h
        · exact Or.inl rfl
        · exact Or.inr (List.mem_cons_of_mem _ h)
      · rcases List.mem_cons.mp h with rfl | h
        · exact Or.inr List.mem_cons_self
        · rcases ih h with h | h
          · exact Or.inl h
          · exact Or.inr (List.mem_cons_of_mem _ h)

/-! ## The pair of copies -/

@[simp] theorem Two.get_set_same (t : Two α) (k : Nat) (v : α) : (t.set k v).get k = v := by
  unfold Two.set Two.get
  split <;> simp

theorem Two.get_set_ne (t : Two α) {k j : Nat} (v : α) (h : (j = 0) ≠ (k = 0)) : (t.set k v).get j = t.get j := by
  unfold Two.set Two.get
  by_cases hj : j = 0 <;> by_cases hk : k = 0 <;> simp_all

@[simp] theorem Two.upd_d0 (t : Two α) (f : α → α) : (t.upd 0 f).d0 = f t.d0 := rfl
@[simp] theorem Two.upd_d0_other (t : Two α) (f : α → α) : (t.upd 0 f).d1 = t.d1 := rfl
@[simp] theorem Two.upd_d1 (t : Two α) (f : α → α) : (t.upd 1 f).d1 = f t.d1 := rfl
@[simp] theorem Two.upd_d1_other (t : Two α) (f : α → α) : (t.upd 1 f).d0 = t.d0 := rfl
@[simp] theorem Two.both_get (t : Two α) (f : α → α) (k : Nat) : (t.both f).get k = f (t.get k) := by
  unfold Two.both Two.get
  split <;> rfl

end Sys2Proof.Machine
end

