-- ==== Sys2Proof/Laws/Ops.lean ====
section
/-! SUPPORT. Laws of the register file: what a register, and a field of it, reads after a register or field is written;
what the trace writer leaves. -/

namespace Sys2Proof.Machine

theorem regWord_lt (regs : SMap Word) (a rst : Nat) : regWord regs a rst < 2 ^ 32 := (SMap.get regs a (BitVec.ofNat 32 rst)).isLt

@[simp] theorem regWord_regPut_same (regs : SMap Word) (a rst v : Nat) : regWord (regPut regs a rst v) a rst = v % 2 ^ 32 := by
  simp [regWord, regPut]

theorem regWord_regPut_ne (regs : SMap Word) {a b : Nat} (rst v rst' : Nat) (h : b ≠ a) : regWord (regPut regs a rst v) b rst' = regWord regs b rst' := by
  simp only [regWord, regPut]
  rw [SMap.get_set_ne _ _ _ _ h]

/-- A write of registers leaves everything but the register file as it stands. -/
@[simp] theorem Dev.setW_free (d : Dev) (r : RegSpec) (ix : List Nat) (v : Nat) : (d.setW r ix v).free = d.free := rfl
@[simp] theorem Dev.setW_glb (d : Dev) (r : RegSpec) (ix : List Nat) (v : Nat) : (d.setW r ix v).glb = d.glb := rfl
@[simp] theorem Dev.setW_sec (d : Dev) (r : RegSpec) (ix : List Nat) (v : Nat) : (d.setW r ix v).sec = d.sec := rfl
@[simp] theorem Dev.setW_tim (d : Dev) (r : RegSpec) (ix : List Nat) (v : Nat) : (d.setW r ix v).tim = d.tim := rfl
@[simp] theorem Dev.setW_hif (d : Dev) (r : RegSpec) (ix : List Nat) (v : Nat) : (d.setW r ix v).hif = d.hif := rfl
@[simp] theorem Dev.setW_gal (d : Dev) (r : RegSpec) (ix : List Nat) (v : Nat) : (d.setW r ix v).gal = d.gal := rfl
@[simp] theorem Dev.setW_err (d : Dev) (r : RegSpec) (ix : List Nat) (v : Nat) : (d.setW r ix v).err = d.err := rfl
@[simp] theorem Dev.setW_trc (d : Dev) (r : RegSpec) (ix : List Nat) (v : Nat) : (d.setW r ix v).trc = d.trc := rfl
@[simp] theorem Dev.setW_flw (d : Dev) (r : RegSpec) (ix : List Nat) (v : Nat) : (d.setW r ix v).flw = d.flw := rfl
@[simp] theorem Dev.setW_pk (d : Dev) (r : RegSpec) (ix : List Nat) (v : Nat) : (d.setW r ix v).pk = d.pk := rfl
@[simp] theorem Dev.setW_buf (d : Dev) (r : RegSpec) (ix : List Nat) (v : Nat) : (d.setW r ix v).buf = d.buf := rfl
@[simp] theorem Dev.setW_egr (d : Dev) (r : RegSpec) (ix : List Nat) (v : Nat) : (d.setW r ix v).egr = d.egr := rfl
@[simp] theorem Dev.setW_act (d : Dev) (r : RegSpec) (ix : List Nat) (v : Nat) : (d.setW r ix v).act = d.act := rfl
@[simp] theorem Dev.setW_eng (d : Dev) (r : RegSpec) (ix : List Nat) (v : Nat) : (d.setW r ix v).eng = d.eng := rfl
@[simp] theorem Dev.setW_tsk (d : Dev) (r : RegSpec) (ix : List Nat) (v : Nat) : (d.setW r ix v).tsk = d.tsk := rfl
@[simp] theorem Dev.setW_hbm (d : Dev) (r : RegSpec) (ix : List Nat) (v : Nat) : (d.setW r ix v).hbm = d.hbm := rfl
@[simp] theorem Dev.setW_mat (d : Dev) (r : RegSpec) (ix : List Nat) (v : Nat) : (d.setW r ix v).mat = d.mat := rfl

/-- A field write is a register write, or nothing for a field the register has not. -/
theorem Dev.put_eq (d : Dev) (r : RegSpec) (ix : List Nat) (f : String) (v : Nat) : ∃ m, d.put r ix f v = { d with regs := m } := by
  unfold Dev.put
  split
  · exact ⟨_, rfl⟩
  · exact ⟨d.regs, rfl⟩

@[simp] theorem Dev.put_free (d : Dev) (r : RegSpec) (ix : List Nat) (f : String) (v : Nat) : (d.put r ix f v).free = d.free := by
  obtain ⟨m, h⟩ := d.put_eq r ix f v; rw [h]
@[simp] theorem Dev.put_glb (d : Dev) (r : RegSpec) (ix : List Nat) (f : String) (v : Nat) : (d.put r ix f v).glb = d.glb := by
  obtain ⟨m, h⟩ := d.put_eq r ix f v; rw [h]
@[simp] theorem Dev.put_sec (d : Dev) (r : RegSpec) (ix : List Nat) (f : String) (v : Nat) : (d.put r ix f v).sec = d.sec := by
  obtain ⟨m, h⟩ := d.put_eq r ix f v; rw [h]
@[simp] theorem Dev.put_tim (d : Dev) (r : RegSpec) (ix : List Nat) (f : String) (v : Nat) : (d.put r ix f v).tim = d.tim := by
  obtain ⟨m, h⟩ := d.put_eq r ix f v; rw [h]
@[simp] theorem Dev.put_hif (d : Dev) (r : RegSpec) (ix : List Nat) (f : String) (v : Nat) : (d.put r ix f v).hif = d.hif := by
  obtain ⟨m, h⟩ := d.put_eq r ix f v; rw [h]
@[simp] theorem Dev.put_gal (d : Dev) (r : RegSpec) (ix : List Nat) (f : String) (v : Nat) : (d.put r ix f v).gal = d.gal := by
  obtain ⟨m, h⟩ := d.put_eq r ix f v; rw [h]
@[simp] theorem Dev.put_err (d : Dev) (r : RegSpec) (ix : List Nat) (f : String) (v : Nat) : (d.put r ix f v).err = d.err := by
  obtain ⟨m, h⟩ := d.put_eq r ix f v; rw [h]
@[simp] theorem Dev.put_trc (d : Dev) (r : RegSpec) (ix : List Nat) (f : String) (v : Nat) : (d.put r ix f v).trc = d.trc := by
  obtain ⟨m, h⟩ := d.put_eq r ix f v; rw [h]
@[simp] theorem Dev.put_flw (d : Dev) (r : RegSpec) (ix : List Nat) (f : String) (v : Nat) : (d.put r ix f v).flw = d.flw := by
  obtain ⟨m, h⟩ := d.put_eq r ix f v; rw [h]
@[simp] theorem Dev.put_pk (d : Dev) (r : RegSpec) (ix : List Nat) (f : String) (v : Nat) : (d.put r ix f v).pk = d.pk := by
  obtain ⟨m, h⟩ := d.put_eq r ix f v; rw [h]
@[simp] theorem Dev.put_buf (d : Dev) (r : RegSpec) (ix : List Nat) (f : String) (v : Nat) : (d.put r ix f v).buf = d.buf := by
  obtain ⟨m, h⟩ := d.put_eq r ix f v; rw [h]
@[simp] theorem Dev.put_egr (d : Dev) (r : RegSpec) (ix : List Nat) (f : String) (v : Nat) : (d.put r ix f v).egr = d.egr := by
  obtain ⟨m, h⟩ := d.put_eq r ix f v; rw [h]
@[simp] theorem Dev.put_act (d : Dev) (r : RegSpec) (ix : List Nat) (f : String) (v : Nat) : (d.put r ix f v).act = d.act := by
  obtain ⟨m, h⟩ := d.put_eq r ix f v; rw [h]
@[simp] theorem Dev.put_eng (d : Dev) (r : RegSpec) (ix : List Nat) (f : String) (v : Nat) : (d.put r ix f v).eng = d.eng := by
  obtain ⟨m, h⟩ := d.put_eq r ix f v; rw [h]
@[simp] theorem Dev.put_tsk (d : Dev) (r : RegSpec) (ix : List Nat) (f : String) (v : Nat) : (d.put r ix f v).tsk = d.tsk := by
  obtain ⟨m, h⟩ := d.put_eq r ix f v; rw [h]
@[simp] theorem Dev.put_hbm (d : Dev) (r : RegSpec) (ix : List Nat) (f : String) (v : Nat) : (d.put r ix f v).hbm = d.hbm := by
  obtain ⟨m, h⟩ := d.put_eq r ix f v; rw [h]
@[simp] theorem Dev.put_mat (d : Dev) (r : RegSpec) (ix : List Nat) (f : String) (v : Nat) : (d.put r ix f v).mat = d.mat := by
  obtain ⟨m, h⟩ := d.put_eq r ix f v; rw [h]

/-- Bits a register holds. -/
def RegSpec.bits (r : RegSpec) : Nat := if r.wide then 64 else 32

/-- Two register instances share no word. -/
def RegSpec.apart (r : RegSpec) (ix : List Nat) (q : RegSpec) (jx : List Nat) : Prop :=
  r.addr ix ≠ q.addr jx ∧ (r.wide = true → r.addr ix + 4 ≠ q.addr jx) ∧ (q.wide = true → r.addr ix ≠ q.addr jx + 4)

theorem Dev.getW_lt (d : Dev) (r : RegSpec) (ix : List Nat) : d.getW r ix < 2 ^ r.bits := by
  unfold Dev.getW RegSpec.bits
  have h1 := regWord_lt d.regs (r.addr ix) r.reset
  have h2 := regWord_lt d.regs (r.addr ix + 4) (r.reset / 2 ^ 32)
  cases hw : r.wide
  · simpa using h1
  · simp only [if_true]
    omega

/-- A register reads back what it was set to, within its width. -/
@[simp] theorem Dev.getW_setW_same (d : Dev) (r : RegSpec) (ix : List Nat) (v : Nat) : (d.setW r ix v).getW r ix = v % 2 ^ r.bits := by
  unfold Dev.getW Dev.setW RegSpec.bits
  cases hw : r.wide
  · simp
  · simp only [if_true, regWord_regPut_same]
    rw [regWord_regPut_ne _ _ _ _ (by omega), regWord_regPut_same]
    omega

/-- Setting a register leaves every register that shares no word with it. -/
theorem Dev.getW_setW_ne (d : Dev) {r q : RegSpec} {ix jx : List Nat} (v : Nat) (h : r.apart ix q jx) : (d.setW r ix v).getW q jx = d.getW q jx := by
  obtain ⟨h1, h2, h3⟩ := h
  unfold Dev.getW Dev.setW
  cases hr : r.wide <;> cases hq : q.wide <;> simp only [if_true, if_false, Bool.false_eq_true]
  · rw [regWord_regPut_ne _ _ _ _ (Ne.symm h1)]
  · rw [regWord_regPut_ne _ _ _ _ (Ne.symm h1), regWord_regPut_ne _ _ _ _ (Ne.symm (h3 hq))]
  · rw [regWord_regPut_ne _ _ _ _ (Ne.symm (h2 hr)), regWord_regPut_ne _ _ _ _ (Ne.symm h1)]
  · have h4 : q.addr jx + 4 ≠ r.addr ix + 4 := fun he => h1 (by omega)
    rw [regWord_regPut_ne _ _ _ _ (Ne.symm (h2 hr)), regWord_regPut_ne _ _ _ _ (Ne.symm h1), regWord_regPut_ne _ _ _ _ h4,
      regWord_regPut_ne _ _ _ _ (Ne.symm (h3 hq))]

/-- A field reads back the low bits of what it was set to. -/
theorem Dev.get_put_same (d : Dev) {r : RegSpec} (ix : List Nat) {f : String} {g : RField} (v : Nat) (hf : r.field f = some g)
    (hl : g.lo ≤ g.hi) (hh : g.hi < r.bits) : (d.put r ix f v).get r ix f = v % 2 ^ (g.hi + 1 - g.lo) := by
  simp only [Dev.put, Dev.get, hf, Dev.getW_setW_same]
  rw [Nat.mod_eq_of_lt (setBits_lt hl hh (d.getW_lt r ix)), bitsOf_setBits_same]

/-- A field reads as before after another field of its register is set. -/
theorem Dev.get_put_field (d : Dev) {r : RegSpec} (ix : List Nat) {f f' : String} {g g' : RField} (v : Nat) (hf : r.field f = some g)
    (hf' : r.field f' = some g') (hl : g.lo ≤ g.hi) (hh : g.hi < r.bits) (hd : g.hi < g'.lo ∨ g'.hi < g.lo) :
    (d.put r ix f v).get r ix f' = d.get r ix f' := by
  simp only [Dev.put, Dev.get, hf, hf', Dev.getW_setW_same]
  rw [Nat.mod_eq_of_lt (setBits_lt hl hh (d.getW_lt r ix)), bitsOf_setBits_ne _ _ hl hd]

theorem Dev.getW_put_ne (d : Dev) {r q : RegSpec} {ix jx : List Nat} (f : String) (v : Nat) (h : r.apart ix q jx) :
    (d.put r ix f v).getW q jx = d.getW q jx := by
  unfold Dev.put
  split
  · exact Dev.getW_setW_ne d _ h
  · rfl

/-- A field reads as before after a register that shares no word with its own is set. -/
theorem Dev.get_put_ne (d : Dev) {r q : RegSpec} {ix jx : List Nat} (f f' : String) (v : Nat) (h : r.apart ix q jx) :
    (d.put r ix f v).get q jx f' = d.get q jx f' := by
  simp only [Dev.get, Dev.getW_put_ne d f v h]

/-- R684: a counter after it is raised. -/
theorem Dev.get_bump_same (d : Dev) {r : RegSpec} (ix : List Nat) {f : String} {g : RField} (n : Nat) (hf : r.field f = some g)
    (hl : g.lo ≤ g.hi) (hh : g.hi < r.bits) : (d.bump r ix f n).get r ix f = (d.get r ix f + n) % 2 ^ (g.hi + 1 - g.lo) :=
  d.get_put_same ix _ hf hl hh

/-- The register file keeps its canonical form: keys rising. -/
theorem Dev.regs_sorted_setW (d : Dev) (r : RegSpec) (ix : List Nat) (v : Nat) (h : SMap.sorted d.regs = true) : SMap.sorted (d.setW r ix v).regs = true := by
  unfold Dev.setW regPut
  simp only
  split
  · exact SMap.sorted_set _ _ _ _ (SMap.sorted_set _ _ _ _ h)
  · exact SMap.sorted_set _ _ _ _ h

/-! ## The trace writer (R671, R673) -/

@[simp] theorem Two.set_get_self {α : Type} (t : Two α) (k : Nat) : t.set k (t.get k) = t := by
  unfold Two.set Two.get
  split <;> simp_all

@[simp] theorem Two.set_set {α : Type} (t : Two α) (k : Nat) (v w : α) : (t.set k v).set k w = t.set k w := by
  unfold Two.set
  split <;> rfl

/-- What the writer of die k's trace leaves: everything but that die's trace, in it the paths' latches and the sampling counts, and of the registers all that
share no word with the die's TRC_SEQ and TRC_STAT. -/
structure TrcFrame (k : Nat) (d d' : Dev) : Prop where
  rest : ∃ m, d' = { d with regs := m, trc := d.trc.set k (d'.trc.get k) }
  idxG : (d'.trc.get k).idxG = (d.trc.get k).idxG
  latP : (d'.trc.get k).latP = (d.trc.get k).latP
  latG : (d'.trc.get k).latG = (d.trc.get k).latG
  samp : (d'.trc.get k).samp = (d.trc.get k).samp
  regs : ∀ (q : RegSpec) (jx : List Nat), R.TRC_SEQ.apart [k] q jx → R.TRC_STAT.apart [k] q jx → d'.getW q jx = d.getW q jx

theorem TrcFrame.refl (k : Nat) (d : Dev) : TrcFrame k d d := ⟨⟨d.regs, by simp⟩, rfl, rfl, rfl, rfl, fun _ _ _ _ => rfl⟩

theorem TrcFrame.trans {k : Nat} {a b c : Dev} (h : TrcFrame k a b) (g : TrcFrame k b c) : TrcFrame k a c := by
  refine ⟨?_, g.idxG.trans h.idxG, g.latP.trans h.latP, g.latG.trans h.latG, g.samp.trans h.samp,
    fun q jx hq hs => (g.regs q jx hq hs).trans (h.regs q jx hq hs)⟩
  obtain ⟨m, hb⟩ := h.rest
  obtain ⟨m', hc⟩ := g.rest
  refine ⟨m', hc.trans ?_⟩
  generalize c.trc.get k = tc
  rw [hb]
  simp

theorem Dev.put_trcFrame (d : Dev) (k : Nat) {r : RegSpec} (f : String) (v : Nat) (h : r = R.TRC_SEQ ∨ r = R.TRC_STAT) :
    TrcFrame k d (d.put r [k] f v) := by
  refine ⟨?_, by simp, by simp, by simp, by simp, fun q jx hq hs => ?_⟩
  · obtain ⟨m, e⟩ := d.put_eq r [k] f v
    exact ⟨m, by simp [e]⟩
  · rcases h with rfl | rfl
    · exact d.getW_put_ne f v hq
    · exact d.getW_put_ne f v hs

/-- The trace of die k replaced by one with the same latches and sampling counts. -/
theorem Dev.trc_trcFrame (d : Dev) (k : Nat) (t : TrcS) (hi : t.idxG = (d.trc.get k).idxG) (hp : t.latP = (d.trc.get k).latP)
    (hg : t.latG = (d.trc.get k).latG) (hs : t.samp = (d.trc.get k).samp) : TrcFrame k d { d with trc := d.trc.set k t } :=
  ⟨⟨d.regs, by simp⟩, by simp [hi], by simp [hp], by simp [hg], by simp [hs], fun _ _ _ _ => rfl⟩

theorem Dev.trcStore_frame (d : Dev) (k : Nat) (x : TrcRec) : TrcFrame k d (d.trcStore k x) := by
  unfold Dev.trcStore
  simp only
  split
  · apply TrcFrame.trans _ (Dev.put_trcFrame _ k _ _ (.inr rfl))
    apply TrcFrame.trans _ (Dev.put_trcFrame _ k _ _ (.inr rfl))
    apply TrcFrame.trans _ (Dev.put_trcFrame _ k _ _ (.inl rfl))
    apply Dev.trc_trcFrame <;> rfl
  · apply TrcFrame.trans _ (Dev.put_trcFrame _ k _ _ (.inr rfl))
    apply TrcFrame.trans _ (Dev.put_trcFrame _ k _ _ (.inl rfl))
    apply Dev.trc_trcFrame <;> rfl

theorem Dev.trcDrain_frame (k n : Nat) (d : Dev) : TrcFrame k d (Dev.trcDrain k n d) := by
  induction n generalizing d with
  | zero => exact .refl k d
  | succ n ih =>
    unfold Dev.trcDrain
    simp only
    split
    · exact .refl k d
    · split
      · exact .refl k d
      · split
        · exact .refl k d
        · apply TrcFrame.trans _ (ih _)
          apply TrcFrame.trans _ (Dev.trcStore_frame _ k _)
          apply Dev.trc_trcFrame <;> rfl

/-- Before the host reads or clears a die's trace the writer changes that trace alone. -/
theorem Dev.trcSettle_frame (d : Dev) (k : Nat) : TrcFrame k d (d.trcSettle k) := Dev.trcDrain_frame k 96 d

/-- R681: once the last record after a trigger is stored the writer stores no more. -/
theorem Dev.trcSettle_stopping (d : Dev) (k : Nat) (h : (d.trc.get k).post = some 0) : d.trcSettle k = d := by
  simp [Dev.trcSettle, Dev.trcDrain, h]

end Sys2Proof.Machine
end

