-- ==== Sys2Proof/Laws/Access.lean ====
section
/-! SUPPORT. What a host access does: a write that its register takes performs that register's effect, and a read shows the register. -/

namespace Sys2Proof.Machine

/-- The dims of the scratch apertures: die, region, cluster. -/
def aperDims : List (Nat × Nat × Nat) := R.KCS_PATCH_VER.dims

/-- The offset of the first aperture. -/
def aperLo : Nat := R.KCS_PATCH_VER.off + 0x20000

/-- The bytes of an aperture. -/
def aperLen : Nat := 0x20000

/-- R26: no scratch aperture covers an instance of the register. -/
def RegSpec.offAper (r : RegSpec) : Bool :=
  disjoint r.dims r.off aperDims aperLo r.size aperLen
    || match aperDims with
      | (_, hi, t) :: es => (List.range (hi + 1)).all (fun i => disjoint r.dims r.off es (aperLo + i * t) r.size aperLen)
      | [] => false

theorem offAper_sound {r : RegSpec} (h : r.offAper = true) {ix jx : List Nat} (hi : ixOk r.dims ix = true) (hj : ixOk aperDims jx = true)
    {y : Nat} (hy : y < aperLen) : r.addr ix ≠ aperLo + ixOff aperDims jx + y := by
  have hx : 0 < r.size := by unfold RegSpec.size; split <;> omega
  rw [addr_eq]
  unfold RegSpec.offAper at h
  rw [Bool.or_eq_true] at h
  rcases h with h | h
  · simpa using disjoint_sound h hi hj hx hy
  · generalize aperDims = es at h hj ⊢
    cases es with
    | nil => simp at h
    | cons p es =>
      obtain ⟨lo, hi', t⟩ := p
      cases jx with
      | nil => simp [ixOk] at hj
      | cons j jx =>
        simp only [ixOk, Bool.and_eq_true, decide_eq_true_eq, List.all_eq_true, List.mem_range] at h hj
        have h3 := disjoint_sound (h j (by omega)) hi hj.2 hx hy
        simp only [ixOff]
        omega

theorem apertureOff_eq {k : Nat} (hk : k < 12) : apertureOff k 0 = aperLo + ixOff aperDims (clIx k) ∧ ixOk aperDims (clIx k) = true := by
  have : (List.range 12).all (fun k => decide (apertureOff k 0 = aperLo + ixOff aperDims (clIx k)) && ixOk aperDims (clIx k)) = true := by
    decide +kernel
  have h := List.all_eq_true.mp this k (List.mem_range.mpr hk)
  simpa using h

theorem aperOf_addr {r : RegSpec} (h : r.offAper = true) {ix : List Nat} (hi : ixOk r.dims ix = true) : aperOf (r.addr ix) = none := by
  unfold aperOf
  rw [List.findSome?_eq_none_iff]
  intro k hk
  rw [List.mem_range] at hk
  obtain ⟨h1, h2⟩ := apertureOff_eq hk
  rw [h1, show 0x20000 = aperLen from rfl]
  generalize ha : aperLo = a at *
  generalize hl : aperLen = n at *
  have h3 := fun y (hy : y < n) => ha ▸ offAper_sound h hi h2 (hl ▸ hy)
  dsimp only
  split
  · rename_i hc
    simp only [Bool.and_eq_true, decide_eq_true_eq] at hc
    exact absurd (by omega) (h3 (r.addr ix - (a + ixOff aperDims (clIx k))) (by omega))
  · rfl

/-- What the map of the registers is checked for, register by register. -/
def RegSpec.placed (r : RegSpec) : Bool := R.all.contains r && r.alone R.all && nested r.size r.dims && r.offAper

theorem placed_findReg {r : RegSpec} (h : r.placed = true) {ix : List Nat} (hi : ixOk r.dims ix = true) : findReg (r.addr ix) = some ⟨r, ix, false⟩ := by
  simp only [RegSpec.placed, Bool.and_eq_true] at h
  exact findReg_addr (by simpa using h.1.1.1) h.1.1.2 h.1.2 hi

theorem placed_aperOf {r : RegSpec} (h : r.placed = true) {ix : List Nat} (hi : ixOk r.dims ix = true) : aperOf (r.addr ix) = none := by
  simp only [RegSpec.placed, Bool.and_eq_true] at h
  exact aperOf_addr h.2 hi

theorem shows_accErr {d : Dev} {p : Path} {r : RegSpec} {ix : List Nat} (hs : d.shows p r ix = true) (h : r.placed = true) (hi : ixOk r.dims ix = true) :
    d.accErr (r.addr ix) = none := by
  simp only [Dev.shows, Bool.and_eq_true, Bool.not_eq_true', Bool.or_eq_true] at hs
  obtain ⟨⟨⟨⟨-, -⟩, h1⟩, h2⟩, h3⟩ := hs
  unfold Dev.accErr
  simp only [placed_findReg h hi, h1]
  rw [if_neg (by simp), if_neg, if_neg]
  · simpa using h3
  · rcases h2 with h2 | h2
    · simp [h2]
    · simp_all

/-- R13: a write that a register of one word takes has the register's effect, and no other. -/
theorem hostWrite_takes {d : Dev} {p : Path} {r : RegSpec} {ix : List Nat} {v : Nat} (ht : d.takes p r ix v = true) (h : r.placed = true)
    (hi : ixOk r.dims ix = true) (hw : r.wide = false) (hv : v < 2 ^ 32) : d.hostWrite p (r.addr ix) (BitVec.ofNat 32 v) = d.performWrite p ⟨r, ix, false⟩ v := by
  simp only [Dev.takes, Bool.and_eq_true, Bool.not_eq_true', beq_iff_eq] at ht
  obtain ⟨⟨⟨⟨⟨hs, hm⟩, hl⟩, hc⟩, hr⟩, hg⟩ := ht
  have ha := shows_accErr hs h hi
  simp only [Dev.shows, Bool.and_eq_true, Bool.not_eq_true'] at hs
  obtain ⟨⟨⟨⟨h1, h2⟩, -⟩, -⟩, -⟩ := hs
  have hdrop : d.dropStaged p ⟨r, ix, false⟩ = d := by
    simp only [Dev.dropStaged, hw, Bool.false_and, Bool.false_eq_true, if_false]
    split <;> rfl
  have hwhole : d.wholeValue p ⟨r, ix, false⟩ v = v := by
    simp only [Dev.wholeValue, hw, Bool.not_false, if_true]
  have hvn : (BitVec.ofNat 32 v).toNat = v := by rw [BitVec.toNat_ofNat, Nat.mod_eq_of_lt hv]
  unfold Dev.hostWrite
  simp only [h1, h2, Bool.not_true, if_false, Bool.false_eq_true]
  unfold Dev.doWrite
  rw [ha, placed_aperOf h hi, placed_findReg h hi]
  simp only [hm, Bool.false_eq_true, if_false, hvn]
  unfold Dev.regWrite
  simp only [hdrop, hwhole, hl, hc, hr, hg, Bool.false_eq_true, if_false, bne_self_eq_false, Bool.or_self]
  simp [Dev.landWrite, hw]

/-- R116: the capability list ends before offset 0x800. -/
theorem capDwords_length (off : Nat) (l : List (Nat × List Nat)) : (capDwords off l).length = (l.map (fun x => 2 + x.2.length)).sum := by
  induction l generalizing off with
  | nil => rfl
  | cons x l ih =>
    obtain ⟨i, b⟩ := x
    simp only [capDwords, List.length_append, List.length_cons, List.length_nil, ih, List.map_cons, List.sum_cons]

theorem sum_le {l : List Nat} {n : Nat} (h : ∀ x ∈ l, x ≤ n) : l.sum ≤ l.length * n := by
  induction l with
  | nil => simp
  | cons x l ih =>
    have h1 := h x List.mem_cons_self
    have h2 := ih (fun y hy => h y (List.mem_cons_of_mem _ hy))
    simp only [List.sum_cons, List.length_cons, Nat.succ_mul]
    omega

/-- A capability of at most two dwords of body. -/
def shortCaps (l : List (Nat × List Nat)) : Prop := ∀ x ∈ l, x.2.length ≤ 2

theorem shortCaps_append {a b : List (Nat × List Nat)} (ha : shortCaps a) (hb : shortCaps b) : shortCaps (a ++ b) := by
  intro x hx
  rcases List.mem_append.mp hx with h | h
  · exact ha x h
  · exact hb x h

theorem shortCaps_one {b : Bool} {x : Nat × List Nat} (h : x.2.length ≤ 2) : shortCaps (if b then [x] else []) ∧ (if b then [x] else []).length ≤ 1 := by
  cases b
  · exact ⟨fun y hy => by simp at hy, by simp⟩
  · exact ⟨fun y hy => by simp at hy; subst hy; exact h, by simp⟩

theorem caps_short : shortCaps caps ∧ caps.length ≤ 64 := by
  unfold caps
  obtain ⟨h7, l7⟩ := shortCaps_one (b := Config.capCustomer) (x := (7, [0x3000 + 0x3FFF * 2 ^ 16])) (by simp)
  have h1 : shortCaps [(1, [0x10000000, 0x03000000]), (2, [0x200000]), (3, []), (4, [2048 + 32 * 2 ^ 16]), (5, [1024]), (6, [3200])] := by
    unfold shortCaps; decide
  have h8 : shortCaps [(8, []), (9, []), (0xA, [65536])] := by unfold shortCaps; decide
  have hE : shortCaps ((Config.errata.take 54).map (fun e => (e.1, [e.2.1, e.2.2]))) := by
    intro x hx; obtain ⟨e, -, rfl⟩ := List.mem_map.mp hx; simp
  have lE : ((Config.errata.take 54).map (fun e => (e.1, [e.2.1, e.2.2]))).length ≤ 54 := by simp
  refine ⟨?_, ?_⟩
  · repeat' apply shortCaps_append
    all_goals assumption
  · simp only [List.length_append, List.length_cons, List.length_nil] at *
    omega

theorem caps_length : (caps.map (fun x => 2 + x.2.length)).sum ≤ 256 := by
  have h1 : ∀ x ∈ caps.map (fun x => 2 + x.2.length), x ≤ 4 := by
    intro x hx
    obtain ⟨y, hy, rfl⟩ := List.mem_map.mp hx
    have := caps_short.1 y hy
    omega
  have h2 := sum_le h1
  have h3 := caps_short.2
  rw [List.length_map] at h2
  omega

theorem capWord_none {off : Nat} (h : 0x500 ≤ off) : capWord off = none := by
  unfold capWord
  split
  · rfl
  · rw [List.getElem?_eq_none]
    rw [capDwords_length]
    have := caps_length
    omega

/-- R13: a read that reaches a register shows it. -/
theorem hostRead_shows {d : Dev} {p : Path} {r : RegSpec} {ix : List Nat} (hs : d.shows p r ix = true) (h : r.placed = true)
    (hi : ixOk r.dims ix = true) (ho : 0x500 ≤ r.addr ix) (inc : Nat) : d.hostRead p (r.addr ix) inc = d.regRead p ⟨r, ix, false⟩ inc := by
  have ha := shows_accErr hs h hi
  simp only [Dev.shows, Bool.and_eq_true, Bool.not_eq_true'] at hs
  obtain ⟨⟨⟨⟨h1, h2⟩, -⟩, -⟩, -⟩ := hs
  unfold Dev.hostRead
  simp only [h1, h2, Bool.not_true, if_false, Bool.false_eq_true]
  unfold Dev.doRead
  rw [ha, capWord_none ho, placed_aperOf h hi]
  simp only [placed_findReg h hi]

/-- Two registers whose instances share no byte are apart; a read of one does not see a write of the other (`getW_setW_ne`, `get_put_ne`). -/
theorem apart_of_clear {r q : RegSpec} (h : r.clear q = true) {ix jx : List Nat} (hi : ixOk r.dims ix = true) (hj : ixOk q.dims jx = true) : r.apart ix q jx := by
  have key := fun x y => clear_sound h hi hj (x := x) (y := y)
  have hr : r.size = 8 ∨ r.size = 4 := by unfold RegSpec.size; split <;> simp
  have hq : q.size = 8 ∨ q.size = 4 := by unfold RegSpec.size; split <;> simp
  refine ⟨?_, ?_, ?_⟩
  · have := key 0 0 (by omega) (by omega)
    rw [addr_eq, addr_eq]; omega
  · intro hw
    have := key 4 0 (by simp [RegSpec.size, hw]) (by omega)
    rw [addr_eq, addr_eq]; omega
  · intro hw
    have := key 0 4 (by omega) (by simp [RegSpec.size, hw])
    rw [addr_eq, addr_eq]; omega

end Sys2Proof.Machine
end

