-- ==== Sys2Proof/Laws/Exec.lean ====
section
/-! SUPPORT. The dispatch, one lemma for each command, and what `within` and the step do to the queue. -/

namespace Sys2Proof.Machine

open Sys2Proof

theorem within_pos {ok : Bool} (h : ok = true) (s : State) (f : Dev → Dev) : within ok s f = .next { s with dev := f s.dev } := by
  rw [within, if_pos h]

theorem within_neg {ok : Bool} (h : ok = false) (s : State) (f : Dev → Dev) : within ok s f = .fault .noSuchUnit := by
  rw [within, if_neg (by simp [h])]

/-- Whatever a meaning does to the part, it leaves the queue. -/
theorem within_pending {ok : Bool} {s t : State} {f : Dev → Dev} (h : within ok s f = .next t) : t.pending = s.pending := by
  unfold within at h
  split at h
  · cases h; rfl
  · cases h

theorem below_iff (n x : Nat) : below n x = true ↔ x < n := by simp [below]

theorem step_cons {s : State} {c : Instr} {cs : List Instr} (h : s.pending = c :: cs) : step s = exec c { s with pending := cs } := by
  rw [step, h]

theorem step_nil {s : State} (h : s.pending = []) : step s = .next { s with dev := s.dev.idle } := by
  rw [step, h]

theorem exec_powerOnReset (refSel : Bool) (s : State) : exec (.powerOnReset refSel) s = execPowerOnReset refSel s := rfl
theorem exec_pinReset (refSel : Bool) (s : State) : exec (.pinReset refSel) s = execPinReset refSel s := rfl
theorem exec_hostPackageReset (p : Path) (v : Word) (s : State) : exec (.hostPackageReset p v) s = execHostPackageReset p v s := rfl
theorem exec_railUndervoltage (s : State) : exec (.railUndervoltage) s = execRailUndervoltage s := rfl
theorem exec_railRecovered (refSel : Bool) (s : State) : exec (.railRecovered refSel) s = execRailRecovered refSel s := rfl
theorem exec_dieSensorSample (t0 : Int) (t1 : Int) (s : State) : exec (.dieSensorSample t0 t1) s = execDieSensorSample t0 t1 s := rfl
theorem exec_pcieReset (ep : Nat) (kind : PcieReset) (s : State) : exec (.pcieReset ep kind) s = execPcieReset ep kind s := rfl
theorem exec_pcieEndpointReady (ep : Nat) (link : PcieLink) (en : PcieEnables) (s : State) :
    exec (.pcieEndpointReady ep link en) s = execPcieEndpointReady ep link en s := rfl
theorem exec_bootVerifyComplete (flash : FlashRead) (s : State) : exec (.bootVerifyComplete flash) s = execBootVerifyComplete flash s := rfl
theorem exec_imprintSelfTest (s : State) : exec (.imprintSelfTest) s = execImprintSelfTest s := rfl
theorem exec_modeRequest (p : Path) (w : ModeWord) (s : State) : exec (.modeRequest p w) s = execModeRequest p w s := rfl
theorem exec_flush (p : Path) (s : State) : exec (.flush p) s = execFlush p s := rfl
theorem exec_deferredTransitionStart (s : State) : exec (.deferredTransitionStart) s = execDeferredTransitionStart s := rfl
theorem exec_enrolToLoad (s : State) : exec (.enrolToLoad) s = execEnrolToLoad s := rfl
theorem exec_loadToRun (s : State) : exec (.loadToRun) s = execLoadToRun s := rfl
theorem exec_loadToProof (s : State) : exec (.loadToProof) s = execLoadToProof s := rfl
theorem exec_proofToLoad (s : State) : exec (.proofToLoad) s = execProofToLoad s := rfl
theorem exec_runToDrain (s : State) : exec (.runToDrain) s = execRunToDrain s := rfl
theorem exec_drainToRun (s : State) : exec (.drainToRun) s = execDrainToRun s := rfl
theorem exec_drainToLoad (s : State) : exec (.drainToLoad) s = execDrainToLoad s := rfl
theorem exec_drainToRest (s : State) : exec (.drainToRest) s = execDrainToRest s := rfl
theorem exec_restToRun (eyeFail : Option Nat) (s : State) : exec (.restToRun eyeFail) s = execRestToRun eyeFail s := rfl
theorem exec_drainComplete (s : State) : exec (.drainComplete) s = execDrainComplete s := rfl
theorem exec_drainTimeout (s : State) : exec (.drainTimeout) s = execDrainTimeout s := rfl
theorem exec_drainPauseRenew (s : State) : exec (.drainPauseRenew) s = execDrainPauseRenew s := rfl
theorem exec_hbmTrainingComplete (repaired : List LaneRepair) (s : State) : exec (.hbmTrainingComplete repaired) s = execHbmTrainingComplete repaired s := rfl
theorem exec_hbmTrainingFail (stack : Nat) (chan : TrainStop) (step : Nat) (code : Nat) (s : State) : exec (.hbmTrainingFail stack chan step code) s = execHbmTrainingFail stack chan step code s := rfl
theorem exec_formeGo (p : Path) (v : Word) (s : State) : exec (.formeGo p v) s = execFormeGo p v s := rfl
theorem exec_formeFetchComplete (img : Option (List Byte)) (s : State) : exec (.formeFetchComplete img) s = execFormeFetchComplete img s := rfl
theorem exec_formeVerifyComplete (s : State) : exec (.formeVerifyComplete) s = execFormeVerifyComplete s := rfl
theorem exec_formeValidateComplete (s : State) : exec (.formeValidateComplete) s = execFormeValidateComplete s := rfl
theorem exec_formeQuiesceComplete (s : State) : exec (.formeQuiesceComplete) s = execFormeQuiesceComplete s := rfl
theorem exec_formeQuiesceTimeout (s : State) : exec (.formeQuiesceTimeout) s = execFormeQuiesceTimeout s := rfl
theorem exec_updateSwitchPoint (s : State) : exec (.updateSwitchPoint) s = execUpdateSwitchPoint s := rfl
theorem exec_formeApplyComplete (s : State) : exec (.formeApplyComplete) s = execFormeApplyComplete s := rfl
theorem exec_patchGo (p : Path) (v : Word) (s : State) : exec (.patchGo p v) s = execPatchGo p v s := rfl
theorem exec_patchLoadComplete (img : Option (List Byte)) (s : State) : exec (.patchLoadComplete img) s = execPatchLoadComplete img s := rfl
theorem exec_frameReceive (port : Nat) (bytes : List Byte) (room : RxRoom) (s : State) :
    exec (.frameReceive port bytes room) s = execFrameReceive port bytes room s := rfl
theorem exec_parseComplete (pkt : Nat) (s : State) : exec (.parseComplete pkt) s = execParseComplete pkt s := rfl
theorem exec_descriptorReceive (d : Nat) (s : State) : exec (.descriptorReceive d) s = execDescriptorReceive d s := rfl
theorem exec_patternResultReady (pkt : Nat) (s : State) : exec (.patternResultReady pkt) s = execPatternResultReady pkt s := rfl
theorem exec_recordReturn (pkt : Nat) (s : State) : exec (.recordReturn pkt) s = execRecordReturn pkt s := rfl
theorem exec_replayEnd (pkt : Nat) (s : State) : exec (.replayEnd pkt) s = execReplayEnd pkt s := rfl
theorem exec_verdictReceive (d : Nat) (s : State) : exec (.verdictReceive d) s = execVerdictReceive d s := rfl
theorem exec_recirculate (g : Nat) (s : State) : exec (.recirculate g) s = execRecirculate g s := rfl
theorem exec_fastInsertComplete (pkt : Nat) (s : State) : exec (.fastInsertComplete pkt) s = execFastInsertComplete pkt s := rfl
theorem exec_setupTimeout (d : Nat) (i : Nat) (s : State) : exec (.setupTimeout d i) s = execSetupTimeout d i s := rfl
theorem exec_sweepVisit (raddr : Nat) (s : State) : exec (.sweepVisit raddr) s = execSweepVisit raddr s := rfl
theorem exec_exportWalkVisit (raddr : Nat) (s : State) : exec (.exportWalkVisit raddr) s = execExportWalkVisit raddr s := rfl
theorem exec_auuWb (raddr : Nat) (s : State) : exec (.auuWb raddr) s = execAuuWb raddr s := rfl
theorem exec_auuAdd (raddr : Nat) (s : State) : exec (.auuAdd raddr) s = execAuuAdd raddr s := rfl
theorem exec_auuStamp (raddr : Nat) (s : State) : exec (.auuStamp raddr) s = execAuuStamp raddr s := rfl
theorem exec_auuCset (raddr : Nat) (s : State) : exec (.auuCset raddr) s = execAuuCset raddr s := rfl
theorem exec_auuCdel (raddr : Nat) (s : State) : exec (.auuCdel raddr) s = execAuuCdel raddr s := rfl
theorem exec_auuCwrite (raddr : Nat) (s : State) : exec (.auuCwrite raddr) s = execAuuCwrite raddr s := rfl
theorem exec_auuFset (raddr : Nat) (bit : Nat) (s : State) : exec (.auuFset raddr bit) s = execAuuFset raddr bit s := rfl
theorem exec_auuFclr (raddr : Nat) (bit : Nat) (s : State) : exec (.auuFclr raddr bit) s = execAuuFclr raddr bit s := rfl
theorem exec_flowLookup (p : Path) (d : Nat) (s : State) : exec (.flowLookup p d) s = execFlowLookup p d s := rfl
theorem exec_flowDelete (p : Path) (d : Nat) (s : State) : exec (.flowDelete p d) s = execFlowDelete p d s := rfl
theorem exec_flowInsert (p : Path) (d : Nat) (s : State) : exec (.flowInsert p d) s = execFlowInsert p d s := rfl
theorem exec_hintInvalidate (p : Path) (d : Nat) (v : Word) (s : State) : exec (.hintInvalidate p d v) s = execHintInvalidate p d v s := rfl
theorem exec_hintInvalidateComplete (d : Nat) (s : State) : exec (.hintInvalidateComplete d) s = execHintInvalidateComplete d s := rfl
theorem exec_quoinGrant (raddr : Nat) (s : State) : exec (.quoinGrant raddr) s = execQuoinGrant raddr s := rfl
theorem exec_quoinWaitTimeout (e : Nat) (s : State) : exec (.quoinWaitTimeout e) s = execQuoinWaitTimeout e s := rfl
theorem exec_quoinSweepVisit (raddr : Nat) (s : State) : exec (.quoinSweepVisit raddr) s = execQuoinSweepVisit raddr s := rfl
theorem exec_tornLogPop (p : Path) (d : Nat) (s : State) : exec (.tornLogPop p d) s = execTornLogPop p d s := rfl
theorem exec_tornRead (p : Path) (d : Nat) (s : State) : exec (.tornRead p d) s = execTornRead p d s := rfl
theorem exec_tornRestore (p : Path) (d : Nat) (s : State) : exec (.tornRestore p d) s = execTornRestore p d s := rfl
theorem exec_tornEmpty (p : Path) (d : Nat) (s : State) : exec (.tornEmpty p d) s = execTornEmpty p d s := rfl
theorem exec_kAdd (e : Nat) (s : State) : exec (.kAdd e) s = execKAdd e s := rfl
theorem exec_kSub (e : Nat) (s : State) : exec (.kSub e) s = execKSub e s := rfl
theorem exec_kAnd (e : Nat) (s : State) : exec (.kAnd e) s = execKAnd e s := rfl
theorem exec_kOr (e : Nat) (s : State) : exec (.kOr e) s = execKOr e s := rfl
theorem exec_kXor (e : Nat) (s : State) : exec (.kXor e) s = execKXor e s := rfl
theorem exec_kShl (e : Nat) (s : State) : exec (.kShl e) s = execKShl e s := rfl
theorem exec_kShr (e : Nat) (s : State) : exec (.kShr e) s = execKShr e s := rfl
theorem exec_kSar (e : Nat) (s : State) : exec (.kSar e) s = execKSar e s := rfl
theorem exec_kRor (e : Nat) (s : State) : exec (.kRor e) s = execKRor e s := rfl
theorem exec_kMov (e : Nat) (s : State) : exec (.kMov e) s = execKMov e s := rfl
theorem exec_kMovhi (e : Nat) (s : State) : exec (.kMovhi e) s = execKMovhi e s := rfl
theorem exec_kExtr (e : Nat) (s : State) : exec (.kExtr e) s = execKExtr e s := rfl
theorem exec_kInsr (e : Nat) (s : State) : exec (.kInsr e) s = execKInsr e s := rfl
theorem exec_kCmpeq (e : Nat) (s : State) : exec (.kCmpeq e) s = execKCmpeq e s := rfl
theorem exec_kCmpltu (e : Nat) (s : State) : exec (.kCmpltu e) s = execKCmpltu e s := rfl
theorem exec_kCmplts (e : Nat) (s : State) : exec (.kCmplts e) s = execKCmplts e s := rfl
theorem exec_kMinu (e : Nat) (s : State) : exec (.kMinu e) s = execKMinu e s := rfl
theorem exec_kMaxu (e : Nat) (s : State) : exec (.kMaxu e) s = execKMaxu e s := rfl
theorem exec_kMul (e : Nat) (s : State) : exec (.kMul e) s = execKMul e s := rfl
theorem exec_kMulhu (e : Nat) (s : State) : exec (.kMulhu e) s = execKMulhu e s := rfl
theorem exec_kPopc (e : Nat) (s : State) : exec (.kPopc e) s = execKPopc e s := rfl
theorem exec_kClz (e : Nat) (s : State) : exec (.kClz e) s = execKClz e s := rfl
theorem exec_kBswap (e : Nat) (s : State) : exec (.kBswap e) s = execKBswap e s := rfl
theorem exec_kCrc64 (e : Nat) (s : State) : exec (.kCrc64 e) s = execKCrc64 e s := rfl
theorem exec_kCrc32c (e : Nat) (s : State) : exec (.kCrc32c e) s = execKCrc32c e s := rfl
theorem exec_kLdl (e : Nat) (s : State) : exec (.kLdl e) s = execKLdl e s := rfl
theorem exec_kStl (e : Nat) (s : State) : exec (.kStl e) s = execKStl e s := rfl
theorem exec_kLds (e : Nat) (s : State) : exec (.kLds e) s = execKLds e s := rfl
theorem exec_kSts (e : Nat) (s : State) : exec (.kSts e) s = execKSts e s := rfl
theorem exec_kCass (e : Nat) (s : State) : exec (.kCass e) s = execKCass e s := rfl
theorem exec_kFadds (e : Nat) (s : State) : exec (.kFadds e) s = execKFadds e s := rfl
theorem exec_kLdh (e : Nat) (s : State) : exec (.kLdh e) s = execKLdh e s := rfl
theorem exec_kSth (e : Nat) (s : State) : exec (.kSth e) s = execKSth e s := rfl
theorem exec_kQacq (e : Nat) (s : State) : exec (.kQacq e) s = execKQacq e s := rfl
theorem exec_kQtry (e : Nat) (s : State) : exec (.kQtry e) s = execKQtry e s := rfl
theorem exec_kQread (e : Nat) (s : State) : exec (.kQread e) s = execKQread e s := rfl
theorem exec_kQwrite (e : Nat) (s : State) : exec (.kQwrite e) s = execKQwrite e s := rfl
theorem exec_kQrel (e : Nat) (s : State) : exec (.kQrel e) s = execKQrel e s := rfl
theorem exec_kRadd (e : Nat) (s : State) : exec (.kRadd e) s = execKRadd e s := rfl
theorem exec_kRstamp (e : Nat) (s : State) : exec (.kRstamp e) s = execKRstamp e s := rfl
theorem exec_kRlook (e : Nat) (s : State) : exec (.kRlook e) s = execKRlook e s := rfl
theorem exec_kRins (e : Nat) (s : State) : exec (.kRins e) s = execKRins e s := rfl
theorem exec_kRdel (e : Nat) (s : State) : exec (.kRdel e) s = execKRdel e s := rfl
theorem exec_kLdt (e : Nat) (s : State) : exec (.kLdt e) s = execKLdt e s := rfl
theorem exec_kLdpkt (e : Nat) (s : State) : exec (.kLdpkt e) s = execKLdpkt e s := rfl
theorem exec_kPktsend (e : Nat) (s : State) : exec (.kPktsend e) s = execKPktsend e s := rfl
theorem exec_kPmcrd (e : Nat) (s : State) : exec (.kPmcrd e) s = execKPmcrd e s := rfl
theorem exec_kJmp (e : Nat) (s : State) : exec (.kJmp e) s = execKJmp e s := rfl
theorem exec_kBr (e : Nat) (s : State) : exec (.kBr e) s = execKBr e s := rfl
theorem exec_kBbs (e : Nat) (s : State) : exec (.kBbs e) s = execKBbs e s := rfl
theorem exec_kBbc (e : Nat) (s : State) : exec (.kBbc e) s = execKBbc e s := rfl
theorem exec_kCall (e : Nat) (s : State) : exec (.kCall e) s = execKCall e s := rfl
theorem exec_kRet (e : Nat) (s : State) : exec (.kRet e) s = execKRet e s := rfl
theorem exec_kJmpr (e : Nat) (s : State) : exec (.kJmpr e) s = execKJmpr e s := rfl
theorem exec_kDcall (e : Nat) (s : State) : exec (.kDcall e) s = execKDcall e s := rfl
theorem exec_kAtom (e : Nat) (s : State) : exec (.kAtom e) s = execKAtom e s := rfl
theorem exec_kEndatom (e : Nat) (s : State) : exec (.kEndatom e) s = execKEndatom e s := rfl
theorem exec_kWait (e : Nat) (s : State) : exec (.kWait e) s = execKWait e s := rfl
theorem exec_kYield (e : Nat) (s : State) : exec (.kYield e) s = execKYield e s := rfl
theorem exec_kDone (e : Nat) (s : State) : exec (.kDone e) s = execKDone e s := rfl
theorem exec_kIret (e : Nat) (s : State) : exec (.kIret e) s = execKIret e s := rfl
theorem exec_kFault (e : Nat) (s : State) : exec (.kFault e) s = execKFault e s := rfl
theorem exec_memoryResultReturn (e : Nat) (s : State) : exec (.memoryResultReturn e) s = execMemoryResultReturn e s := rfl
theorem exec_engineInterrupt (e : Nat) (s : State) : exec (.engineInterrupt e) s = execEngineInterrupt e s := rfl
theorem exec_hostInterruptRaise (p : Path) (e : Nat) (s : State) : exec (.hostInterruptRaise p e) s = execHostInterruptRaise p e s := rfl
theorem exec_atomicWindowLimit (e : Nat) (s : State) : exec (.atomicWindowLimit e) s = execAtomicWindowLimit e s := rfl
theorem exec_workItemTake (e : Nat) (s : State) : exec (.workItemTake e) s = execWorkItemTake e s := rfl
theorem exec_engineResetWrite (p : Path) (e : Nat) (s : State) : exec (.engineResetWrite p e) s = execEngineResetWrite p e s := rfl
theorem exec_roleWrite (p : Path) (e : Nat) (role : Bool) (s : State) : exec (.roleWrite p e role) s = execRoleWrite p e role s := rfl
theorem exec_roleSwitch (e : Nat) (s : State) : exec (.roleSwitch e) s = execRoleSwitch e s := rfl
theorem exec_clusterBusGrant (k : Nat) (req : List Nat) (beats : Nat) (s : State) : exec (.clusterBusGrant k req beats) s = execClusterBusGrant k req beats s := rfl
theorem exec_scratchApertureAccess (p : Path) (k : Nat) (off : Nat) (wr : Option Word) (s : State) : exec (.scratchApertureAccess p k off wr) s = execScratchApertureAccess p k off wr s := rfl
theorem exec_apertureTimeout (p : Path) (k : Nat) (off : Nat) (wr : Option Word) (s : State) : exec (.apertureTimeout p k off wr) s = execApertureTimeout p k off wr s := rfl
theorem exec_pmcEvselWrite (p : Path) (k : Nat) (n : Nat) (v : Word) (s : State) : exec (.pmcEvselWrite p k n v) s = execPmcEvselWrite p k n v s := rfl
theorem exec_tskCreate (p : Path) (d : Nat) (slot : Nat) (s : State) : exec (.tskCreate p d slot) s = execTskCreate p d slot s := rfl
theorem exec_tskKill (p : Path) (d : Nat) (slot : Nat) (s : State) : exec (.tskKill p d slot) s = execTskKill p d slot s := rfl
theorem exec_tskRequeue (p : Path) (d : Nat) (slot : Nat) (s : State) : exec (.tskRequeue p d slot) s = execTskRequeue p d slot s := rfl
theorem exec_tskSetprio (p : Path) (d : Nat) (slot : Nat) (s : State) : exec (.tskSetprio p d slot) s = execTskSetprio p d slot s := rfl
theorem exec_slotTimerExpire (d : Nat) (slot : Nat) (s : State) : exec (.slotTimerExpire d slot) s = execSlotTimerExpire d slot s := rfl
theorem exec_eventLine (d : Nat) (line : Nat) (s : State) : exec (.eventLine d line) s = execEventLine d line s := rfl
theorem exec_slotEventWrite (p : Path) (d : Nat) (slot : Nat) (v : Word) (s : State) : exec (.slotEventWrite p d slot v) s = execSlotEventWrite p d slot v s := rfl
theorem exec_watchdogBite (e : Nat) (s : State) : exec (.watchdogBite e) s = execWatchdogBite e s := rfl
theorem exec_fabricSlotMatch (s : State) : exec (.fabricSlotMatch) s = execFabricSlotMatch s := rfl
theorem exec_fabricTransferComplete (g : Nat) (eg : Nat) (dataErr : Bool) (s : State) : exec (.fabricTransferComplete g eg dataErr) s = execFabricTransferComplete g eg dataErr s := rfl
theorem exec_reseqTimeout (eg : Nat) (s : State) : exec (.reseqTimeout eg) s = execReseqTimeout eg s := rfl
theorem exec_spillPageWrite (g : Nat) (voq : Nat) (dataErr : Bool) (s : State) : exec (.spillPageWrite g voq dataErr) s = execSpillPageWrite g voq dataErr s := rfl
theorem exec_wadiRefill (g : Nat) (voq : Nat) (s : State) : exec (.wadiRefill g voq) s = execWadiRefill g voq s := rfl
theorem exec_wadiPageReturn (g : Nat) (voq : Nat) (fail : Bool) (s : State) : exec (.wadiPageReturn g voq fail) s = execWadiPageReturn g voq fail s := rfl
theorem exec_frameTransmitComplete (port : Nat) (dataErr : Bool) (s : State) : exec (.frameTransmitComplete port dataErr) s = execFrameTransmitComplete port dataErr s := rfl
theorem exec_shaperRefill (port : Nat) (cls : Option Nat) (s : State) : exec (.shaperRefill port cls) s = execShaperRefill port cls s := rfl
theorem exec_pauseExpire (port : Nat) (cls : Option Nat) (s : State) : exec (.pauseExpire port cls) s = execPauseExpire port cls s := rfl
theorem exec_pfcRenew (port : Nat) (s : State) : exec (.pfcRenew port) s = execPfcRenew port s := rfl
theorem exec_gateChangeRequest (p : Path) (port : Nat) (v : Word) (s : State) : exec (.gateChangeRequest p port v) s = execGateChangeRequest p port v s := rfl
theorem exec_gateConfigChange (port : Nat) (s : State) : exec (.gateConfigChange port) s = execGateConfigChange port s := rfl
theorem exec_gateEntryChange (port : Nat) (s : State) : exec (.gateEntryChange port) s = execGateEntryChange port s := rfl
theorem exec_recoveryResetTimeout (g : Nat) (r : Nat) (s : State) : exec (.recoveryResetTimeout g r) s = execRecoveryResetTimeout g r s := rfl
theorem exec_ledPeriodEnd (g : Nat) (r : Nat) (s : State) : exec (.ledPeriodEnd g r) s = execLedPeriodEnd g r s := rfl
theorem exec_hbmReadComplete (rd : HbmRead) (s : State) : exec (.hbmReadComplete rd) s = execHbmReadComplete rd s := rfl
theorem exec_panicRaise (pc : PchId) (arr : List HbmReq) (s : State) : exec (.panicRaise pc arr) s = execPanicRaise pc arr s := rfl
theorem exec_refreshDue (ch : Nat) (u : Nat) (bank : Nat) (s : State) : exec (.refreshDue ch u bank) s = execRefreshDue ch u bank s := rfl
theorem exec_stackTempReading (stack : Nat) (t : Int) (s : State) : exec (.stackTempReading stack t) s = execStackTempReading stack t s := rfl
theorem exec_readEyeRecentre (stack : Nat) (edge : Option Nat) (s : State) : exec (.readEyeRecentre stack edge) s = execReadEyeRecentre stack edge s := rfl
theorem exec_portAdminWrite (p : Path) (port : Nat) (admin : Bool) (s : State) : exec (.portAdminWrite p port admin) s = execPortAdminWrite p port admin s := rfl
theorem exec_linkLockAcquired (port : Nat) (skew : Nat) (s : State) : exec (.linkLockAcquired port skew) s = execLinkLockAcquired port skew s := rfl
theorem exec_linkUpDebounceExpire (port : Nat) (s : State) : exec (.linkUpDebounceExpire port) s = execLinkUpDebounceExpire port s := rfl
theorem exec_lossCondition (port : Nat) (lane : Nat) (loss : Loss) (s : State) : exec (.lossCondition port lane loss) s = execLossCondition port lane loss s := rfl
theorem exec_linkDownDeclare (port : Nat) (s : State) : exec (.linkDownDeclare port) s = execLinkDownDeclare port s := rfl
theorem exec_holdExpire (port : Nat) (s : State) : exec (.holdExpire port) s = execHoldExpire port s := rfl
theorem exec_wtrExpire (g : Nat) (n : Nat) (s : State) : exec (.wtrExpire g n) s = execWtrExpire g n s := rfl
theorem exec_protectionRevert (g : Nat) (n : Nat) (s : State) : exec (.protectionRevert g n) s = execProtectionRevert g n s := rfl
theorem exec_protectionGroupWrite (p : Path) (g : Nat) (n : Nat) (v : Word) (s : State) : exec (.protectionGroupWrite p g n v) s = execProtectionGroupWrite p g n v s := rfl
theorem exec_injBit (p : Path) (lane : Nat) (s : State) : exec (.injBit p lane) s = execInjBit p lane s := rfl
theorem exec_injBurst (p : Path) (lane : Nat) (s : State) : exec (.injBurst p lane) s = execInjBurst p lane s := rfl
theorem exec_timRate (p : Path) (s : State) : exec (.timRate p) s = execTimRate p s := rfl
theorem exec_timStep (p : Path) (s : State) : exec (.timStep p) s = execTimStep p s := rfl
theorem exec_timSet (p : Path) (s : State) : exec (.timSet p) s = execTimSet p s := rfl
theorem exec_timCancel (p : Path) (s : State) : exec (.timCancel p) s = execTimCancel p s := rfl
theorem exec_timeCommandArrive (s : State) : exec (.timeCommandArrive) s = execTimeCommandArrive s := rfl
theorem exec_timeEpochReached (s : State) : exec (.timeEpochReached) s = execTimeEpochReached s := rfl
theorem exec_refLost (s : State) : exec (.refLost) s = execRefLost s := rfl
theorem exec_refRelock (s : State) : exec (.refRelock) s = execRefRelock s := rfl
theorem exec_eventTimerFire (d : Nat) (n : Nat) (s : State) : exec (.eventTimerFire d n) s = execEventTimerFire d n s := rfl
theorem exec_ppsOutput (k : Nat) (s : State) : exec (.ppsOutput k) s = execPpsOutput k s := rfl
theorem exec_outputPulseEnd (k : Nat) (s : State) : exec (.outputPulseEnd k) s = execOutputPulseEnd k s := rfl
theorem exec_triggerCapture (k : Nat) (s : State) : exec (.triggerCapture k) s = execTriggerCapture k s := rfl
theorem exec_timeCaptureRead (p : Path) (d : Nat) (s : State) : exec (.timeCaptureRead p d) s = execTimeCaptureRead p d s := rfl
theorem exec_triggerRead (p : Path) (k : Nat) (s : State) : exec (.triggerRead p k) s = execTriggerRead p k s := rfl
theorem exec_stampEntry (g : Nat) (raw : Nat) (s : State) : exec (.stampEntry g raw) s = execStampEntry g raw s := rfl
theorem exec_stampQueuePop (p : Path) (g : Nat) (s : State) : exec (.stampQueuePop p g) s = execStampQueuePop p g s := rfl
theorem exec_errorRecord (ev : ErrEvent) (s : State) : exec (.errorRecord ev) s = execErrorRecord ev s := rfl
theorem exec_injectionArm (p : Path) (d : Nat) (v : Word) (s : State) : exec (.injectionArm p d v) s = execInjectionArm p d v s := rfl
theorem exec_injectionCancel (p : Path) (d : Nat) (s : State) : exec (.injectionCancel p d) s = execInjectionCancel p d s := rfl
theorem exec_quiesceWrite (p : Path) (d : Nat) (v : Word) (s : State) : exec (.quiesceWrite p d v) s = execQuiesceWrite p d v s := rfl
theorem exec_divRelease (p : Path) (d : Nat) (s : State) : exec (.divRelease p d) s = execDivRelease p d s := rfl
theorem exec_divPurge (p : Path) (d : Nat) (s : State) : exec (.divPurge p d) s = execDivPurge p d s := rfl
theorem exec_tcamWrite (p : Path) (g : Nat) (prof : Nat) (e : TcamPut) (s : State) :
    exec (.tcamWrite p g prof e) s = execTcamWrite p g prof e s := rfl
theorem exec_tcamInvalidate (p : Path) (g : Nat) (prof : Nat) (index : Nat) (s : State) : exec (.tcamInvalidate p g prof index) s = execTcamInvalidate p g prof index s := rfl
theorem exec_tcamRead (p : Path) (g : Nat) (prof : Nat) (index : Nat) (s : State) : exec (.tcamRead p g prof index) s = execTcamRead p g prof index s := rfl
theorem exec_tcamReadArray (p : Path) (g : Nat) (prof : Nat) (index : Nat) (s : State) : exec (.tcamReadArray p g prof index) s = execTcamReadArray p g prof index s := rfl
theorem exec_tcamScrubVisit (g : Nat) (block : Nat) (row : Nat) (s : State) : exec (.tcamScrubVisit g block row) s = execTcamScrubVisit g block row s := rfl
theorem exec_exLookup (p : Path) (g : Nat) (table : Nat) (s : State) : exec (.exLookup p g table) s = execExLookup p g table s := rfl
theorem exec_exInsert (p : Path) (g : Nat) (table : Nat) (s : State) : exec (.exInsert p g table) s = execExInsert p g table s := rfl
theorem exec_exDelete (p : Path) (g : Nat) (table : Nat) (s : State) : exec (.exDelete p g table) s = execExDelete p g table s := rfl
theorem exec_exReplace (p : Path) (g : Nat) (table : Nat) (s : State) : exec (.exReplace p g table) s = execExReplace p g table s := rfl
theorem exec_dirWrite (p : Path) (g : Nat) (table : Nat) (index : Nat) (s : State) : exec (.dirWrite p g table index) s = execDirWrite p g table index s := rfl
theorem exec_dirRead (p : Path) (g : Nat) (table : Nat) (index : Nat) (s : State) : exec (.dirRead p g table index) s = execDirRead p g table index s := rfl
theorem exec_counterSnapshot (p : Path) (g : Nat) (v : Word) (s : State) : exec (.counterSnapshot p g v) s = execCounterSnapshot p g v s := rfl
theorem exec_l2LearnApply (d : Nat) (s : State) : exec (.l2LearnApply d) s = execL2LearnApply d s := rfl
theorem exec_l2SweepVisit (d : Nat) (index : Nat) (s : State) : exec (.l2SweepVisit d index) s = execL2SweepVisit d index s := rfl
theorem exec_l2Lookup (p : Path) (d : Nat) (s : State) : exec (.l2Lookup p d) s = execL2Lookup p d s := rfl
theorem exec_l2Insert (p : Path) (d : Nat) (s : State) : exec (.l2Insert p d) s = execL2Insert p d s := rfl
theorem exec_l2Delete (p : Path) (d : Nat) (s : State) : exec (.l2Delete p d) s = execL2Delete p d s := rfl
theorem exec_l2Flush (p : Path) (d : Nat) (fidm : Bool) (s : State) : exec (.l2Flush p d fidm) s = execL2Flush p d fidm s := rfl
theorem exec_actWrite (p : Path) (d : Nat) (index : Nat) (s : State) : exec (.actWrite p d index) s = execActWrite p d index s := rfl
theorem exec_actRead (p : Path) (d : Nat) (index : Nat) (s : State) : exec (.actRead p d index) s = execActRead p d index s := rfl
theorem exec_cpEntWrite (p : Path) (d : Nat) (z : Nat) (w : Nat) (v : Word) (s : State) : exec (.cpEntWrite p d z w v) s = execCpEntWrite p d z w v s := rfl
theorem exec_balGwrite (p : Path) (d : Nat) (s : State) : exec (.balGwrite p d) s = execBalGwrite p d s := rfl
theorem exec_balGread (p : Path) (d : Nat) (s : State) : exec (.balGread p d) s = execBalGread p d s := rfl
theorem exec_balMwrite (p : Path) (d : Nat) (s : State) : exec (.balMwrite p d) s = execBalMwrite p d s := rfl
theorem exec_balMread (p : Path) (d : Nat) (s : State) : exec (.balMread p d) s = execBalMread p d s := rfl
theorem exec_balLwrite (p : Path) (d : Nat) (s : State) : exec (.balLwrite p d) s = execBalLwrite p d s := rfl
theorem exec_balLread (p : Path) (d : Nat) (s : State) : exec (.balLread p d) s = execBalLread p d s := rfl
theorem exec_txDoorbell (p : Path) (t : Nat) (v : Nat) (s : State) : exec (.txDoorbell p t v) s = execTxDoorbell p t v s := rfl
theorem exec_txDescriptorProcess (t : Nat) (desc : List Byte) (frame : Option (List Byte)) (s : State) : exec (.txDescriptorProcess t desc frame) s = execTxDescriptorProcess t desc frame s := rfl
theorem exec_txStallRetry (t : Nat) (s : State) : exec (.txStallRetry t) s = execTxStallRetry t s := rfl
theorem exec_rxDoorbell (p : Path) (d : Nat) (t : Nat) (v : Nat) (s : State) : exec (.rxDoorbell p d t v) s = execRxDoorbell p d t v s := rfl
theorem exec_rxFrameDeliver (d : Nat) (c : Nat) (desc : List Byte) (s : State) : exec (.rxFrameDeliver d c desc) s = execRxFrameDeliver d c desc s := rfl
theorem exec_excEnWrite (p : Path) (en : Bool) (s : State) : exec (.excEnWrite p en) s = execExcEnWrite p en s := rfl
theorem exec_msixUnmask (ep : Nat) (vec : EpOp) (s : State) : exec (.msixUnmask ep vec) s = execMsixUnmask ep vec s := rfl
theorem exec_galleyFrameForward (down : Bool) (frame : List Byte) (s : State) : exec (.galleyFrameForward down frame) s = execGalleyFrameForward down frame s := rfl
theorem exec_galleyEnum (down : Bool) (frame : List Byte) (s : State) : exec (.galleyEnum down frame) s = execGalleyEnum down frame s := rfl
theorem exec_galleyIdent (down : Bool) (frame : List Byte) (s : State) : exec (.galleyIdent down frame) s = execGalleyIdent down frame s := rfl
theorem exec_galleyStatus (down : Bool) (frame : List Byte) (s : State) : exec (.galleyStatus down frame) s = execGalleyStatus down frame s := rfl
theorem exec_galleyRd (down : Bool) (frame : List Byte) (s : State) : exec (.galleyRd down frame) s = execGalleyRd down frame s := rfl
theorem exec_galleyWr (down : Bool) (frame : List Byte) (s : State) : exec (.galleyWr down frame) s = execGalleyWr down frame s := rfl
theorem exec_galleyReset (down : Bool) (frame : List Byte) (s : State) : exec (.galleyReset down frame) s = execGalleyReset down frame s := rfl
theorem exec_galleyTime (down : Bool) (frame : List Byte) (s : State) : exec (.galleyTime down frame) s = execGalleyTime down frame s := rfl
theorem exec_galleyErrlog (down : Bool) (frame : List Byte) (s : State) : exec (.galleyErrlog down frame) s = execGalleyErrlog down frame s := rfl
theorem exec_galleyLossOfSignal (down : Bool) (s : State) : exec (.galleyLossOfSignal down) s = execGalleyLossOfSignal down s := rfl
theorem exec_galleyAttach (down : Bool) (s : State) : exec (.galleyAttach down) s = execGalleyAttach down s := rfl
theorem exec_galleyAlertSend (s : State) : exec (.galleyAlertSend) s = execGalleyAlertSend s := rfl
theorem exec_galleyCredLock (p : Path) (s : State) : exec (.galleyCredLock p) s = execGalleyCredLock p s := rfl
theorem exec_progOroot (p : Path) (arg : Nat) (blob : Option (List Byte)) (s : State) : exec (.progOroot p arg blob) s = execProgOroot p arg blob s := rfl
theorem exec_raiseOsvn (p : Path) (arg : Nat) (s : State) : exec (.raiseOsvn p arg) s = execRaiseOsvn p arg s := rfl
theorem exec_raiseVsvn (p : Path) (arg : Nat) (s : State) : exec (.raiseVsvn p arg) s = execRaiseVsvn p arg s := rfl
theorem exec_attestationStart (p : Path) (s : State) : exec (.attestationStart p) s = execAttestationStart p s := rfl
theorem exec_attestationComplete (dmaOk : Bool) (s : State) : exec (.attestationComplete dmaOk) s = execAttestationComplete dmaOk s := rfl
theorem exec_monitorTrip (s : State) : exec (.monitorTrip) s = execMonitorTrip s := rfl
theorem exec_mregLatchRead (p : Path) (s : State) : exec (.mregLatchRead p) s = execMregLatchRead p s := rfl
theorem exec_tapBypass (s : State) : exec (.tapBypass) s = execTapBypass s := rfl
theorem exec_tapSamplePreload (bits : List Bool) (s : State) : exec (.tapSamplePreload bits) s = execTapSamplePreload bits s := rfl
theorem exec_tapExtest (s : State) : exec (.tapExtest) s = execTapExtest s := rfl
theorem exec_traceClear (p : Path) (d : Nat) (s : State) : exec (.traceClear p d) s = execTraceClear p d s := rfl
theorem exec_traceEnable (p : Path) (d : Nat) (v : Word) (s : State) : exec (.traceEnable p d v) s = execTraceEnable p d v s := rfl
theorem exec_traceMark (p : Path) (d : Nat) (v : Word) (s : State) : exec (.traceMark p d v) s = execTraceMark p d v s := rfl
theorem exec_traceStopCountExpire (d : Nat) (s : State) : exec (.traceStopCountExpire d) s = execTraceStopCountExpire d s := rfl
theorem exec_engPcSample (e : Nat) (s : State) : exec (.engPcSample e) s = execEngPcSample e s := rfl
theorem exec_traceRecordLatch (p : Path) (d : Nat) (s : State) : exec (.traceRecordLatch p d) s = execTraceRecordLatch p d s := rfl
theorem exec_clearingRead (p : Path) (off : Nat) (inc : Nat) (s : State) : exec (.clearingRead p off inc) s = execClearingRead p off inc s := rfl
theorem exec_wideLowWordRead (p : Path) (off : Nat) (s : State) : exec (.wideLowWordRead p off) s = execWideLowWordRead p off s := rfl
theorem exec_registerWrite (p : Path) (off : Nat) (v : Word) (hw : Word) (s : State) : exec (.registerWrite p off v hw) s = execRegisterWrite p off v hw s := rfl
theorem exec_hostAccessErrorRead (p : Path) (off : Nat) (s : State) : exec (.hostAccessErrorRead p off) s = execHostAccessErrorRead p off s := rfl
theorem exec_prbsCheckerLock (lane : Nat) (s : State) : exec (.prbsCheckerLock lane) s = execPrbsCheckerLock lane s := rfl
theorem exec_prbsCheckerLoss (lane : Nat) (s : State) : exec (.prbsCheckerLoss lane) s = execPrbsCheckerLoss lane s := rfl
theorem exec_sdsPllLossOfLock (lane : Nat) (tx : Bool) (s : State) : exec (.sdsPllLossOfLock lane tx) s = execSdsPllLossOfLock lane tx s := rfl
theorem exec_pcieLinkDown (ep : Nat) (s : State) : exec (.pcieLinkDown ep) s = execPcieLinkDown ep s := rfl
theorem exec_pcieLinkUp (ep : Nat) (speed : Nat) (width : Nat) (s : State) : exec (.pcieLinkUp ep speed width) s = execPcieLinkUp ep speed width s := rfl

end Sys2Proof.Machine
end

