-- ==== Sys2Proof/Laws/Memory.lean ====
section
/-! SUPPORT. Laws of the addressed memories: every store keeps the canonical form, reads back, and leaves every other byte. -/

namespace Sys2Proof.Machine

variable {α : Type} [DecidableEq α]

theorem Memory.wf_iff (m : SMap α) (blank : α) : Memory.wf m blank = true ↔ SMap.sorted m = true ∧ ∀ x ∈ m, x.2 ≠ blank := by
  simp [Memory.wf]

/-- An empty memory is in canonical form. -/
theorem Memory.wf_nil (blank : α) : Memory.wf ([] : SMap α) blank = true := by simp [Memory.wf, SMap.sorted]

/-- Setting a key keeps the canonical form. -/
theorem Memory.wf_set {m : SMap α} {blank : α} (h : Memory.wf m blank = true) (k : Nat) (v : α) : Memory.wf (SMap.set m k v blank) blank = true := by
  rw [Memory.wf_iff] at h ⊢
  refine ⟨SMap.sorted_set m k v blank h.1, fun x hx => ?_⟩
  unfold SMap.set at hx
  split at hx
  · exact h.2 x (SMap.mem_del hx)
  · rename_i hv
    rcases SMap.mem_put hx with rfl | hx
    · exact hv
    · exact h.2 x hx

/-- A store of bytes keeps the canonical form. -/
theorem Memory.wf_putAll {m : SMap Byte} (h : Memory.wf m 0#8 = true) (a : Nat) (bs : List Byte) : Memory.wf (putAll m a bs) 0#8 = true := by
  induction bs generalizing m a with
  | nil => exact h
  | cons b bs ih => exact ih (Memory.wf_set h a b) (a + 1)

/-- A store of bytes leaves every byte below it. -/
theorem get_putAll_below (m : SMap Byte) {a x : Nat} (bs : List Byte) (h : x < a) : SMap.get (putAll m a bs) x 0#8 = SMap.get m x 0#8 := by
  induction bs generalizing m a with
  | nil => rfl
  | cons b bs ih =>
    rw [putAll, ih _ (by omega), SMap.get_set_ne _ _ _ _ (by omega)]

/-- A store of bytes leaves every byte above it. -/
theorem get_putAll_above (m : SMap Byte) {a x : Nat} (bs : List Byte) (h : a + bs.length ≤ x) : SMap.get (putAll m a bs) x 0#8 = SMap.get m x 0#8 := by
  induction bs generalizing m a with
  | nil => rfl
  | cons b bs ih =>
    simp only [List.length_cons] at h
    rw [putAll, ih _ (by omega), SMap.get_set_ne _ _ _ _ (by omega)]

/-- A store of bytes reads back. -/
theorem get_putAll_in (m : SMap Byte) (a : Nat) (bs : List Byte) (i : Nat) (h : i < bs.length) : SMap.get (putAll m a bs) (a + i) 0#8 = bs[i] := by
  induction bs generalizing m a i with
  | nil => simp at h
  | cons b bs ih =>
    cases i with
    | zero => rw [putAll, get_putAll_below _ _ (by omega)]; simp
    | succ i =>
      simp only [List.length_cons] at h
      have e : a + (i + 1) = a + 1 + i := by omega
      rw [putAll, e, ih _ _ _ (by omega)]
      rfl

/-- A store to local memory keeps the canonical form of every engine's. -/
theorem Dev.lwrite_wf {d : Dev} {e : Nat} (a : Nat) (bs : List Byte) (h : Memory.wf (d.engOf e).lmem 0#8 = true) :
    Memory.wf ((d.lwrite e a bs).engOf e).lmem 0#8 = true := by
  unfold Dev.lwrite Dev.updEng Dev.engOf
  simp only [SMap.get_set_same]
  exact Memory.wf_putAll h a bs

/-- A store to scratch keeps its canonical form. -/
theorem Dev.swrite_wf {d : Dev} (k a : Nat) (bs : List Byte) (h : Memory.wf d.eng.scr 0#8 = true) : Memory.wf (d.swrite k a bs).eng.scr 0#8 = true :=
  Memory.wf_putAll h _ bs

/-- A store to an engine area keeps the canonical form of the stacks. -/
theorem Dev.eaWrite_wf {d : Dev} (k ea : Nat) (bs : List Byte) (h : Memory.wf d.hbm.mem hbmBlank = true) :
    Memory.wf (d.eaWrite k ea bs).hbm.mem hbmBlank = true := by
  induction bs generalizing d ea with
  | nil => exact h
  | cons b bs ih =>
    refine ih (ea + 1) ?_
    unfold Dev.eaPut
    split
    · exact Memory.wf_set h _ b
    · exact h

/-- A transfer to host memory keeps the order of its addresses. -/
theorem dmaWrite_sorted {m : SMap Byte} (h : SMap.sorted m = true) (a : Nat) (bs : List Byte) : SMap.sorted (dmaWrite m a bs) = true := by
  induction bs generalizing m a with
  | nil => exact h
  | cons b bs ih => exact ih (SMap.sorted_put m _ b h) (a + 1)

/-- The memories of the part right after reset are in canonical form. -/
theorem reset_memories_wf : Memory.wf State.reset.dev.hbm.mem hbmBlank = true ∧ Memory.wf State.reset.dev.eng.scr 0#8 = true
    ∧ (∀ e, Memory.wf (State.reset.dev.engOf e).lmem 0#8 = true) ∧ SMap.sorted State.reset.dev.hif.mem = true :=
  ⟨Memory.wf_nil _, Memory.wf_nil _, fun _ => Memory.wf_nil _, rfl⟩

end Sys2Proof.Machine
end

