-- ==== Sys2Proof/Laws/Placed.lean ====
section
/-! SUPPORT. The registers that commands write or read: no other register and no aperture covers an instance of them. -/

namespace Sys2Proof.Machine

/-- Registers that commands write or read. -/
def placedRegs0 : List RegSpec :=
  [R.FLW_HCMD, R.FLW_MIR_CTL, R.FLW_QN_TORN_LOG, R.FLW_QN_RCMD, R.FLW_DIV_CMD, R.GLB_RESET, R.GLB_MODE_REQ, R.GLB_FORME_CTL, R.GLB_PATCH_CTL, R.KSN_ENG_IRQ, R.KSN_ENG_RESET]

theorem placedRegs0_placed : ∀ r ∈ placedRegs0, r.placed = true :=
  List.all_eq_true.mp (show placedRegs0.all RegSpec.placed = true by decide +kernel)

theorem placed_FLW_HCMD : R.FLW_HCMD.placed = true := placedRegs0_placed _ (by simp [placedRegs0])
theorem placed_FLW_MIR_CTL : R.FLW_MIR_CTL.placed = true := placedRegs0_placed _ (by simp [placedRegs0])
theorem placed_FLW_QN_TORN_LOG : R.FLW_QN_TORN_LOG.placed = true := placedRegs0_placed _ (by simp [placedRegs0])
theorem placed_FLW_QN_RCMD : R.FLW_QN_RCMD.placed = true := placedRegs0_placed _ (by simp [placedRegs0])
theorem placed_FLW_DIV_CMD : R.FLW_DIV_CMD.placed = true := placedRegs0_placed _ (by simp [placedRegs0])
theorem placed_GLB_RESET : R.GLB_RESET.placed = true := placedRegs0_placed _ (by simp [placedRegs0])
theorem placed_GLB_MODE_REQ : R.GLB_MODE_REQ.placed = true := placedRegs0_placed _ (by simp [placedRegs0])
theorem placed_GLB_FORME_CTL : R.GLB_FORME_CTL.placed = true := placedRegs0_placed _ (by simp [placedRegs0])
theorem placed_GLB_PATCH_CTL : R.GLB_PATCH_CTL.placed = true := placedRegs0_placed _ (by simp [placedRegs0])
theorem placed_KSN_ENG_IRQ : R.KSN_ENG_IRQ.placed = true := placedRegs0_placed _ (by simp [placedRegs0])
theorem placed_KSN_ENG_RESET : R.KSN_ENG_RESET.placed = true := placedRegs0_placed _ (by simp [placedRegs0])

/-- Registers that commands write or read. -/
def placedRegs1 : List RegSpec :=
  [R.KSN_ENG_CFG, R.PMC_EVSEL, R.TSK_CMD, R.TSK_SLOT_EVT, R.SCH_GATE_CTL, R.MAC_PORT_CTL, R.MAC_PROT, R.SDS_PRBS_CTL, R.TIM_CMD, R.TIM_NOW_NS, R.TIM_TRIG_NS]

theorem placedRegs1_placed : ∀ r ∈ placedRegs1, r.placed = true :=
  List.all_eq_true.mp (show placedRegs1.all RegSpec.placed = true by decide +kernel)

theorem placed_KSN_ENG_CFG : R.KSN_ENG_CFG.placed = true := placedRegs1_placed _ (by simp [placedRegs1])
theorem placed_PMC_EVSEL : R.PMC_EVSEL.placed = true := placedRegs1_placed _ (by simp [placedRegs1])
theorem placed_TSK_CMD : R.TSK_CMD.placed = true := placedRegs1_placed _ (by simp [placedRegs1])
theorem placed_TSK_SLOT_EVT : R.TSK_SLOT_EVT.placed = true := placedRegs1_placed _ (by simp [placedRegs1])
theorem placed_SCH_GATE_CTL : R.SCH_GATE_CTL.placed = true := placedRegs1_placed _ (by simp [placedRegs1])
theorem placed_MAC_PORT_CTL : R.MAC_PORT_CTL.placed = true := placedRegs1_placed _ (by simp [placedRegs1])
theorem placed_MAC_PROT : R.MAC_PROT.placed = true := placedRegs1_placed _ (by simp [placedRegs1])
theorem placed_SDS_PRBS_CTL : R.SDS_PRBS_CTL.placed = true := placedRegs1_placed _ (by simp [placedRegs1])
theorem placed_TIM_CMD : R.TIM_CMD.placed = true := placedRegs1_placed _ (by simp [placedRegs1])
theorem placed_TIM_NOW_NS : R.TIM_NOW_NS.placed = true := placedRegs1_placed _ (by simp [placedRegs1])
theorem placed_TIM_TRIG_NS : R.TIM_TRIG_NS.placed = true := placedRegs1_placed _ (by simp [placedRegs1])

/-- Registers that commands write or read. -/
def placedRegs2 : List RegSpec :=
  [R.TIM_TSQ_W0, R.ERR_INJ, R.ERR_QUIESCE, R.MAT_TCAM_CMD, R.MAT_EX_CMD, R.MAT_CNT_SEL, R.L2_HCMD, R.ACT_CMD, R.CP_ENT_W0, R.CP_ENT_W1, R.BAL_CMD]

theorem placedRegs2_placed : ∀ r ∈ placedRegs2, r.placed = true :=
  List.all_eq_true.mp (show placedRegs2.all RegSpec.placed = true by decide +kernel)

theorem placed_TIM_TSQ_W0 : R.TIM_TSQ_W0.placed = true := placedRegs2_placed _ (by simp [placedRegs2])
theorem placed_ERR_INJ : R.ERR_INJ.placed = true := placedRegs2_placed _ (by simp [placedRegs2])
theorem placed_ERR_QUIESCE : R.ERR_QUIESCE.placed = true := placedRegs2_placed _ (by simp [placedRegs2])
theorem placed_MAT_TCAM_CMD : R.MAT_TCAM_CMD.placed = true := placedRegs2_placed _ (by simp [placedRegs2])
theorem placed_MAT_EX_CMD : R.MAT_EX_CMD.placed = true := placedRegs2_placed _ (by simp [placedRegs2])
theorem placed_MAT_CNT_SEL : R.MAT_CNT_SEL.placed = true := placedRegs2_placed _ (by simp [placedRegs2])
theorem placed_L2_HCMD : R.L2_HCMD.placed = true := placedRegs2_placed _ (by simp [placedRegs2])
theorem placed_ACT_CMD : R.ACT_CMD.placed = true := placedRegs2_placed _ (by simp [placedRegs2])
theorem placed_CP_ENT_W0 : R.CP_ENT_W0.placed = true := placedRegs2_placed _ (by simp [placedRegs2])
theorem placed_CP_ENT_W1 : R.CP_ENT_W1.placed = true := placedRegs2_placed _ (by simp [placedRegs2])
theorem placed_BAL_CMD : R.BAL_CMD.placed = true := placedRegs2_placed _ (by simp [placedRegs2])

/-- Registers that commands write or read. -/
def placedRegs3 : List RegSpec :=
  [R.HIF_TX_TAIL, R.HIF_RX_TAIL, R.HIF1_CTL, R.GAL_CRED_CTL, R.SEC_OTP_CMD, R.SEC_ATT_CMD, R.SEC_MREG, R.TRC_CTL, R.TRC_MARK, R.TRC_RD_DATA]

theorem placedRegs3_placed : ∀ r ∈ placedRegs3, r.placed = true :=
  List.all_eq_true.mp (show placedRegs3.all RegSpec.placed = true by decide +kernel)

theorem placed_HIF_TX_TAIL : R.HIF_TX_TAIL.placed = true := placedRegs3_placed _ (by simp [placedRegs3])
theorem placed_HIF_RX_TAIL : R.HIF_RX_TAIL.placed = true := placedRegs3_placed _ (by simp [placedRegs3])
theorem placed_HIF1_CTL : R.HIF1_CTL.placed = true := placedRegs3_placed _ (by simp [placedRegs3])
theorem placed_GAL_CRED_CTL : R.GAL_CRED_CTL.placed = true := placedRegs3_placed _ (by simp [placedRegs3])
theorem placed_SEC_OTP_CMD : R.SEC_OTP_CMD.placed = true := placedRegs3_placed _ (by simp [placedRegs3])
theorem placed_SEC_ATT_CMD : R.SEC_ATT_CMD.placed = true := placedRegs3_placed _ (by simp [placedRegs3])
theorem placed_SEC_MREG : R.SEC_MREG.placed = true := placedRegs3_placed _ (by simp [placedRegs3])
theorem placed_TRC_CTL : R.TRC_CTL.placed = true := placedRegs3_placed _ (by simp [placedRegs3])
theorem placed_TRC_MARK : R.TRC_MARK.placed = true := placedRegs3_placed _ (by simp [placedRegs3])
theorem placed_TRC_RD_DATA : R.TRC_RD_DATA.placed = true := placedRegs3_placed _ (by simp [placedRegs3])

end Sys2Proof.Machine
end

