-- ==== Sys2Proof/Laws/State.lean ====
section
/-! SUPPORT. What the operations that update one field of the part leave: one lemma for each field and operation. Those of the register file stand in
Laws/Ops.lean. -/

namespace Sys2Proof.Machine

variable (d : Dev)

@[simp] theorem Dev.msix_regs (k v : Nat) : (d.msix k v).regs = d.regs := rfl
@[simp] theorem Dev.msix_free (k v : Nat) : (d.msix k v).free = d.free := rfl
@[simp] theorem Dev.msix_glb (k v : Nat) : (d.msix k v).glb = d.glb := rfl
@[simp] theorem Dev.msix_sec (k v : Nat) : (d.msix k v).sec = d.sec := rfl
@[simp] theorem Dev.msix_tim (k v : Nat) : (d.msix k v).tim = d.tim := rfl
@[simp] theorem Dev.msix_gal (k v : Nat) : (d.msix k v).gal = d.gal := rfl
@[simp] theorem Dev.msix_err (k v : Nat) : (d.msix k v).err = d.err := rfl
@[simp] theorem Dev.msix_trc (k v : Nat) : (d.msix k v).trc = d.trc := rfl
@[simp] theorem Dev.msix_flw (k v : Nat) : (d.msix k v).flw = d.flw := rfl
@[simp] theorem Dev.msix_pk (k v : Nat) : (d.msix k v).pk = d.pk := rfl
@[simp] theorem Dev.msix_buf (k v : Nat) : (d.msix k v).buf = d.buf := rfl
@[simp] theorem Dev.msix_egr (k v : Nat) : (d.msix k v).egr = d.egr := rfl
@[simp] theorem Dev.msix_act (k v : Nat) : (d.msix k v).act = d.act := rfl
@[simp] theorem Dev.msix_eng (k v : Nat) : (d.msix k v).eng = d.eng := rfl
@[simp] theorem Dev.msix_tsk (k v : Nat) : (d.msix k v).tsk = d.tsk := rfl
@[simp] theorem Dev.msix_hbm (k v : Nat) : (d.msix k v).hbm = d.hbm := rfl
@[simp] theorem Dev.msix_mat (k v : Nat) : (d.msix k v).mat = d.mat := rfl

@[simp] theorem Dev.updEng_regs (e : Nat) (f : Eng → Eng) : (d.updEng e f).regs = d.regs := rfl
@[simp] theorem Dev.updEng_free (e : Nat) (f : Eng → Eng) : (d.updEng e f).free = d.free := rfl
@[simp] theorem Dev.updEng_glb (e : Nat) (f : Eng → Eng) : (d.updEng e f).glb = d.glb := rfl
@[simp] theorem Dev.updEng_sec (e : Nat) (f : Eng → Eng) : (d.updEng e f).sec = d.sec := rfl
@[simp] theorem Dev.updEng_tim (e : Nat) (f : Eng → Eng) : (d.updEng e f).tim = d.tim := rfl
@[simp] theorem Dev.updEng_hif (e : Nat) (f : Eng → Eng) : (d.updEng e f).hif = d.hif := rfl
@[simp] theorem Dev.updEng_gal (e : Nat) (f : Eng → Eng) : (d.updEng e f).gal = d.gal := rfl
@[simp] theorem Dev.updEng_err (e : Nat) (f : Eng → Eng) : (d.updEng e f).err = d.err := rfl
@[simp] theorem Dev.updEng_trc (e : Nat) (f : Eng → Eng) : (d.updEng e f).trc = d.trc := rfl
@[simp] theorem Dev.updEng_flw (e : Nat) (f : Eng → Eng) : (d.updEng e f).flw = d.flw := rfl
@[simp] theorem Dev.updEng_pk (e : Nat) (f : Eng → Eng) : (d.updEng e f).pk = d.pk := rfl
@[simp] theorem Dev.updEng_buf (e : Nat) (f : Eng → Eng) : (d.updEng e f).buf = d.buf := rfl
@[simp] theorem Dev.updEng_egr (e : Nat) (f : Eng → Eng) : (d.updEng e f).egr = d.egr := rfl
@[simp] theorem Dev.updEng_act (e : Nat) (f : Eng → Eng) : (d.updEng e f).act = d.act := rfl
@[simp] theorem Dev.updEng_tsk (e : Nat) (f : Eng → Eng) : (d.updEng e f).tsk = d.tsk := rfl
@[simp] theorem Dev.updEng_hbm (e : Nat) (f : Eng → Eng) : (d.updEng e f).hbm = d.hbm := rfl
@[simp] theorem Dev.updEng_mat (e : Nat) (f : Eng → Eng) : (d.updEng e f).mat = d.mat := rfl

@[simp] theorem Dev.updEgr_regs (p : Nat) (f : Egr → Egr) : (d.updEgr p f).regs = d.regs := rfl
@[simp] theorem Dev.updEgr_free (p : Nat) (f : Egr → Egr) : (d.updEgr p f).free = d.free := rfl
@[simp] theorem Dev.updEgr_glb (p : Nat) (f : Egr → Egr) : (d.updEgr p f).glb = d.glb := rfl
@[simp] theorem Dev.updEgr_sec (p : Nat) (f : Egr → Egr) : (d.updEgr p f).sec = d.sec := rfl
@[simp] theorem Dev.updEgr_tim (p : Nat) (f : Egr → Egr) : (d.updEgr p f).tim = d.tim := rfl
@[simp] theorem Dev.updEgr_hif (p : Nat) (f : Egr → Egr) : (d.updEgr p f).hif = d.hif := rfl
@[simp] theorem Dev.updEgr_gal (p : Nat) (f : Egr → Egr) : (d.updEgr p f).gal = d.gal := rfl
@[simp] theorem Dev.updEgr_err (p : Nat) (f : Egr → Egr) : (d.updEgr p f).err = d.err := rfl
@[simp] theorem Dev.updEgr_trc (p : Nat) (f : Egr → Egr) : (d.updEgr p f).trc = d.trc := rfl
@[simp] theorem Dev.updEgr_flw (p : Nat) (f : Egr → Egr) : (d.updEgr p f).flw = d.flw := rfl
@[simp] theorem Dev.updEgr_pk (p : Nat) (f : Egr → Egr) : (d.updEgr p f).pk = d.pk := rfl
@[simp] theorem Dev.updEgr_buf (p : Nat) (f : Egr → Egr) : (d.updEgr p f).buf = d.buf := rfl
@[simp] theorem Dev.updEgr_act (p : Nat) (f : Egr → Egr) : (d.updEgr p f).act = d.act := rfl
@[simp] theorem Dev.updEgr_eng (p : Nat) (f : Egr → Egr) : (d.updEgr p f).eng = d.eng := rfl
@[simp] theorem Dev.updEgr_tsk (p : Nat) (f : Egr → Egr) : (d.updEgr p f).tsk = d.tsk := rfl
@[simp] theorem Dev.updEgr_hbm (p : Nat) (f : Egr → Egr) : (d.updEgr p f).hbm = d.hbm := rfl
@[simp] theorem Dev.updEgr_mat (p : Nat) (f : Egr → Egr) : (d.updEgr p f).mat = d.mat := rfl

@[simp] theorem Dev.updSlot_regs (ra : Nat) (f : Slot → Slot) : (d.updSlot ra f).regs = d.regs := rfl
@[simp] theorem Dev.updSlot_free (ra : Nat) (f : Slot → Slot) : (d.updSlot ra f).free = d.free := rfl
@[simp] theorem Dev.updSlot_glb (ra : Nat) (f : Slot → Slot) : (d.updSlot ra f).glb = d.glb := rfl
@[simp] theorem Dev.updSlot_sec (ra : Nat) (f : Slot → Slot) : (d.updSlot ra f).sec = d.sec := rfl
@[simp] theorem Dev.updSlot_tim (ra : Nat) (f : Slot → Slot) : (d.updSlot ra f).tim = d.tim := rfl
@[simp] theorem Dev.updSlot_hif (ra : Nat) (f : Slot → Slot) : (d.updSlot ra f).hif = d.hif := rfl
@[simp] theorem Dev.updSlot_gal (ra : Nat) (f : Slot → Slot) : (d.updSlot ra f).gal = d.gal := rfl
@[simp] theorem Dev.updSlot_err (ra : Nat) (f : Slot → Slot) : (d.updSlot ra f).err = d.err := rfl
@[simp] theorem Dev.updSlot_trc (ra : Nat) (f : Slot → Slot) : (d.updSlot ra f).trc = d.trc := rfl
@[simp] theorem Dev.updSlot_pk (ra : Nat) (f : Slot → Slot) : (d.updSlot ra f).pk = d.pk := rfl
@[simp] theorem Dev.updSlot_buf (ra : Nat) (f : Slot → Slot) : (d.updSlot ra f).buf = d.buf := rfl
@[simp] theorem Dev.updSlot_egr (ra : Nat) (f : Slot → Slot) : (d.updSlot ra f).egr = d.egr := rfl
@[simp] theorem Dev.updSlot_act (ra : Nat) (f : Slot → Slot) : (d.updSlot ra f).act = d.act := rfl
@[simp] theorem Dev.updSlot_eng (ra : Nat) (f : Slot → Slot) : (d.updSlot ra f).eng = d.eng := rfl
@[simp] theorem Dev.updSlot_tsk (ra : Nat) (f : Slot → Slot) : (d.updSlot ra f).tsk = d.tsk := rfl
@[simp] theorem Dev.updSlot_hbm (ra : Nat) (f : Slot → Slot) : (d.updSlot ra f).hbm = d.hbm := rfl
@[simp] theorem Dev.updSlot_mat (ra : Nat) (f : Slot → Slot) : (d.updSlot ra f).mat = d.mat := rfl

@[simp] theorem Dev.setTslot_regs (k s : Nat) (t : TSlot) : (d.setTslot k s t).regs = d.regs := rfl
@[simp] theorem Dev.setTslot_free (k s : Nat) (t : TSlot) : (d.setTslot k s t).free = d.free := rfl
@[simp] theorem Dev.setTslot_glb (k s : Nat) (t : TSlot) : (d.setTslot k s t).glb = d.glb := rfl
@[simp] theorem Dev.setTslot_sec (k s : Nat) (t : TSlot) : (d.setTslot k s t).sec = d.sec := rfl
@[simp] theorem Dev.setTslot_tim (k s : Nat) (t : TSlot) : (d.setTslot k s t).tim = d.tim := rfl
@[simp] theorem Dev.setTslot_hif (k s : Nat) (t : TSlot) : (d.setTslot k s t).hif = d.hif := rfl
@[simp] theorem Dev.setTslot_gal (k s : Nat) (t : TSlot) : (d.setTslot k s t).gal = d.gal := rfl
@[simp] theorem Dev.setTslot_err (k s : Nat) (t : TSlot) : (d.setTslot k s t).err = d.err := rfl
@[simp] theorem Dev.setTslot_trc (k s : Nat) (t : TSlot) : (d.setTslot k s t).trc = d.trc := rfl
@[simp] theorem Dev.setTslot_flw (k s : Nat) (t : TSlot) : (d.setTslot k s t).flw = d.flw := rfl
@[simp] theorem Dev.setTslot_pk (k s : Nat) (t : TSlot) : (d.setTslot k s t).pk = d.pk := rfl
@[simp] theorem Dev.setTslot_buf (k s : Nat) (t : TSlot) : (d.setTslot k s t).buf = d.buf := rfl
@[simp] theorem Dev.setTslot_egr (k s : Nat) (t : TSlot) : (d.setTslot k s t).egr = d.egr := rfl
@[simp] theorem Dev.setTslot_act (k s : Nat) (t : TSlot) : (d.setTslot k s t).act = d.act := rfl
@[simp] theorem Dev.setTslot_eng (k s : Nat) (t : TSlot) : (d.setTslot k s t).eng = d.eng := rfl
@[simp] theorem Dev.setTslot_hbm (k s : Nat) (t : TSlot) : (d.setTslot k s t).hbm = d.hbm := rfl
@[simp] theorem Dev.setTslot_mat (k s : Nat) (t : TSlot) : (d.setTslot k s t).mat = d.mat := rfl

@[simp] theorem Dev.setPkt_regs (n : Nat) (p : Pkt) : (d.setPkt n p).regs = d.regs := rfl
@[simp] theorem Dev.setPkt_free (n : Nat) (p : Pkt) : (d.setPkt n p).free = d.free := rfl
@[simp] theorem Dev.setPkt_glb (n : Nat) (p : Pkt) : (d.setPkt n p).glb = d.glb := rfl
@[simp] theorem Dev.setPkt_sec (n : Nat) (p : Pkt) : (d.setPkt n p).sec = d.sec := rfl
@[simp] theorem Dev.setPkt_tim (n : Nat) (p : Pkt) : (d.setPkt n p).tim = d.tim := rfl
@[simp] theorem Dev.setPkt_hif (n : Nat) (p : Pkt) : (d.setPkt n p).hif = d.hif := rfl
@[simp] theorem Dev.setPkt_gal (n : Nat) (p : Pkt) : (d.setPkt n p).gal = d.gal := rfl
@[simp] theorem Dev.setPkt_err (n : Nat) (p : Pkt) : (d.setPkt n p).err = d.err := rfl
@[simp] theorem Dev.setPkt_trc (n : Nat) (p : Pkt) : (d.setPkt n p).trc = d.trc := rfl
@[simp] theorem Dev.setPkt_flw (n : Nat) (p : Pkt) : (d.setPkt n p).flw = d.flw := rfl
@[simp] theorem Dev.setPkt_buf (n : Nat) (p : Pkt) : (d.setPkt n p).buf = d.buf := rfl
@[simp] theorem Dev.setPkt_egr (n : Nat) (p : Pkt) : (d.setPkt n p).egr = d.egr := rfl
@[simp] theorem Dev.setPkt_act (n : Nat) (p : Pkt) : (d.setPkt n p).act = d.act := rfl
@[simp] theorem Dev.setPkt_eng (n : Nat) (p : Pkt) : (d.setPkt n p).eng = d.eng := rfl
@[simp] theorem Dev.setPkt_tsk (n : Nat) (p : Pkt) : (d.setPkt n p).tsk = d.tsk := rfl
@[simp] theorem Dev.setPkt_hbm (n : Nat) (p : Pkt) : (d.setPkt n p).hbm = d.hbm := rfl
@[simp] theorem Dev.setPkt_mat (n : Nat) (p : Pkt) : (d.setPkt n p).mat = d.mat := rfl

@[simp] theorem Dev.galOut_regs (down : Bool) (bs : List Byte) : (d.galOut down bs).regs = d.regs := rfl
@[simp] theorem Dev.galOut_free (down : Bool) (bs : List Byte) : (d.galOut down bs).free = d.free := rfl
@[simp] theorem Dev.galOut_glb (down : Bool) (bs : List Byte) : (d.galOut down bs).glb = d.glb := rfl
@[simp] theorem Dev.galOut_sec (down : Bool) (bs : List Byte) : (d.galOut down bs).sec = d.sec := rfl
@[simp] theorem Dev.galOut_tim (down : Bool) (bs : List Byte) : (d.galOut down bs).tim = d.tim := rfl
@[simp] theorem Dev.galOut_hif (down : Bool) (bs : List Byte) : (d.galOut down bs).hif = d.hif := rfl
@[simp] theorem Dev.galOut_err (down : Bool) (bs : List Byte) : (d.galOut down bs).err = d.err := rfl
@[simp] theorem Dev.galOut_trc (down : Bool) (bs : List Byte) : (d.galOut down bs).trc = d.trc := rfl
@[simp] theorem Dev.galOut_flw (down : Bool) (bs : List Byte) : (d.galOut down bs).flw = d.flw := rfl
@[simp] theorem Dev.galOut_pk (down : Bool) (bs : List Byte) : (d.galOut down bs).pk = d.pk := rfl
@[simp] theorem Dev.galOut_buf (down : Bool) (bs : List Byte) : (d.galOut down bs).buf = d.buf := rfl
@[simp] theorem Dev.galOut_egr (down : Bool) (bs : List Byte) : (d.galOut down bs).egr = d.egr := rfl
@[simp] theorem Dev.galOut_act (down : Bool) (bs : List Byte) : (d.galOut down bs).act = d.act := rfl
@[simp] theorem Dev.galOut_eng (down : Bool) (bs : List Byte) : (d.galOut down bs).eng = d.eng := rfl
@[simp] theorem Dev.galOut_tsk (down : Bool) (bs : List Byte) : (d.galOut down bs).tsk = d.tsk := rfl
@[simp] theorem Dev.galOut_hbm (down : Bool) (bs : List Byte) : (d.galOut down bs).hbm = d.hbm := rfl
@[simp] theorem Dev.galOut_mat (down : Bool) (bs : List Byte) : (d.galOut down bs).mat = d.mat := rfl

@[simp] theorem Dev.dma_regs (a : Nat) (bs : List Byte) : (d.dma a bs).regs = d.regs := rfl
@[simp] theorem Dev.dma_free (a : Nat) (bs : List Byte) : (d.dma a bs).free = d.free := rfl
@[simp] theorem Dev.dma_glb (a : Nat) (bs : List Byte) : (d.dma a bs).glb = d.glb := rfl
@[simp] theorem Dev.dma_sec (a : Nat) (bs : List Byte) : (d.dma a bs).sec = d.sec := rfl
@[simp] theorem Dev.dma_tim (a : Nat) (bs : List Byte) : (d.dma a bs).tim = d.tim := rfl
@[simp] theorem Dev.dma_gal (a : Nat) (bs : List Byte) : (d.dma a bs).gal = d.gal := rfl
@[simp] theorem Dev.dma_err (a : Nat) (bs : List Byte) : (d.dma a bs).err = d.err := rfl
@[simp] theorem Dev.dma_trc (a : Nat) (bs : List Byte) : (d.dma a bs).trc = d.trc := rfl
@[simp] theorem Dev.dma_flw (a : Nat) (bs : List Byte) : (d.dma a bs).flw = d.flw := rfl
@[simp] theorem Dev.dma_pk (a : Nat) (bs : List Byte) : (d.dma a bs).pk = d.pk := rfl
@[simp] theorem Dev.dma_buf (a : Nat) (bs : List Byte) : (d.dma a bs).buf = d.buf := rfl
@[simp] theorem Dev.dma_egr (a : Nat) (bs : List Byte) : (d.dma a bs).egr = d.egr := rfl
@[simp] theorem Dev.dma_act (a : Nat) (bs : List Byte) : (d.dma a bs).act = d.act := rfl
@[simp] theorem Dev.dma_eng (a : Nat) (bs : List Byte) : (d.dma a bs).eng = d.eng := rfl
@[simp] theorem Dev.dma_tsk (a : Nat) (bs : List Byte) : (d.dma a bs).tsk = d.tsk := rfl
@[simp] theorem Dev.dma_hbm (a : Nat) (bs : List Byte) : (d.dma a bs).hbm = d.hbm := rfl
@[simp] theorem Dev.dma_mat (a : Nat) (bs : List Byte) : (d.dma a bs).mat = d.mat := rfl

@[simp] theorem Dev.pin_regs (k : Nat) (f : Pin → Pin) : (d.pin k f).regs = d.regs := rfl
@[simp] theorem Dev.pin_free (k : Nat) (f : Pin → Pin) : (d.pin k f).free = d.free := rfl
@[simp] theorem Dev.pin_glb (k : Nat) (f : Pin → Pin) : (d.pin k f).glb = d.glb := rfl
@[simp] theorem Dev.pin_sec (k : Nat) (f : Pin → Pin) : (d.pin k f).sec = d.sec := rfl
@[simp] theorem Dev.pin_hif (k : Nat) (f : Pin → Pin) : (d.pin k f).hif = d.hif := rfl
@[simp] theorem Dev.pin_gal (k : Nat) (f : Pin → Pin) : (d.pin k f).gal = d.gal := rfl
@[simp] theorem Dev.pin_err (k : Nat) (f : Pin → Pin) : (d.pin k f).err = d.err := rfl
@[simp] theorem Dev.pin_trc (k : Nat) (f : Pin → Pin) : (d.pin k f).trc = d.trc := rfl
@[simp] theorem Dev.pin_flw (k : Nat) (f : Pin → Pin) : (d.pin k f).flw = d.flw := rfl
@[simp] theorem Dev.pin_pk (k : Nat) (f : Pin → Pin) : (d.pin k f).pk = d.pk := rfl
@[simp] theorem Dev.pin_buf (k : Nat) (f : Pin → Pin) : (d.pin k f).buf = d.buf := rfl
@[simp] theorem Dev.pin_egr (k : Nat) (f : Pin → Pin) : (d.pin k f).egr = d.egr := rfl
@[simp] theorem Dev.pin_act (k : Nat) (f : Pin → Pin) : (d.pin k f).act = d.act := rfl
@[simp] theorem Dev.pin_eng (k : Nat) (f : Pin → Pin) : (d.pin k f).eng = d.eng := rfl
@[simp] theorem Dev.pin_tsk (k : Nat) (f : Pin → Pin) : (d.pin k f).tsk = d.tsk := rfl
@[simp] theorem Dev.pin_hbm (k : Nat) (f : Pin → Pin) : (d.pin k f).hbm = d.hbm := rfl
@[simp] theorem Dev.pin_mat (k : Nat) (f : Pin → Pin) : (d.pin k f).mat = d.mat := rfl

@[simp] theorem Dev.setUpc_regs (e a : Nat) : (d.setUpc e a).regs = d.regs := rfl
@[simp] theorem Dev.setUpc_free (e a : Nat) : (d.setUpc e a).free = d.free := rfl
@[simp] theorem Dev.setUpc_glb (e a : Nat) : (d.setUpc e a).glb = d.glb := rfl
@[simp] theorem Dev.setUpc_sec (e a : Nat) : (d.setUpc e a).sec = d.sec := rfl
@[simp] theorem Dev.setUpc_tim (e a : Nat) : (d.setUpc e a).tim = d.tim := rfl
@[simp] theorem Dev.setUpc_hif (e a : Nat) : (d.setUpc e a).hif = d.hif := rfl
@[simp] theorem Dev.setUpc_gal (e a : Nat) : (d.setUpc e a).gal = d.gal := rfl
@[simp] theorem Dev.setUpc_err (e a : Nat) : (d.setUpc e a).err = d.err := rfl
@[simp] theorem Dev.setUpc_trc (e a : Nat) : (d.setUpc e a).trc = d.trc := rfl
@[simp] theorem Dev.setUpc_flw (e a : Nat) : (d.setUpc e a).flw = d.flw := rfl
@[simp] theorem Dev.setUpc_pk (e a : Nat) : (d.setUpc e a).pk = d.pk := rfl
@[simp] theorem Dev.setUpc_buf (e a : Nat) : (d.setUpc e a).buf = d.buf := rfl
@[simp] theorem Dev.setUpc_egr (e a : Nat) : (d.setUpc e a).egr = d.egr := rfl
@[simp] theorem Dev.setUpc_act (e a : Nat) : (d.setUpc e a).act = d.act := rfl
@[simp] theorem Dev.setUpc_tsk (e a : Nat) : (d.setUpc e a).tsk = d.tsk := rfl
@[simp] theorem Dev.setUpc_hbm (e a : Nat) : (d.setUpc e a).hbm = d.hbm := rfl
@[simp] theorem Dev.setUpc_mat (e a : Nat) : (d.setUpc e a).mat = d.mat := rfl

@[simp] theorem Dev.complete_regs (e tok : Nat) (vals : List Nat) : (d.complete e tok vals).regs = d.regs := rfl
@[simp] theorem Dev.complete_free (e tok : Nat) (vals : List Nat) : (d.complete e tok vals).free = d.free := rfl
@[simp] theorem Dev.complete_glb (e tok : Nat) (vals : List Nat) : (d.complete e tok vals).glb = d.glb := rfl
@[simp] theorem Dev.complete_sec (e tok : Nat) (vals : List Nat) : (d.complete e tok vals).sec = d.sec := rfl
@[simp] theorem Dev.complete_tim (e tok : Nat) (vals : List Nat) : (d.complete e tok vals).tim = d.tim := rfl
@[simp] theorem Dev.complete_hif (e tok : Nat) (vals : List Nat) : (d.complete e tok vals).hif = d.hif := rfl
@[simp] theorem Dev.complete_gal (e tok : Nat) (vals : List Nat) : (d.complete e tok vals).gal = d.gal := rfl
@[simp] theorem Dev.complete_err (e tok : Nat) (vals : List Nat) : (d.complete e tok vals).err = d.err := rfl
@[simp] theorem Dev.complete_trc (e tok : Nat) (vals : List Nat) : (d.complete e tok vals).trc = d.trc := rfl
@[simp] theorem Dev.complete_flw (e tok : Nat) (vals : List Nat) : (d.complete e tok vals).flw = d.flw := rfl
@[simp] theorem Dev.complete_pk (e tok : Nat) (vals : List Nat) : (d.complete e tok vals).pk = d.pk := rfl
@[simp] theorem Dev.complete_buf (e tok : Nat) (vals : List Nat) : (d.complete e tok vals).buf = d.buf := rfl
@[simp] theorem Dev.complete_egr (e tok : Nat) (vals : List Nat) : (d.complete e tok vals).egr = d.egr := rfl
@[simp] theorem Dev.complete_act (e tok : Nat) (vals : List Nat) : (d.complete e tok vals).act = d.act := rfl
@[simp] theorem Dev.complete_tsk (e tok : Nat) (vals : List Nat) : (d.complete e tok vals).tsk = d.tsk := rfl
@[simp] theorem Dev.complete_hbm (e tok : Nat) (vals : List Nat) : (d.complete e tok vals).hbm = d.hbm := rfl
@[simp] theorem Dev.complete_mat (e tok : Nat) (vals : List Nat) : (d.complete e tok vals).mat = d.mat := rfl

@[simp] theorem Dev.fresh_regs (n : Nat) : (d.fresh n).2.regs = d.regs := rfl
@[simp] theorem Dev.fresh_glb (n : Nat) : (d.fresh n).2.glb = d.glb := rfl
@[simp] theorem Dev.fresh_sec (n : Nat) : (d.fresh n).2.sec = d.sec := rfl
@[simp] theorem Dev.fresh_tim (n : Nat) : (d.fresh n).2.tim = d.tim := rfl
@[simp] theorem Dev.fresh_hif (n : Nat) : (d.fresh n).2.hif = d.hif := rfl
@[simp] theorem Dev.fresh_gal (n : Nat) : (d.fresh n).2.gal = d.gal := rfl
@[simp] theorem Dev.fresh_err (n : Nat) : (d.fresh n).2.err = d.err := rfl
@[simp] theorem Dev.fresh_trc (n : Nat) : (d.fresh n).2.trc = d.trc := rfl
@[simp] theorem Dev.fresh_flw (n : Nat) : (d.fresh n).2.flw = d.flw := rfl
@[simp] theorem Dev.fresh_pk (n : Nat) : (d.fresh n).2.pk = d.pk := rfl
@[simp] theorem Dev.fresh_buf (n : Nat) : (d.fresh n).2.buf = d.buf := rfl
@[simp] theorem Dev.fresh_egr (n : Nat) : (d.fresh n).2.egr = d.egr := rfl
@[simp] theorem Dev.fresh_act (n : Nat) : (d.fresh n).2.act = d.act := rfl
@[simp] theorem Dev.fresh_eng (n : Nat) : (d.fresh n).2.eng = d.eng := rfl
@[simp] theorem Dev.fresh_tsk (n : Nat) : (d.fresh n).2.tsk = d.tsk := rfl
@[simp] theorem Dev.fresh_hbm (n : Nat) : (d.fresh n).2.hbm = d.hbm := rfl
@[simp] theorem Dev.fresh_mat (n : Nat) : (d.fresh n).2.mat = d.mat := rfl
@[simp] theorem Dev.fresh_free (n : Nat) : (d.fresh n).2.free = d.free + 1 := rfl

@[simp] theorem Dev.setLatch_regs (p : Path) (l : Latch) : (d.setLatch p l).regs = d.regs := by cases p <;> rfl
@[simp] theorem Dev.ret_regs (p : Path) (v : Nat) : (d.ret p v).regs = d.regs := by cases p <;> rfl
@[simp] theorem Dev.setLatch_free (p : Path) (l : Latch) : (d.setLatch p l).free = d.free := by cases p <;> rfl
@[simp] theorem Dev.ret_free (p : Path) (v : Nat) : (d.ret p v).free = d.free := by cases p <;> rfl
@[simp] theorem Dev.setLatch_glb (p : Path) (l : Latch) : (d.setLatch p l).glb = d.glb := by cases p <;> rfl
@[simp] theorem Dev.ret_glb (p : Path) (v : Nat) : (d.ret p v).glb = d.glb := by cases p <;> rfl
@[simp] theorem Dev.setLatch_sec (p : Path) (l : Latch) : (d.setLatch p l).sec = d.sec := by cases p <;> rfl
@[simp] theorem Dev.ret_sec (p : Path) (v : Nat) : (d.ret p v).sec = d.sec := by cases p <;> rfl
@[simp] theorem Dev.setLatch_tim (p : Path) (l : Latch) : (d.setLatch p l).tim = d.tim := by cases p <;> rfl
@[simp] theorem Dev.ret_tim (p : Path) (v : Nat) : (d.ret p v).tim = d.tim := by cases p <;> rfl
@[simp] theorem Dev.setLatch_gal (p : Path) (l : Latch) : (d.setLatch p l).gal = d.gal := by cases p <;> rfl
@[simp] theorem Dev.ret_gal (p : Path) (v : Nat) : (d.ret p v).gal = d.gal := by cases p <;> rfl
@[simp] theorem Dev.setLatch_err (p : Path) (l : Latch) : (d.setLatch p l).err = d.err := by cases p <;> rfl
@[simp] theorem Dev.ret_err (p : Path) (v : Nat) : (d.ret p v).err = d.err := by cases p <;> rfl
@[simp] theorem Dev.setLatch_trc (p : Path) (l : Latch) : (d.setLatch p l).trc = d.trc := by cases p <;> rfl
@[simp] theorem Dev.ret_trc (p : Path) (v : Nat) : (d.ret p v).trc = d.trc := by cases p <;> rfl
@[simp] theorem Dev.setLatch_flw (p : Path) (l : Latch) : (d.setLatch p l).flw = d.flw := by cases p <;> rfl
@[simp] theorem Dev.ret_flw (p : Path) (v : Nat) : (d.ret p v).flw = d.flw := by cases p <;> rfl
@[simp] theorem Dev.setLatch_pk (p : Path) (l : Latch) : (d.setLatch p l).pk = d.pk := by cases p <;> rfl
@[simp] theorem Dev.ret_pk (p : Path) (v : Nat) : (d.ret p v).pk = d.pk := by cases p <;> rfl
@[simp] theorem Dev.setLatch_buf (p : Path) (l : Latch) : (d.setLatch p l).buf = d.buf := by cases p <;> rfl
@[simp] theorem Dev.ret_buf (p : Path) (v : Nat) : (d.ret p v).buf = d.buf := by cases p <;> rfl
@[simp] theorem Dev.setLatch_egr (p : Path) (l : Latch) : (d.setLatch p l).egr = d.egr := by cases p <;> rfl
@[simp] theorem Dev.ret_egr (p : Path) (v : Nat) : (d.ret p v).egr = d.egr := by cases p <;> rfl
@[simp] theorem Dev.setLatch_act (p : Path) (l : Latch) : (d.setLatch p l).act = d.act := by cases p <;> rfl
@[simp] theorem Dev.ret_act (p : Path) (v : Nat) : (d.ret p v).act = d.act := by cases p <;> rfl
@[simp] theorem Dev.setLatch_eng (p : Path) (l : Latch) : (d.setLatch p l).eng = d.eng := by cases p <;> rfl
@[simp] theorem Dev.ret_eng (p : Path) (v : Nat) : (d.ret p v).eng = d.eng := by cases p <;> rfl
@[simp] theorem Dev.setLatch_tsk (p : Path) (l : Latch) : (d.setLatch p l).tsk = d.tsk := by cases p <;> rfl
@[simp] theorem Dev.ret_tsk (p : Path) (v : Nat) : (d.ret p v).tsk = d.tsk := by cases p <;> rfl
@[simp] theorem Dev.setLatch_hbm (p : Path) (l : Latch) : (d.setLatch p l).hbm = d.hbm := by cases p <;> rfl
@[simp] theorem Dev.ret_hbm (p : Path) (v : Nat) : (d.ret p v).hbm = d.hbm := by cases p <;> rfl
@[simp] theorem Dev.setLatch_mat (p : Path) (l : Latch) : (d.setLatch p l).mat = d.mat := by cases p <;> rfl
@[simp] theorem Dev.ret_mat (p : Path) (v : Nat) : (d.ret p v).mat = d.mat := by cases p <;> rfl

@[simp] theorem Dev.latch_setLatch (p : Path) (l : Latch) : (d.setLatch p l).latch p = l := by cases p <;> rfl
@[simp] theorem Dev.latch_ret (p : Path) (v : Nat) : ((d.ret p v).latch p).last = v := by cases p <;> rfl
@[simp] theorem Dev.setLatch_mem (p : Path) (l : Latch) : (d.setLatch p l).hif.mem = d.hif.mem := by cases p <;> rfl
@[simp] theorem Dev.setLatch_ep (p : Path) (l : Latch) : (d.setLatch p l).hif.ep = d.hif.ep := by cases p <;> rfl

/-- An engine rewritten reads as rewritten. -/
@[simp] theorem Dev.engOf_updEng (e : Nat) (f : Eng → Eng) : (d.updEng e f).engOf e = f (d.engOf e) := by
  unfold Dev.updEng Dev.engOf
  simp

/-- An engine rewritten leaves every other engine. -/
theorem Dev.engOf_updEng_ne {e j : Nat} (f : Eng → Eng) (h : j ≠ e) : (d.updEng e f).engOf j = d.engOf j := by
  unfold Dev.updEng Dev.engOf
  exact SMap.get_set_ne _ _ _ _ h

@[simp] theorem Dev.updPch_regs (c u : Nat) (f : PchS → PchS) : (d.updPch c u f).regs = d.regs := rfl
@[simp] theorem Dev.updPch_free (c u : Nat) (f : PchS → PchS) : (d.updPch c u f).free = d.free := rfl
@[simp] theorem Dev.updPch_glb (c u : Nat) (f : PchS → PchS) : (d.updPch c u f).glb = d.glb := rfl
@[simp] theorem Dev.updPch_sec (c u : Nat) (f : PchS → PchS) : (d.updPch c u f).sec = d.sec := rfl
@[simp] theorem Dev.updPch_tim (c u : Nat) (f : PchS → PchS) : (d.updPch c u f).tim = d.tim := rfl
@[simp] theorem Dev.updPch_hif (c u : Nat) (f : PchS → PchS) : (d.updPch c u f).hif = d.hif := rfl
@[simp] theorem Dev.updPch_gal (c u : Nat) (f : PchS → PchS) : (d.updPch c u f).gal = d.gal := rfl
@[simp] theorem Dev.updPch_err (c u : Nat) (f : PchS → PchS) : (d.updPch c u f).err = d.err := rfl
@[simp] theorem Dev.updPch_trc (c u : Nat) (f : PchS → PchS) : (d.updPch c u f).trc = d.trc := rfl
@[simp] theorem Dev.updPch_flw (c u : Nat) (f : PchS → PchS) : (d.updPch c u f).flw = d.flw := rfl
@[simp] theorem Dev.updPch_pk (c u : Nat) (f : PchS → PchS) : (d.updPch c u f).pk = d.pk := rfl
@[simp] theorem Dev.updPch_buf (c u : Nat) (f : PchS → PchS) : (d.updPch c u f).buf = d.buf := rfl
@[simp] theorem Dev.updPch_egr (c u : Nat) (f : PchS → PchS) : (d.updPch c u f).egr = d.egr := rfl
@[simp] theorem Dev.updPch_act (c u : Nat) (f : PchS → PchS) : (d.updPch c u f).act = d.act := rfl
@[simp] theorem Dev.updPch_eng (c u : Nat) (f : PchS → PchS) : (d.updPch c u f).eng = d.eng := rfl
@[simp] theorem Dev.updPch_tsk (c u : Nat) (f : PchS → PchS) : (d.updPch c u f).tsk = d.tsk := rfl
@[simp] theorem Dev.updPch_mat (c u : Nat) (f : PchS → PchS) : (d.updPch c u f).mat = d.mat := rfl
@[simp] theorem Dev.updPch_mem (c u : Nat) (f : PchS → PchS) : (d.updPch c u f).hbm.mem = d.hbm.mem := rfl

@[simp] theorem Dev.setVoq_regs (g v : Nat) (q : Voq) : (d.setVoq g v q).regs = d.regs := rfl
@[simp] theorem Dev.setVoq_free (g v : Nat) (q : Voq) : (d.setVoq g v q).free = d.free := rfl
@[simp] theorem Dev.setVoq_glb (g v : Nat) (q : Voq) : (d.setVoq g v q).glb = d.glb := rfl
@[simp] theorem Dev.setVoq_sec (g v : Nat) (q : Voq) : (d.setVoq g v q).sec = d.sec := rfl
@[simp] theorem Dev.setVoq_tim (g v : Nat) (q : Voq) : (d.setVoq g v q).tim = d.tim := rfl
@[simp] theorem Dev.setVoq_hif (g v : Nat) (q : Voq) : (d.setVoq g v q).hif = d.hif := rfl
@[simp] theorem Dev.setVoq_gal (g v : Nat) (q : Voq) : (d.setVoq g v q).gal = d.gal := rfl
@[simp] theorem Dev.setVoq_err (g v : Nat) (q : Voq) : (d.setVoq g v q).err = d.err := rfl
@[simp] theorem Dev.setVoq_trc (g v : Nat) (q : Voq) : (d.setVoq g v q).trc = d.trc := rfl
@[simp] theorem Dev.setVoq_flw (g v : Nat) (q : Voq) : (d.setVoq g v q).flw = d.flw := rfl
@[simp] theorem Dev.setVoq_pk (g v : Nat) (q : Voq) : (d.setVoq g v q).pk = d.pk := rfl
@[simp] theorem Dev.setVoq_egr (g v : Nat) (q : Voq) : (d.setVoq g v q).egr = d.egr := rfl
@[simp] theorem Dev.setVoq_act (g v : Nat) (q : Voq) : (d.setVoq g v q).act = d.act := rfl
@[simp] theorem Dev.setVoq_eng (g v : Nat) (q : Voq) : (d.setVoq g v q).eng = d.eng := rfl
@[simp] theorem Dev.setVoq_tsk (g v : Nat) (q : Voq) : (d.setVoq g v q).tsk = d.tsk := rfl
@[simp] theorem Dev.setVoq_hbm (g v : Nat) (q : Voq) : (d.setVoq g v q).hbm = d.hbm := rfl
@[simp] theorem Dev.setVoq_mat (g v : Nat) (q : Voq) : (d.setVoq g v q).mat = d.mat := rfl

/-- A pseudo-channel rewritten reads as rewritten. -/
@[simp] theorem Dev.pch_updPch (c u : Nat) (f : PchS → PchS) : (d.updPch c u f).pch c u = f (d.pch c u) := by
  unfold Dev.updPch Dev.pch
  simp

/-- A pseudo-channel rewritten leaves every other pseudo-channel. -/
theorem Dev.pch_updPch_ne {c u c' u' : Nat} (f : PchS → PchS) (h : 2 * c' + u' ≠ 2 * c + u) : (d.updPch c u f).pch c' u' = d.pch c' u' := by
  unfold Dev.updPch Dev.pch
  exact SMap.get_set_ne _ _ _ _ h

/-- A VOQ rewritten reads as rewritten. -/
@[simp] theorem Dev.voqOf_setVoq (g v : Nat) (q : Voq) : (d.setVoq g v q).voqOf g v = q := by
  unfold Dev.setVoq Dev.voqOf
  simp

/-- A VOQ rewritten leaves every other VOQ. -/
theorem Dev.voqOf_setVoq_ne {g v g' v' : Nat} (q : Voq) (h : g' * 520 + v' ≠ g * 520 + v) : (d.setVoq g v q).voqOf g' v' = d.voqOf g' v' := by
  unfold Dev.setVoq Dev.voqOf
  exact SMap.get_set_ne _ _ _ _ h

end Sys2Proof.Machine
end

