-- ==== Sys2Proof/Tests/Slice0.lean ====
section
/-! SUPPORT. Tests: ill-formed commands are refused, worked examples of the spec, and for each obligation with hypotheses a state and
operands that meet them all. -/

set_option Elab.async false

namespace Sys2Proof.Tests

open Sys2Proof Sys2Proof.Machine

/-! ## Ill-formed commands -/

/-- Each of these names a unit the part does not have, or a value its operand cannot hold. -/
theorem test_ill_formed_1 :
    (([.pcieReset 2 .flr, .bootVerifyComplete ⟨false, List.replicate 9 (0, [])⟩, .hbmTrainingFail 6 ⟨0, []⟩ 2 1] : List Instr) ++
      ([.hbmTrainingFail 0 ⟨16, []⟩ 2 1, .hbmTrainingFail 0 ⟨0, []⟩ 1 0, .hbmTrainingFail 0 ⟨0, []⟩ 7 6, .hbmTrainingFail 0 ⟨0, []⟩ 2 2] : List Instr) ++
      ([.hbmTrainingFail 0 ⟨0, [⟨16, 0⟩]⟩ 3 2, .hbmTrainingFail 0 ⟨0, [⟨0, 15⟩]⟩ 3 2, .frameReceive 64 [] ⟨true, false, 0⟩, .descriptorReceive 2, .verdictReceive 2] : List Instr) ++
      ([.recirculate 4, .setupTimeout 2 0, .auuFset 0 8, .auuFclr 0 8, .flowLookup .pcie 2, .flowDelete .pcie 2, .flowInsert .pcie 2] : List Instr) ++
      ([.hintInvalidate .pcie 2 0#32, .hintInvalidateComplete 2, .quoinWaitTimeout 96, .tornLogPop .pcie 2, .tornRead .pcie 2] : List Instr) ++
      ([.tornRestore .pcie 2, .tornEmpty .pcie 2, .kAdd 96, .kSub 96, .kAnd 96, .kOr 96, .kXor 96, .kShl 96, .kShr 96, .kSar 96, .kRor 96] : List Instr) ++
      ([.kMov 96, .kMovhi 96, .kExtr 96, .kInsr 96, .kCmpeq 96, .kCmpltu 96, .kCmplts 96, .kMinu 96, .kMaxu 96, .kMul 96, .kMulhu 96] : List Instr) ++
      ([.kPopc 96, .kClz 96, .kBswap 96, .kCrc64 96, .kCrc32c 96, .kLdl 96, .kStl 96, .kLds 96, .kSts 96, .kCass 96, .kFadds 96, .kLdh 96] : List Instr) ++
      ([.kSth 96, .kQacq 96, .kQtry 96, .kQread 96, .kQwrite 96] : List Instr)).all (fun c => !c.wf) = true := by
  decide +kernel

/-- Each of these names a unit the part does not have, or a value its operand cannot hold. -/
theorem test_ill_formed_2 :
    (([.kQrel 96, .kRadd 96, .kRstamp 96, .kRlook 96, .kRins 96, .kRdel 96, .kLdt 96, .kLdpkt 96, .kPktsend 96, .kPmcrd 96, .kJmp 96] : List Instr) ++
      ([.kBr 96, .kBbs 96, .kBbc 96, .kCall 96, .kRet 96, .kJmpr 96, .kDcall 96, .kAtom 96, .kEndatom 96, .kWait 96, .kYield 96, .kDone 96] : List Instr) ++
      ([.kIret 96, .kFault 96, .memoryResultReturn 96, .engineInterrupt 96, .hostInterruptRaise .pcie 96, .atomicWindowLimit 96] : List Instr) ++
      ([.workItemTake 96, .engineResetWrite .pcie 96, .roleWrite .pcie 96 true, .roleSwitch 96, .clusterBusGrant 12 [] 1] : List Instr) ++
      ([.scratchApertureAccess .pcie 12 0 none, .scratchApertureAccess .pcie 0 0x20000 none, .apertureTimeout .pcie 12 0 none] : List Instr) ++
      ([.apertureTimeout .pcie 0 0x20000 none, .pmcEvselWrite .pcie 12 0 0#32, .pmcEvselWrite .pcie 0 8 0#32, .tskCreate .pcie 2 0] : List Instr) ++
      ([.tskCreate .pcie 0 512, .tskKill .pcie 2 0, .tskKill .pcie 0 512, .tskRequeue .pcie 2 0, .tskRequeue .pcie 0 512] : List Instr) ++
      ([.tskSetprio .pcie 2 0, .tskSetprio .pcie 0 512, .slotTimerExpire 2 0, .slotTimerExpire 0 512, .eventLine 2 0, .eventLine 0 12] : List Instr) ++
      ([.slotEventWrite .pcie 2 0 0#32, .slotEventWrite .pcie 0 512 0#32, .watchdogBite 96, .fabricTransferComplete 4 0 true] : List Instr) ++
      ([.fabricTransferComplete 0 4 true, .reseqTimeout 4, .spillPageWrite 4 0 true, .spillPageWrite 0 520 true] : List Instr)).all (fun c => !c.wf) = true := by
  decide +kernel

/-- Each of these names a unit the part does not have, or a value its operand cannot hold. -/
theorem test_ill_formed_3 :
    (([.wadiRefill 4 0, .wadiRefill 0 520, .wadiPageReturn 4 0 true, .wadiPageReturn 0 520 true, .frameTransmitComplete 64 true] : List Instr) ++
      ([.shaperRefill 64 none, .pauseExpire 64 none, .pfcRenew 64, .gateChangeRequest .pcie 64 0#32, .gateConfigChange 64] : List Instr) ++
      ([.gateEntryChange 64, .recoveryResetTimeout 4 0, .recoveryResetTimeout 0 512, .ledPeriodEnd 4 0, .ledPeriodEnd 0 512] : List Instr) ++
      ([.panicRaise ⟨96, 0⟩ [], .panicRaise ⟨0, 2⟩ [], .refreshDue 96 0 0, .refreshDue 0 2 0, .refreshDue 0 0 64, .stackTempReading 6 0] : List Instr) ++
      ([.readEyeRecentre 6 none, .portAdminWrite .pcie 64 true, .linkLockAcquired 64 0, .linkUpDebounceExpire 64] : List Instr) ++
      ([.lossCondition 64 0 .signal, .lossCondition 0 64 .signal, .linkDownDeclare 64, .holdExpire 64, .wtrExpire 4 0, .wtrExpire 0 8] : List Instr) ++
      ([.protectionRevert 4 0, .protectionRevert 0 8, .protectionGroupWrite .pcie 4 0 0#32, .protectionGroupWrite .pcie 0 8 0#32] : List Instr) ++
      ([.injBit .pcie 64, .injBurst .pcie 64, .eventTimerFire 2 0, .eventTimerFire 0 8, .ppsOutput 4, .outputPulseEnd 4, .triggerCapture 4] : List Instr) ++
      ([.timeCaptureRead .pcie 2, .triggerRead .pcie 4, .stampEntry 4 0, .stampEntry 0 (2 ^ 64), .stampQueuePop .pcie 4] : List Instr) ++
      ([.injectionArm .pcie 2 0#32, .injectionCancel .pcie 2, .quiesceWrite .pcie 2 0#32, .divRelease .pcie 2, .divPurge .pcie 2] : List Instr) ++
      ([.tcamWrite .pcie 4 0 ⟨0, 0⟩, .tcamWrite .pcie 0 16 ⟨0, 0⟩, .tcamWrite .pcie 0 0 ⟨32768, 0⟩, .tcamInvalidate .pcie 4 0 0] : List Instr) ++
      ([.tcamInvalidate .pcie 0 16 0, .tcamInvalidate .pcie 0 0 32768, .tcamRead .pcie 4 0 0, .tcamRead .pcie 0 16 0] : List Instr)).all (fun c => !c.wf) = true := by
  decide +kernel

/-- Each of these names a unit the part does not have, or a value its operand cannot hold. -/
theorem test_ill_formed_4 :
    (([.tcamRead .pcie 0 0 32768, .tcamReadArray .pcie 4 0 0, .tcamReadArray .pcie 0 16 0, .tcamReadArray .pcie 0 0 32768] : List Instr) ++
      ([.tcamScrubVisit 4 0 0, .tcamScrubVisit 0 16 0, .tcamScrubVisit 0 0 2048, .exLookup .pcie 4 0, .exLookup .pcie 0 256] : List Instr) ++
      ([.exInsert .pcie 4 0, .exInsert .pcie 0 256, .exDelete .pcie 4 0, .exDelete .pcie 0 256, .exReplace .pcie 4 0] : List Instr) ++
      ([.exReplace .pcie 0 256, .dirWrite .pcie 4 0 0, .dirWrite .pcie 0 256 0, .dirWrite .pcie 0 0 (2 ^ 20), .dirRead .pcie 4 0 0] : List Instr) ++
      ([.dirRead .pcie 0 256 0, .dirRead .pcie 0 0 (2 ^ 20), .counterSnapshot .pcie 4 0#32, .l2LearnApply 2, .l2SweepVisit 2 0] : List Instr) ++
      ([.l2SweepVisit 0 (2 ^ 19), .l2Lookup .pcie 2, .l2Insert .pcie 2, .l2Delete .pcie 2, .l2Flush .pcie 2 true, .actWrite .pcie 2 0] : List Instr) ++
      ([.actWrite .pcie 0 (2 ^ 18), .actRead .pcie 2 0, .actRead .pcie 0 (2 ^ 18), .cpEntWrite .pcie 2 0 0 0#32] : List Instr) ++
      ([.cpEntWrite .pcie 0 65536 0 0#32, .cpEntWrite .pcie 0 0 2 0#32, .balGwrite .pcie 2, .balGread .pcie 2, .balMwrite .pcie 2] : List Instr) ++
      ([.balMread .pcie 2, .balLwrite .pcie 2, .balLread .pcie 2, .txDoorbell .pcie 64 0, .txDoorbell .pcie 0 65536] : List Instr) ++
      ([.txDescriptorProcess 64 [] none, .txStallRetry 64, .rxDoorbell .pcie 2 0 0, .rxDoorbell .pcie 0 0 65536, .rxFrameDeliver 2 0 []] : List Instr) ++
      ([.rxFrameDeliver 0 8 [], .msixUnmask 2 (.unmask 0), .progOroot .pcie 256 none, .raiseOsvn .pcie 256, .raiseVsvn .pcie 256] : List Instr) ++
      ([.traceClear .pcie 2, .traceEnable .pcie 2 0#32, .traceMark .pcie 2 0#32, .traceStopCountExpire 2, .engPcSample 96] : List Instr) ++
      ([.traceRecordLatch .pcie 2] : List Instr)).all (fun c => !c.wf) = true := by
  decide +kernel

/-- Each of these names a unit the part does not have, or a value its operand cannot hold. -/
theorem test_ill_formed_5 :
    (([.clearingRead .pcie (2 ^ 27) 0, .wideLowWordRead .pcie (2 ^ 27), .registerWrite .pcie (2 ^ 27) 0#32 0#32] : List Instr) ++
      ([.hostAccessErrorRead .pcie (2 ^ 27), .prbsCheckerLock 64, .prbsCheckerLoss 64, .sdsPllLossOfLock 64 true, .pcieLinkDown 2] : List Instr) ++
      ([.dieSensorSample 128 0, .dieSensorSample (-129) 0, .dieSensorSample 0 128, .dieSensorSample 0 (-129), .pcieEndpointReady 2 ⟨5, 8⟩ ⟨true, true⟩] : List Instr) ++
      ([.pcieEndpointReady 0 ⟨0, 8⟩ ⟨true, true⟩, .pcieEndpointReady 0 ⟨6, 8⟩ ⟨true, true⟩, .pcieEndpointReady 0 ⟨5, 3⟩ ⟨true, true⟩, .pcieLinkUp 2 5 8, .pcieLinkUp 0 0 8] : List Instr) ++
      ([.pcieLinkUp 0 5 3, .restToRun (some 6), .hbmTrainingComplete [⟨96, 0⟩], .hbmTrainingComplete [⟨0, 0⟩, ⟨0, 0⟩], .sweepVisit (2 ^ 29), .exportWalkVisit (2 ^ 29)] : List Instr) ++
      ([.auuWb (2 ^ 29), .auuAdd (2 ^ 29), .auuStamp (2 ^ 29), .auuCset (2 ^ 29), .auuCdel (2 ^ 29), .auuCwrite (2 ^ 29)] : List Instr) ++
      ([.auuFset (2 ^ 29) 0, .auuFclr (2 ^ 29) 0, .quoinGrant (2 ^ 29), .quoinSweepVisit (2 ^ 29), .clusterBusGrant 0 [9] 1] : List Instr) ++
      ([.clusterBusGrant 0 [] 0, .clusterBusGrant 0 [] 65, .shaperRefill 0 (some 8), .pauseExpire 0 (some 8)] : List Instr) ++
      ([.hbmReadComplete ⟨2, 0, 0, [], 0⟩, .hbmReadComplete ⟨0, 48, 0, [], 0⟩, .stackTempReading 0 128, .stackTempReading 0 (-129)] : List Instr) ++
      ([.readEyeRecentre 0 (some 16), .errorRecord ⟨2, 0, 1, 0, 1, 0, []⟩, .txDescriptorProcess 0 [] none] : List Instr) ++
      ([.txDescriptorProcess 0 (List.replicate 32 0) (some [0]), .rxDoorbell .pcie 0 64 0, .rxDoorbell .pcie 1 8 0, .rxFrameDeliver 0 0 []] : List Instr) ++
      ([.msixUnmask 0 (.unmask 64), .msixUnmask 1 (.unmask 8), .msixUnmask 0 (.read 4096), .msixUnmask 0 (.write 2 0#32)] : List Instr) ++
      ([.galleyEnum true [], .galleyIdent true [], .galleyStatus true [], .galleyRd true []] : List Instr) ++
      ([.galleyWr true [], .galleyReset true [], .galleyTime true [], .galleyErrlog true []] : List Instr)).all (fun c => !c.wf) = true := by
  decide +kernel

/-! ## States for witnesses -/

/-- A part in a mode whose boot has finished, whose two endpoints have trained and which has its host credentials. -/
def part (m : Mode) : Dev :=
  let ep : Endpoint := { Endpoint.reset with ready := true, up := true, memEn := true, busEn := true }
  (({ Dev.reset with glb := { GlbS.reset with mode := m }, hif := { HifS.reset with ep := ⟨ep, ep⟩ } }.put R.GLB_BOOT_STATUS [] "ROOT_DONE" 1).put
    R.GLB_BOOT_STATUS [] "ENROL_DONE" 1).put R.GAL_CRED_CTL [] "EN" 1

/-- A state of a part. -/
def at_ (d : Dev) : State := ⟨d, []⟩

/-- A word of the vendor area for an engine that runs it. -/
def running (e w : Nat) : Dev :=
  let d := part .load
  ({ d with eng := { d.eng with cs := [(0x100, w, parityOf w)] } }.put R.KSN_ENG_STAT (engIx e) "STATE" 1).setUpc e 0x100

/-- A word with the three opcodes alone. -/
def uword (aop mop bop : Nat) : Nat := aop * 2 ^ 184 + mop * 2 ^ 122 + bop * 2 ^ 58

/-- A part with a transition accepted, waiting for the loader or not. -/
def moving (a b : Mode) (deferred : Bool) : Dev := { part a with glb := { (part a).glb with trans := some b, deferred := deferred } }

/-- A part whose loader stands in a state. -/
def loading (n : Nat) (img : List Byte) : Dev := { part .load with glb := { (part .load).glb with loader := ⟨n, img, [], []⟩ } }

/-- A packet of 64 bytes of port 40, whose home die is its own. -/
def pkt0 (st : Stage) : Pkt :=
  { md := [], hv := [], depth := 0, vid := none, malf := 0, key := [1#8], h := some (2 ^ 63), swap := false, frag := false, ipOff := none, l4Off := none, v6 := false,
    pred := false, pact := 0, paux := 0, pconf := 0, hintLoc := none, md0 := [], deltas0 := [], src0 := [], deltas := [], src := [], snap := none, spec := none,
    ecc := none, pat := none, insp := false, win := none, rd := none, ran := false, loc := none, gen := 0, img := none, tcp := none, squashed := false, replayed := false, oc := none, ret := false, flush := 0,
    d := 1, g := 2, port := 40, ord := 0, bytes := List.replicate 64 0#8, stamp := 0, pass := 0, agent := 0, part := 0, cls := 0, head := 0, bad := 0, stampId := none,
    stage := st }

/-- A verdict COMMIT for packet n in entry 0 of region 2. -/
def verdict (n : Nat) : Verdict := ⟨0, 2, 0, 0, 0, 0, 0, 0, false, 0, n⟩

/-- A part that holds a packet, its descriptor under way to die 0 and its verdict to die 1, replayed in region 2 and in the recirculation queue of region 3. -/
def holding (n : Nat) (p : Pkt) : Dev :=
  { part .run with pk := { PktS.reset with pkts := [(n, p)], link := ⟨[.desc n], [.verd (verdict n)]⟩, run := [[], [], [n], []], recirc := [[], [], [], [n]] } }

/-- A pending-table entry for the key of that packet. -/
def pend0 (k : PKind) : PEnt := ⟨0, [1#8], 2 ^ 63, 0, k, 2, none, [3], false, false⟩

/-- A part with a record in slot `ra`, its FLAGS given, a quoin of engine 95 on slot 6, and an ADD waiting for the record. -/
def record (ra : Nat) (st : TagState) (flags : Nat) : Dev :=
  let d := part .run
  let s := { Slot.zero with st := st, body := { Rec.zero with flags := flags } }
  { d with flw := { d.flw with slots := [(ra, s)], quoins := [(6, ⟨false, 95, 0, false⟩)], auuq := [⟨ra, .add 1 2 3 4⟩] } }

/-- An engine at a RET with a return address on its stack. -/
def called (e : Nat) : Dev := (running e (uword 0 0 6)).updEng e (fun g => { g with ctx := { g.ctx with stack := [0x200] } })

/-- An engine at a DCALL to a valid dispatch entry. -/
def listed (e : Nat) : Dev := (running e (uword 0 0 8)).setW R.KCS_DISP (clIx (e / 8) ++ [0]) 0x80000200

/-- An engine in an atomic window, with interrupts waiting. -/
def windowed (e : Nat) (irqs : List Nat) : Dev := (running e 0).updEng e (fun g => { g with win := some ⟨[], [], 0x100, [], []⟩, irqs := irqs })

/-- A part with a transfer of one cell that has arrived. -/
def crossing (k : Nat) : Dev := { part .run with buf := { BufS.reset with xfer := [(k, ⟨0, 1, 1, 0, 0, 0, [], false, none⟩)] } }

/-- A record read of the flow path in channel 15 of stack 5, pseudo-channel 1: slot 0 of bucket 62. -/
def tagReq : HbmReq := ⟨512 * 62 + 32, 0, false, 0, .none, false⟩

/-- Pseudo-channel 1 of channel 95 with what waits there; page 15 of stack 5 is being read, and the prefetch buffer of die 1 is empty. -/
def queued (f : PchS → PchS) : Dev :=
  ({ part .run with buf := { BufS.reset with voq := [(1040, { Voq.zero with spill := true, rd := some ⟨2, 15, [], false⟩ })] } }).updPch 95 1 f

/-- Port 63 paused, with an operating gate list. -/
def paused : Dev := (part .run).updEgr 63 (fun g => { g with pause := 9, pfc := List.replicate 8 9, olen := 1 })

/-- A protection group whose working port is up again. -/
def guarded : Dev :=
  ((((part .run).put R.MAC_PROT [1, 1, 7] "EN" 1).put R.MAC_PROT [1, 1, 7] "REVERT" 1).put R.MAC_PROT [1, 1, 7] "ACTIVE" 1).put R.MAC_LINK (macIx 48) "STATE" 3

/-- A command frame of the galley chain with no payload. -/
def gframe (dst cmd ttl : Nat) : List Byte :=
  let b := [BitVec.ofNat 8 dst, 0#8, BitVec.ofNat 8 cmd, 0#8, BitVec.ofNat 8 ttl, 0#8]
  b ++ beBytes 2 (crcGalley b)

/-- Credentials locked. -/
def locked : Dev := (part .load).put R.GAL_CRED_CTL [] "LOCK" 1

/-- A running thread in slot 511 of die 1, event bit 0 set, INTMASK bits 0 and 2. -/
def threaded : Dev :=
  let d := (part .load).setTslot 1 511 { TSlot.zero with intm := 5 }
  ((d.put R.TSK_SLOT_ST [1, 511] "STATE" 2).put R.TSK_SLOT_ST [1, 511] "ENGINE" 95).setW R.TSK_SLOT_EVT [1, 511] 1

/-- A thread in slot 511 of die 1 that waits for event bit 2. -/
def sleepy : Dev := ((part .load).setTslot 1 511 { TSlot.zero with mask := 4 }).put R.TSK_SLOT_ST [1, 511] "STATE" 3

/-- A stamp entry on its way to a queue of region 3 that holds n. -/
def stamping (n : Nat) : Dev :=
  let d := part .run
  { d with tim := { d.tim with due := [[], [], [], [⟨0, 5, 6, 7, false⟩]], tsq := [[], [], [], List.replicate n ⟨0, false, 5, 6, 0⟩] } }

/-- Vector 63 of endpoint 0 waits. -/
def pendingV : Dev :=
  let d := part .run
  { d with hif := { d.hif with ep := d.hif.ep.upd 0 (fun e => { e with pending := [63] }) } }

/-- A part whose endpoint 0 is in D3hot. -/
def sleeping (m : Mode) : Dev := (part m).updEp 0 (fun e => { e with d3 := true })

/-- A part whose endpoint 0 has a link and accepts no configuration request yet. -/
def starting (m : Mode) : Dev := (part m).updEp 0 (fun e => { e with ready := false })

def rcOff : Nat := R.FLW_QN_ORDER.addr [1]
def wideOff : Nat := R.TIM_EPOCH.addr []
def w1cOff : Nat := R.MAC_LINK_CHG.addr [1, 1]
def lockOff : Nat := R.ERR_RESP.addr [1, 0x70]

/-! ## The spec's worked examples, step by step

Each test's numbers are those of the paragraph "Example:" of the chapter it names. -/

/-- The part after a command; the part as it was where the command stops. -/
def after (c : Instr) (d : Dev) : Dev := match exec c ⟨d, []⟩ with | .next t => t.dev | _ => d

/-- spec/00_scope.md: port 37, and engine 53; chapters 10, 14 and 15: engine 53, channel 9 of die 1, ports 40 and 44 and protection group 0. -/
theorem test_example_addresses :
    (R.MAC_PORT_CFG.addr (macIx 37) / 0x80000 * 0x80000 = 0x6400000 && R.KSN_ENG_CFG.addr (engIx 53) = 0x6301500
      && R.KSN_ENG_MCHK.addr (engIx 53) = 0x6301508 && R.MEM_CH_ELAST.addr [1, 9] / 0x4000 * 0x4000 = 0x4B24000
      && R.MAC_PORT_CFG.addr (macIx 40) / 0x400 * 0x400 = 0x6402000 && R.MAC_PORT_CFG.addr (macIx 44) / 0x400 * 0x400 = 0x6403000
      && R.MAC_PROT.addr [1, 0, 0] = 0x6404100) = true := by decide +kernel

/-- spec/04_flow_records.md: what R137 and R139 give for H. -/
theorem test_example_candidates :
    let h := 0xB3C52E8107F49A6D
    (homeDie h = 1 && candA h = (5, 3047687) && candB h = (3, 8015158) && ktagOf h false = 0xF49A6D && ktagOf h true = 0x2E8107) = true := by decide +kernel

/-- The key form of that example. -/
def scanner : Dev :=
  ["F_ZONE", "F_PROTO", "F_SPORT", "F_DPORT", "F_SADDR", "F_DADDR"].foldl (fun d n => d.put R.FLW_KFORM [0, 2] n 1) (part .run)

/-- spec/04_flow_records.md: the key of the scanner's SYN, whose endpoints are exchanged. -/
theorem test_example_key :
    canonKey scanner 0 2 ⟨0x0112, 6, 0x0A040715, 0x0A040209, 50122, 502⟩ =
      ([0x02#8, 0x12#8, 0x01#8, 0x06#8, 0x01#8, 0xF6#8, 0xC3#8, 0xCA#8] ++ List.replicate 12 0#8 ++ [0x0A#8, 0x04#8, 0x02#8, 0x09#8]
        ++ List.replicate 12 0#8 ++ [0x0A#8, 0x04#8, 0x07#8, 0x15#8], true) := by decide +kernel

/-- spec/06_quoins_and_atomic_update.md and spec/17_errors_and_recovery.md: record addresses. -/
theorem test_example_raddr :
    (raddrOf 4 0x123456 2 = 0x1091A2B2 && raddrOf 5 0x100 0 = 0x14000800 && raddrOf 3 8 0 = 0x0C000040 && raddrOf 1 0x052A10 3 = 0x04295083
      && candA 0x0001052A103C81E7 = (1, 0x052A10)) = true := by decide +kernel

/-- spec/14_hbm_controller.md, and step 1 of spec/17_errors_and_recovery.md: where R497 puts a bucket. -/
theorem test_example_hbm_map :
    (saMap (1024 * 0x3D269B) = ⟨0, 9, 14, 3913, 0⟩ && saMap (0x100000000 + 1024 * 0x3D269B) = ⟨0, 9, 14, 8009, 0⟩
      && saMap (1024 * 0x29508 + 224) = ⟨1, 6, 13, 165, 0xE0⟩) = true := by decide +kernel

/-- spec/04_flow_records.md: slot 6 of an odd bucket ends the second half of its row, its mirror copy lies in the next stack of the die, and the pad holds 0. -/
theorem test_bucket_layout :
    (saMap (bucketSa 7 + 32 + 64 * 6) = { saMap (1024 * 3) with col := 512 + 32 + 64 * 6 } && mirrorStack 5 = 3 && mirrorSa 7 = bucketSa 7 + 2 ^ 32
      && flowAt 5 (bucketSa 7 + 32 + 64 * 6) == some ⟨raddrOf 5 7 6, false, false⟩ && flowAt 5 (bucketSa 7) == some ⟨raddrOf 5 7 0, true, false⟩
      && flowAt 5 (bucketSa 7 + 480) == none && flowAt 3 (mirrorSa 7 + 32) == some ⟨raddrOf 5 7 0, false, true⟩) = true := by decide +kernel

/-- The site plan of spec/09_flow_actions.md. -/
def sitePlan : Dev :=
  ((((((part .run).put R.CP_CFG [0] "EN" 1).put R.CP_CFG [0] "SLEN" 12).put R.CP_CFG [0] "HBITS" 8).setW R.CP_SITE [0] 0xAC100000).setW
    R.CP_ENT_W0 [0, 310] 0xC0A80A00).put R.CP_ENT_W1 [0, 310] "VALID" 1

/-- spec/09_flow_actions.md: the key and the rewrites of packets 1 and 2. -/
theorem test_example_cell_plan :
    (sitePlan.cpKey 0 1 0xAC113614 = (0x136, 0xC0A80A14, false) && sitePlan.cpXlat 0 1 0x0AC8000F 0xAC113614 == some (0x0AC8000F, 0xC0A80A14)
      && sitePlan.cpXlat 0 0x136 0xC0A80A14 0x0AC8000F == some (0xAC113614, 0x0AC8000F)) = true := by decide +kernel

/-- The word at 0x3105 of spec/10_kosen_engines.md. -/
def exampleWord : Nat := 0x0129410000000001 * 2 ^ 128 + 0x10063B0000000010 * 2 ^ 64

/-- Engine 53 at that word, inside its window. -/
def engine53 : Dev :=
  let d := part .load
  let d := ({ d with eng := { d.eng with cs := [(0x3105, exampleWord, parityOf exampleWord)] } }.put R.KSN_ENG_STAT (engIx 53) "STATE" 1).setUpc 53 0x3105
  d.updEng 53 (fun g => { g with win := some ⟨g.ctx.w, [], 0x3104, [], []⟩, ctx := { g.ctx with w := setAt (setAt (setAt g.ctx.w 5 9) 6 0x20400) 7 0x77 } })

/-- spec/10_kosen_engines.md: the parity of the word, and its ADD; its store waits in the journal. -/
theorem test_example_engine_word :
    (parityOf exampleWord = 0b010100 && ((after (.kAdd 53) engine53).engOf 53).rd 5 = 10 && (after (.kAdd 53) engine53).eng.scr == engine53.eng.scr
      && ((after (.kAdd 53) engine53).engOf 53).win.map (·.journal) == some [.sts 0x20410 (leBytes 8 0x77)]) = true := by decide +kernel

/-- The three buffer words of spec/12_buffers_and_fabric.md: from the start word on, cells 3, 4 and 7 of word 0x120 are free. -/
def shortOfCells : Dev :=
  let d := part .run
  let c : Cell := ⟨true, 0, 0, 1, true, true, 0, 0, none⟩
  ({ d with buf := { d.buf with start := ⟨0x120, 0⟩, cells := [0, 1, 2, 5, 6].map (fun i => (64 * 0x120 + i, c)) } }).put R.BUF_FREE [0] "CELLS" 200000

/-- spec/12_buffers_and_fabric.md: the cells of the 600-byte frame. -/
theorem test_example_cells :
    let x := shortOfCells.allocFrame 0 0 16 600 none (check := false)
    (x.1.get R.BUF_FREE [0] "CELLS" = 199997 && (match x.2 with | .ok c => decide (c = 0x4803) | .error _ => false)
      && (SMap.look x.1.buf.cells 0x4803).map (fun c => (c.next, c.ref, c.head, c.last)) == some (0x4804, 1, true, false)
      && (SMap.look x.1.buf.cells 0x4804).map (fun c => (c.next, c.head, c.last)) == some (0x4807, false, false)
      && (SMap.look x.1.buf.cells 0x4807).map (fun c => (c.fill, c.last)) == some (87, true)) = true := by decide +kernel

/-- The drive of spec/08_search_and_forwarding_tables.md after step 2, its event ring enabled, 200 ms later. -/
def drive : Dev :=
  let d := part .run
  let d := ((((d.put R.L2_CFG [0] "MOVE_WIN_MS" 1000).put R.L2_CFG [0] "LEARN_EN" 1).put R.L2_EVT_CTL [0] "EN" 1).put R.L2_EVT_SIZE [0] "LOG2" 10)
  let d := { d with tim := { d.tim with raw := ⟨0x2A10 * 1000000, 0⟩ } }
  let d := after (.l2LearnApply 0) (d.l2Push 0 0x001B7C40029E 310 3)
  let d := { d with tim := { d.tim with raw := ⟨0x2AD8 * 1000000, 0⟩ } }
  after (.l2LearnApply 0) (d.l2Push 0 0x001B7C40029E 310 17)

/-- spec/08_search_and_forwarding_tables.md: the MOVE record of step 4, byte by byte, and the counters. -/
theorem test_example_move_record :
    ((List.range 16).map (fun i => SMap.get drive.hif.mem (16 + i) 0#8) ==
        [0x02#8, 0x01#8, 0x36#8, 0x01#8, 0x00#8, 0x1B#8, 0x7C#8, 0x40#8, 0x02#8, 0x9E#8, 0x11#8, 0x00#8, 0x03#8, 0x00#8, 0xD8#8, 0x2A#8]
      && drive.get R.L2_LEARN_CNT [0] "COUNT" = 1 && drive.get R.L2_MOVE_CNT [0] "COUNT" = 1
      && (drive.l2Find 0 0x001B7C40029E 310).bind (fun p => (SMap.look drive.mat.l2 p).map (·.flap)) == some 1) = true := by decide +kernel

/-- The time base of spec/16_time.md, a second stamped frame on its way, the host's step accepted. -/
def stepping : Dev :=
  let d := part .run
  let u : Nat := 2 ^ 32
  let p : Int := ((1760000000 * 1000000000 + 250000000 : Nat) : Int) * u
  { d with tim := { d.tim with raw := ⟨5000100000, 5000100000⟩, inc := u, offset := p - (5000000000 * u : Nat), cmd := some ⟨2, 5000100000, -1200, 0, true, false⟩,
                               due := [[⟨0, 12, 1, 5000101000, false⟩], [], [], []] } }

/-- spec/16_time.md: steps 4 to 6. -/
theorem test_example_time_step :
    let d := after .timeEpochReached stepping
    (pNs (stepping.tim.pAt 5000099000) = 250099000 && pNs (d.tim.pAt 5000100000) = 250098800 && pNs (d.tim.pAt 5001001200) = 251000000
      && ((after (.stampEntry 0 5000101000) d).tim.tsq.getD 0 []).map (fun s => pNs s.p) == [250099800]) = true := by decide +kernel

/-- spec/17_errors_and_recovery.md: the FLW_CHECK record of step 2, bytes 0 to 3 and 16 to 31. -/
theorem test_example_error_record :
    let d := (part .run).put R.ERR_SEQ [0] "SEQ" 0x0A32
    let r := errRecord d (mkEvent 0 0x10 1 2 1 (leBytes 8 0x0001052A103C81E7 ++ leBytes 4 0x04295083)) false noResp false false
    (r.take 4 ++ r.drop 16 == [0x01#8, 0x64#8, 0x02#8, 0x00#8, 0x32#8, 0x0A#8, 0x01#8, 0xFF#8, 0xE7#8, 0x81#8, 0x3C#8, 0x10#8, 0x2A#8, 0x05#8, 0x01#8, 0x00#8,
      0x83#8, 0x50#8, 0x29#8, 0x04#8] && srcId (codeLevel 0x51) 0x51 22 = 0x1456) = true := by decide +kernel

/-- An ENUM frame with a NEXT. -/
def enumFrame (next ttl : Nat) : List Byte :=
  let b := [0x3F#8, 0#8, 1#8, 0#8, BitVec.ofNat 8 ttl, 2#8, BitVec.ofNat 8 next, 0#8]
  b ++ beBytes 2 (crcGalley b)

/-- spec/18_host_and_galley_chain.md: step 2. P1 takes address 1, and its copy leaves DOWN with NEXT 2 and a TTL one less. -/
theorem test_example_enum :
    let d := after (.galleyEnum false (enumFrame 1 32)) (part .load)
    let f := after (.galleyFrameForward false (enumFrame 1 32)) (part .load)
    (d.gal.addr = 1 && d.get R.GAL_STAT [] "UPSTREAM" = 0 && f.gal.sent == [(true, enumFrame 2 31)]) = true := by decide +kernel

/-- The queues of spec/15_ports_and_lanes.md at step 3; the frame in transmission has left its queue. -/
def cut40 : Dev :=
  let e : Nat → QEnt := fun n => ⟨n, 0, 0, 0, 1, none, List.replicate 64 0#8, true, false, false, 0, none, none, ⟨0, 0, 0, 0, 0, none, 0⟩, false⟩
  let ent := fun (a n : Nat) => (List.range n).map (fun i => e (a + i))
  let d := part .run
  let d := (((((d.put R.MAC_PROT [1, 0, 0] "EN" 1).put R.MAC_PROT [1, 0, 0] "ARM" 1).put R.MAC_PROT [1, 0, 0] "REVERT" 1).put R.MAC_PROT [1, 0, 0] "WORK" 8).put
    R.MAC_PROT [1, 0, 0] "PROT" 12)
  let d := (d.setLink 40 4).setLink 44 3
  { d with buf := { d.buf with eq := [(8 * 40 + 3, ent 0 11), (8 * 40 + 5, ent 20 3), (8 * 44 + 3, ent 30 4)] } }

/-- spec/15_ports_and_lanes.md: step 4. -/
theorem test_example_protection :
    let d := after (.linkDownDeclare 40) cut40
    ((SMap.get d.buf.eq (8 * 44 + 3) []).map (·.pkt) == [30, 31, 32, 33] ++ List.range 11 && (SMap.get d.buf.eq (8 * 44 + 5) []).map (·.pkt) == [20, 21, 22]
      && d.get R.MAC_PROT [1, 0, 0] "ACTIVE" = 1 && d.get R.MAC_PROT_SW [1, 0, 0] "COUNT" = 1 && d.get R.MAC_LINK [1, 0, 8] "STATE" = 1) = true := by
  decide +kernel

/-- The threads of spec/11_task_scheduler.md at step 1. -/
def fourThreads : Dev :=
  let d := [(44, 41, 8), (45, 42, 12), (46, 43, 12), (47, 40, 20)].foldl (fun (d : Dev) (x : Nat × Nat × Nat) =>
    let d := ((d.put R.TSK_SLOT_ST [0, x.2.1] "STATE" 2).put R.TSK_SLOT_ST [0, x.2.1] "PRIO" x.2.2).put R.TSK_SLOT_ST [0, x.2.1] "ENGINE" x.1
    ((d.put R.KSN_ENG_STAT (engIx x.1) "STATE" 1).put R.KSN_ENG_STAT (engIx x.1) "ROLE_ACT" 1).put R.TSK_ENG_ST (tskIx x.1) "SLOT" x.2.1) (part .load)
  let d := ((d.put R.TSK_SLOT_ST [0, 70] "STATE" 3).put R.TSK_SLOT_ST [0, 70] "PRIO" 3).setTslot 0 70 { TSlot.zero with how := 1, mask := 4 }
  ((d.put R.TSK_LINE [0, 3] "EN" 1).put R.TSK_LINE [0, 3] "SLOT" 70).put R.TSK_LINE [0, 3] "BIT" 2

/-- spec/11_task_scheduler.md: steps 1 and 2, and the PREPEND withdrawn at step 4. -/
theorem test_example_preempt :
    let d := fourThreads.lineRise 0 3
    let w := d.wait 45 0 (0x10 * 2 ^ 32)
    (d.get R.TSK_SLOT_ST [0, 70] "STATE" = 1 && [44, 45, 46, 47].map (fun e => d.get R.TSK_ENG_ST (tskIx e) "PREPEND") == [0, 0, 0, 1]
      && w.get R.TSK_ENG_ST (tskIx 47) "PREPEND" = 0 && w.get R.TSK_WITHDRAW_CNT [0] "COUNT" = 1 && w.curSlot 45 == some 70) = true := by decide +kernel



/-! ## One witness for the hypotheses of each statement -/

theorem witness_StepRunsTheFrontCommand : (State.mk Dev.reset [.tapBypass]).pending = .tapBypass :: [] := rfl

theorem witness_EmptyQueueTicksTheRawCounters :
    let ticks := fun (t : TimS) => t.cmd.any (fun c => c.arrived && !c.acted && decide (c.e ≤ (t.raw.d0 + 1) % 2 ^ 64))
    State.reset.pending = [] ∧ State.reset.dev.tim.running = true ∧ ticks State.reset.dev.tim = false ∧ State.reset.dev.mat.twr = [] ∧
      ({ Dev.reset with tim := { TimS.reset with running := false } }).tim.running = false ∧ stepping.tim.running = true ∧ ticks stepping.tim = true ∧
      stepping.tim.cmd = some ⟨2, 5000100000, -1200, 0, true, false⟩ ∧ stepping.mat.twr = [] := by decide +kernel

theorem witness_StepsTakeCommandsFirstInFirstOut :
    (match Host.Core.run core 2 ⟨Dev.reset, [.tapBypass, .tapExtest, .monitorTrip]⟩ with
      | .next t => t.pending == [.monitorTrip] | _ => false) = true := by decide +kernel

theorem witness_ACommandOfNoUnitStops : 64 ≤ 64 ∧ 96 ≤ 96 ∧ 2 ≤ 2 := by decide

theorem witness_EveryWellFormedCommandRuns : Instr.tapBypass.wf = true ∧ Instr.tapBypass.fits Dev.reset = true
    ∧ (Instr.formeFetchComplete (some [])).fits Dev.reset = true ∧ (Instr.lossCondition 63 63 .signal).wf = true
    ∧ (Instr.hbmReadComplete ⟨1, 47, 1, [tagReq], 95⟩).fits (part .run) = true ∧ (Instr.panicRaise ⟨95, 1⟩ [tagReq]).fits (part .run) = true
    ∧ (Instr.lossCondition 63 63 .signal).fits (Dev.reset.put R.MAC_PORT_CFG (macIx 63) "MODE" 1) = true := by decide +kernel

theorem witness_ResetsHeatAndBootComplete :
    [decide ((part .run).glb.hold = .none), (part .run).takes .pcie R.GLB_RESET [] 0x5A170001, decide ((part .run).glb.hold ≠ .thermal),
      decide (({ part .run with glb := { (part .run).glb with hold := .rails } }).glb.hold = .rails), decide ((part .enrol).glb.mode = .enrol),
      !(({ Dev.reset with glb := { GlbS.reset with mode := .enrol } }).boot "ENROL_DONE"), linkOk 1 5 8, linkOk 0 1 1].all id = true := by decide +kernel

theorem witness_ModeTransitionsComplete :
    [(part .run).takes .pcie R.GLB_MODE_REQ [] 0xD, permitted .run (Mode.of 5), decide (((part .run).put R.GLB_MODE_REQ [] "TARGET" 5).refusal (Mode.of 5) = none),
      decide ((part .run).glb.trans = none), (part .drain).takes .galley R.GLB_MODE_REQ [] ((part .drain).setWord R.GLB_MODE_REQ [] "FLUSH"),
      decide ((moving .run .drain true).glb.deferred ∧ (moving .run .drain true).glb.trans = some .drain ∧ (moving .run .drain true).refusal .drain = none)].all id = true
    ∧ ([(Mode.enrol, Mode.load), (.load, .run), (.load, .proof), (.proof, .load), (.run, .drain), (.drain, .run), (.drain, .load), (.drain, .rest),
      (.rest, .run)].all (fun x => (moving x.1 x.2 false).moving x.1 x.2)) = true ∧ (moving .proof .load false).testing = false := by decide +kernel

theorem witness_DrainAndTrainingComplete :
    [(part .drain).drained, decide ((part .drain).glb.drainTmo ≠ 0), !(part .drain).boot "DRAIN_DONE", !(part .drain).boot "DRAIN_STUCK",
      ((part .drain).put R.GLB_DRAIN_CFG [] "PAUSE_EN" 1).bit R.GLB_DRAIN_CFG [] "PAUSE_EN", repairsOk [⟨0, 0⟩, ⟨95, 14⟩], (part .load).training 5,
      trainStopOk 5 ⟨15, [⟨95, 14⟩]⟩ 6 5, trainStopOk 0 ⟨0, []⟩ 2 1, !{ part .load with hbm := { (part .load).hbm with failed := [5] } }.training 5].all id = true := by decide +kernel

theorem witness_FormeAndPatchStepsComplete :
    [(part .load).takes .pcie R.GLB_FORME_CTL [] 1, (part .load).takes .galley R.GLB_PATCH_CTL [] 1, decide ((part .load).glb.loader.state = 0),
      !(part .load).glb.patching, decide ((loading 1 []).glb.loader.state = 1 ∧ (loading 1 []).get R.GLB_FORME_LEN [] "LEN" = 0),
      (loading 1 []).dmaUp, { part .load with glb := { (part .load).glb with patching := true } }.dmaUp,
      decide ((loading 4 []).glb.loader.state = 4), (loading 4 []).quiet, fFull (List.replicate 7 1#8), !fFull [],
      decide ((loading 5 (List.replicate 7 1#8)).glb.loader.img = List.replicate 7 1#8), decide ((part .load).get R.GLB_PATCH_LEN [] "LEN" = 0)].all id = true := by
  decide +kernel

theorem witness_PacketStepsComplete :
    [decide ((holding 3 (pkt0 .arrived)).pkt 3 = some (pkt0 .arrived)), decide ((pkt0 .arrived).stage = .arrived),
      decide ((holding 3 (pkt0 .crossing)).pk.link.get 0 = [.desc 3]), decide ((holding 3 (pkt0 .verdict)).pk.link.get 1 = [.verd (verdict 3)]),
      decide ((holding 3 { pkt0 .window with pat := some [] }).pkt 3 = some { pkt0 .window with pat := some [] }), ({ pkt0 .window with pat := some [] }).pat.isSome,
      [Stage.window, .remote, .replay].all (fun st => (holding 3 (pkt0 st)).pkt 3 == some (pkt0 st)), decide ((pkt0 .replay).img = none),
      decide ((holding 3 (pkt0 .replay)).pk.run.getD (pkt0 .replay).g [] = [3]), !(pkt0 .replay).ret, decide ((holding 3 (pkt0 .arrived)).pk.recirc.getD 3 [] = [3]),
      decide (homeDie ((pkt0 .listed).h.getD 0) = 1), decide ((holding 3 (pkt0 .listed)).pkt 3 = some (pkt0 .listed)),
      decide (([pend0 .fast].find? (fun e => e.kind == .fast && e.pkts.head? == some 3)) = some (pend0 .fast)),
      decide (([pend0 .setup].find? (fun e => e.idx == 0)) = some (pend0 .setup))].all id = true := by decide +kernel

theorem witness_RecordUpdatesComplete :
    [raOk (2 ^ 28 + 6), decide (auuPop 5 [⟨5, .add 1 2 3 4⟩] = some (⟨5, .add 1 2 3 4⟩, [])), decide (auuPop 5 [⟨5, .stamp 1 2⟩] = some (⟨5, .stamp 1 2⟩, [])),
      decide (auuPop 5 [⟨5, .cset⟩] = some (⟨5, .cset⟩, [])), decide (auuPop 5 [⟨5, .cdel⟩] = some (⟨5, .cdel⟩, [])),
      decide (auuPopWb 5 [⟨5, .cset⟩, ⟨5, .wb ⟨60, true, none, 0, 0, 0⟩⟩] = some (⟨5, .wb ⟨60, true, none, 0, 0, 0⟩⟩, [⟨5, .cset⟩])), !(record 5 .valid 4).cdelStalls 5,
      decide (auuPop 5 [⟨5, .cwrite 1 2 3 []⟩] = some (⟨5, .cwrite 1 2 3 []⟩, [])), decide (((record 5 .valid 4).slot 5).st ≠ .empty),
      ((record 5 .valid 4).recUse 5).2, decide ((record 5 .valid 4).glb.mode ≠ .rest), decide ((part .rest).glb.mode = .rest)].all id = true := by decide +kernel

theorem witness_HostFlowCommandsComplete :
    [(part .load).takes .pcie R.FLW_HCMD [1] 1, (part .run).takes .galley R.FLW_HCMD [1] 2, (part .load).takes .pcie R.FLW_HCMD [0] 3,
      (part .load).takes .pcie R.FLW_MIR_CTL [1] 2, ((part .load).put R.FLW_MIR_CTL [1] "INV_BUSY" 1).bit R.FLW_MIR_CTL [1] "INV_BUSY",
      (part .run).shows .galley R.FLW_QN_TORN_LOG [1], (part .load).takes .pcie R.FLW_QN_RCMD [1] 1, (part .load).takes .pcie R.FLW_QN_RCMD [1] 2,
      (part .load).takes .pcie R.FLW_QN_RCMD [1] 3, (part .load).takes .pcie R.FLW_DIV_CMD [1] 1, (part .load).takes .pcie R.FLW_DIV_CMD [1] 2].all id = true := by
  decide +kernel

theorem witness_AluWordsComplete :
    (List.range 25).all (fun n => (running 95 (uword (n + 1) 0 0)).issues 95 (UW.of (uword (n + 1) 0 0)) && (UW.of (uword (n + 1) 0 0)).aop == n + 1) = true := by
  decide +kernel

theorem witness_MemoryWordsComplete :
    (List.range 22).all (fun n => (running 95 (uword 0 (n + 1) 0)).issues 95 (UW.of (uword 0 (n + 1) 0)) && (UW.of (uword 0 (n + 1) 0)).mop == n + 1) = true := by
  decide +kernel

theorem witness_BranchWordsComplete :
    ([0x01, 0x02, 0x03, 0x04, 0x05, 0x07, 0x09, 0x0A, 0x0B, 0x0C, 0x0D, 0x0E].all (fun n => (running 95 (uword 0 0 n)).issues 95 (UW.of (uword 0 0 n)))
      && (called 95).issues 95 (UW.of (uword 0 0 6)) && (listed 95).issues 95 (UW.of (uword 0 0 8))
      && (running 95 (uword 0 0 15)).canIssue 95 && ((running 95 (uword 0 0 15)).nextWord 95).bop == 15 && (running 95 (uword 0 0 15)).csGood 11 0x100
      && !((running 95 (uword 0 0 15)).engOf 95).stalled ((running 95 (uword 0 0 15)).nextWord 95)
      && (running 95 (uword 0 0 15)).causes 95 ((running 95 (uword 0 0 15)).engOf 95) ((running 95 (uword 0 0 15)).nextWord 95) == [9]) = true := by
  decide +kernel

theorem witness_EngineEventsComplete :
    [decide (([⟨1, 2, 1, some [9], some (7, 3)⟩].find? (fun (i : Infl) => i.vals.isSome)) = some ⟨1, 2, 1, some [9], some (7, 3)⟩), decide (lowIrq [3, 1] = some 1),
      (running 95 0).canIssue 95, decide (((running 95 0).engOf 95).handler = none), decide (((running 95 0).engOf 95).win = none),
      decide (((running 95 0).engOf 95).turn = none),
      (part .load).takes .pcie R.KSN_ENG_IRQ (engIx 95) 1, decide (((windowed 95 []).engOf 95).win = some ⟨[], [], 0x100, [], []⟩),
      decide (lowIrq ((windowed 95 []).engOf 95).irqs = none), decide (lowIrq ((windowed 95 [2]).engOf 95).irqs = some 2),
      (part .load).takes .pcie R.KSN_ENG_RESET (engIx 95) 1, (part .load).takes .galley R.KSN_ENG_CFG (engIx 95) (2 * b2n true), [0, 8].all (below 9),
      (part .load).reaches .galley, !(part .load).behind .galley (apertureOff 11 0x1FFFF),
      (part .load).takes .pcie R.PMC_EVSEL (clIx 11 ++ [7]) 5].all id = true ∧ (part .load).accErr (apertureOff 11 0x1FFFF) = none :=
  ⟨by decide +kernel, by unfold Dev.accErr; rw [capWord_none (by decide)]; decide +kernel⟩

theorem witness_TaskCommandsComplete :
    [(part .load).takes .pcie R.TSK_CMD [1] (0x10000000 + 511), (part .load).takes .pcie R.TSK_CMD [1] (0x20000000 + 511),
      (part .load).takes .pcie R.TSK_CMD [0] 0x30000000, (part .load).takes .galley R.TSK_CMD [1] (0x40000000 + 511),
      ((part .load).put R.TSK_LINE [1, 11] "EN" 1).bit R.TSK_LINE [1, 11] "EN",
      ({ TskS.reset with edges := ⟨[], [11]⟩ }.edges.get 1).contains 11, (part .load).takes .pcie R.TSK_SLOT_EVT [1, 511] 0x80000001].all id = true := by
  decide +kernel

theorem witness_FabricAndEgressEventsComplete :
    [((part .run).put R.TMG_CFG [0] "FABRIC" 1).arrivals.compat, !(part .run).arrivals.compat, (part .run).arrivals.running, !(part .load).arrivals.running,
      decide ((crossing 15).xferDone 3 3 = some (15, ⟨0, 1, 1, 0, 0, 0, [], false, none⟩)),
      decide ((paused.egrOf 63).pause ≠ 0), decide ((paused.egrOf 63).pfc.getD 7 0 ≠ 0), (part .load).takes .pcie R.SCH_GATE_CTL (schP 63) 0,
      ((part .run).put R.SCH_GATE_CTL (schP 63) "PENDING" 1).bit R.SCH_GATE_CTL (schP 63) "PENDING",
      ((part .run).put R.SCH_GATE_CTL (schP 63) "OPER" 1).bit R.SCH_GATE_CTL (schP 63) "OPER", decide ((paused.egrOf 63).olen ≠ 0),
      decide (((part .run).put R.TSN_RCV_W0 (rw 3 ++ [511]) "RESET_MS" 1).get R.TSN_RCV_W0 (rw 3 ++ [511]) "RESET_MS" ≠ 0),
      ((part .run).put R.TSN_RCV_W0 (rw 3 ++ [511]) "VALID" 1).bit R.TSN_RCV_W0 (rw 3 ++ [511]) "VALID"].all id = true := by decide +kernel

theorem witness_HbmEventsComplete :
    let idle := (part .run).pch 95 1
    let late := queued (fun p => { p with owed := [31, 31, 31, 31, 31], rq := [⟨tagReq, some (-2000), 0, 0⟩] })
    let panicked := queued (fun p => { p with rq := [⟨{ tagReq with req := 1 }, none, 0, 0⟩, ⟨tagReq, some (-2000), 0, 1⟩] })
    let paged := queued (fun p => { p with rq := [⟨tagReq, some 0, 0, 0⟩, ⟨{ tagReq with sa := 2 ^ 33 + 2048 * 15 + 1024, req := 7 }, none, 0, 1⟩] })
    let full := queued (fun p => { p with wq := List.replicate 48 ⟨{ tagReq with req := 3, write := true }, none, 0, 0⟩ })
    [hbmReadOk ⟨1, 47, 1, [tagReq], 95⟩, panicOk 95 1 [tagReq], (part .run).reqOk 95 tagReq, !(part .run).asleep 95, idle.rq.isEmpty && idle.wq.isEmpty && idle.owed.isEmpty,
      (late.pch 95 1).overdue == some 31, (panicked.pch 95 1).overdue == none, (panicked.pch 95 1).rq.findIdx? (panicked.panicked 95) == some 1, (paged.pch 95 1).overdue == none,
      (paged.pch 95 1).rq.findIdx? (paged.panicked 95) == none, paged.srPanic 1 47 1, (paged.pch 95 1).rq.findIdx? (fun w => w.req.req == 7) == some 1,
      decide (full.get R.MEM_WDRAIN [1] "HI" ≤ (full.pch 95 1).wq.length), decide ((part .run).get R.MEM_WDRAIN [1] "LO" < (part .run).get R.MEM_WDRAIN [1] "HI"),
      decide (((part .run).pch 95 1).wq.length ≤ (part .run).get R.MEM_WDRAIN [1] "LO"), decide ((part .run).glb.mode ≠ .cold),
      ((part .run).put R.MEM_CTL [1] "TRACK_EN" 1).tracks 1, !((part .run).put R.MEM_CTL [1] "TRACK_EN" 0).tracks 1].all id = true := by decide +kernel

theorem witness_PortAndLinkEventsComplete :
    [(part .load).takes .pcie R.MAC_PORT_CTL (macIx 63) (b2n true), decide (((part .load).put R.MAC_LINK (macIx 63) "STATE" 2).linkState 63 = 2),
      decide (63 < 63 + modeLanes (((part .load).put R.MAC_PORT_CFG (macIx 63) "MODE" 1).portMode 63)), decide (((part .load).put R.MAC_LINK (macIx 63) "STATE" 4).linkState 63 = 4),
      ((part .load).put R.MAC_LINK (macIx 63) "HOLD" 1).bit R.MAC_LINK (macIx 63) "HOLD", (part .load).activePort 63 == 63,
      (guarded.put R.MAC_LINK (macIx 48) "HOLD" 1).bit R.MAC_LINK (macIx 48) "HOLD", ((guarded.put R.MAC_LINK (macIx 48) "HOLD" 1).put R.MAC_PROT [1, 1, 7] "PROT" 4).activePort 48 != 48, guarded.bit R.MAC_PROT [1, 1, 7] "EN",
      guarded.bit R.MAC_PROT [1, 1, 7] "REVERT", guarded.bit R.MAC_PROT [1, 1, 7] "ACTIVE", guarded.linkUp (48 + guarded.get R.MAC_PROT [1, 1, 7] "WORK"),
      !guarded.egr.revert.contains 31, [31].contains 31, decide ((guarded.egrOf (48 + guarded.get R.MAC_PROT [1, 1, 7] "PROT")).tx = none),
      (part .load).takes .galley R.MAC_PROT [1, 1, 7] 0, (part .load).takes .pcie R.SDS_PRBS_CTL (macIx 63) ((part .load).setWord R.SDS_PRBS_CTL (macIx 63) "INJ_BIT"),
      (part .load).takes .pcie R.SDS_PRBS_CTL (macIx 63) ((part .load).setWord R.SDS_PRBS_CTL (macIx 63) "INJ_BURST"),
      ((part .load).put R.SDS_PRBS_CTL (macIx 63) "CHK_EN" 1).bit R.SDS_PRBS_CTL (macIx 63) "CHK_EN", (part .load).lanesOn,
      !(part .load).bit R.SDS_RX_STAT (macIx 63) "CDR_LOCK", ((part .load).put R.SDS_RX_STAT (macIx 63) "CDR_LOCK" 1).bit R.SDS_RX_STAT (macIx 63) "CDR_LOCK"].all id = true := by decide +kernel

theorem witness_TimeCommandsComplete :
    [(part .load).takes .pcie R.TIM_CMD [] 0x10000000, (part .run).takes .galley R.TIM_CMD [] 0x20000000, (part .rest).takes .pcie R.TIM_CMD [] 0x30000000,
      (part .load).takes .pcie R.TIM_CMD [] 0x40000000, !timRange TimS.reset ⟨2, 128, 5, 0, false, false⟩, decide (TimS.reset.raw.d0 + 128 ≤ 128),
      ((part .load).put R.TIM_ETMR_CTL [1, 7] "EN" 1).bit R.TIM_ETMR_CTL [1, 7] "EN", decide (((part .load).put R.TIM_IO_CFG [3] "FUNC" 1).get R.TIM_IO_CFG [3] "FUNC" = 1),
      decide (((part .load).put R.TIM_IO_CFG [3] "FUNC" 2).get R.TIM_IO_CFG [3] "FUNC" = 2), (part .load).shows .pcie R.TIM_NOW_NS [1],
      (part .load).shows .galley R.TIM_TRIG_NS [3], (part .load).shows .pcie R.TIM_TSQ_W0 [1, 1]].all id = true := by decide +kernel

theorem witness_ErrorAndTraceCommandsComplete :
    [evOk (mkEvent 1 0x70 1 2 1 []), ((part .run).eventOp (mkEvent 1 0x70 1 2 1 [])).isNone,
      ((((part .run).put R.ERR_INJ [1] "GO" 1).put R.ERR_INJ [1] "CODE" 0x70).put R.ERR_INJ [1] "INST" 1).eventOp (mkEvent 1 0x70 1 2 1 []) == none,
      evOk (mkEvent 1 0x32 47 2 1 []), (((running 95 0).put R.TSK_WDOG [1, 47] "EN" 1).eventOp (mkEvent 1 0x32 47 2 1 [])).isSome, decide ((part .run).get R.ERR_RESP [1, 0x70] "ARM" = 0), !(part .run).injArmed 1 0x70 1,
      ((((part .run).put R.ERR_INJ [1] "GO" 1).put R.ERR_INJ [1] "CODE" 0x70).put R.ERR_INJ [1] "INST" 1).injArmed 1 0x70 1,
      (part .load).takes .pcie R.ERR_INJ [1] (2 ^ 31 + 2 ^ 16), (part .load).takes .pcie R.ERR_INJ [1] ((part .load).setWord R.ERR_INJ [1] "CANCEL"),
      (part .load).takes .galley R.ERR_QUIESCE [1] 3,
      (part .load).takes .pcie R.TRC_CTL [1] ((part .load).setWord R.TRC_CTL [1] "CLR"), (part .load).takes .pcie R.TRC_CTL [1] 0x80000000,
      (part .load).takes .galley R.TRC_MARK [1] 0xFFFFFFFF, (part .load).shows .pcie R.TRC_RD_DATA [1, 0],
      decide ((({ part .run with trc := ⟨TrcS.reset, { TrcS.reset with post := some 0 }⟩ }).trc.get 1).post = some 0)].all id = true := by decide +kernel

theorem witness_MatchCommandsComplete :
    [(part .load).takes .pcie R.MAT_TCAM_CMD [1, 1] (2 ^ 28 + 15 * 2 ^ 24 + 32767), (part .load).takes .pcie R.MAT_TCAM_CMD [1, 1] (2 * 2 ^ 28 + 15 * 2 ^ 24 + 32767),
      (part .load).takes .pcie R.MAT_TCAM_CMD [1, 1] (3 * 2 ^ 28 + 15 * 2 ^ 24 + 32767), (part .load).takes .galley R.MAT_TCAM_CMD [1, 1] (4 * 2 ^ 28 + 15 * 2 ^ 24 + 32767),
      (part .load).takes .pcie R.MAT_EX_CMD [1, 1] (2 ^ 28 + 255 * 2 ^ 20), (part .load).takes .pcie R.MAT_EX_CMD [1, 1] (2 * 2 ^ 28 + 255 * 2 ^ 20),
      (part .load).takes .pcie R.MAT_EX_CMD [1, 1] (3 * 2 ^ 28 + 255 * 2 ^ 20), (part .load).takes .pcie R.MAT_EX_CMD [1, 1] (4 * 2 ^ 28 + 255 * 2 ^ 20),
      (part .load).takes .pcie R.MAT_EX_CMD [1, 1] (5 * 2 ^ 28 + 255 * 2 ^ 20 + 2 ^ 20 - 1), (part .run).takes .pcie R.MAT_EX_CMD [1, 1] (6 * 2 ^ 28 + 255 * 2 ^ 20 + 2 ^ 20 - 1),
      (part .load).takes .pcie R.MAT_CNT_SEL [1, 1] 0x8000FFFF].all id = true := by decide +kernel

theorem witness_L2AndActionCommandsComplete :
    [(part .load).takes .pcie R.L2_HCMD [1] 1, (part .load).takes .pcie R.L2_HCMD [1] 2, (part .load).takes .pcie R.L2_HCMD [1] 3,
      (part .load).takes .pcie R.L2_HCMD [1] (4 + 256 * b2n true), (part .load).takes .pcie R.ACT_CMD [1] (2 ^ 28 + 2 ^ 18 - 1),
      (part .load).takes .galley R.ACT_CMD [1] (2 * 2 ^ 28 + 2 ^ 18 - 1), (part .load).takes .pcie R.CP_ENT_W0 [1, 65535] 0xC0A80A00,
      (part .load).takes .pcie R.CP_ENT_W1 [1, 65535] 0x80000000, (part .load).takes .pcie R.BAL_CMD [1] (2 ^ 28), (part .load).takes .pcie R.BAL_CMD [1] (2 * 2 ^ 28),
      (part .load).takes .pcie R.BAL_CMD [1] (3 * 2 ^ 28), (part .load).takes .pcie R.BAL_CMD [1] (4 * 2 ^ 28), (part .load).takes .pcie R.BAL_CMD [1] (5 * 2 ^ 28),
      (part .load).takes .pcie R.BAL_CMD [1] (6 * 2 ^ 28)].all id = true := by decide +kernel

theorem witness_HostRingCommandsComplete :
    [(part .load).takes .pcie R.HIF_TX_TAIL [63] 0, (part .load).takes .pcie R.HIF_RX_TAIL [0, 63] 0, (part .load).takes .galley R.HIF_RX_TAIL [1, 7] 0,
      (part .load).takes .pcie R.HIF1_CTL [] (b2n false), decide ((List.replicate 32 0#8).length = 32), decide (([] : List Byte).length = leAt (List.replicate 32 0#8) 8 2),
      linkOk 1 5 8, [0, 2052, 4092].all (fun off => decide (off < 4096) && off % 4 == 0), (part .load).epLinked 0, (part .load).epTakes 0,
      (sleeping .load).epLinked 0, !(sleeping .load).epTakes 0, (starting .load).epLinked 0, !((starting .load).hif.ep.get 0).ready,
      ((part .load).hif.ep.get 0).ready, decide (0xBF4 / 16 = 0x80 + 63 ∧ 63 < epVecs 0)].all id = true := by decide +kernel

theorem witness_GalleyFramesComplete :
    ([0, 2, 3, 4, 5, 6, 7, 8].all (fun c => galGood (gframe 0 c 32) && galCmd (gframe 0 c 32) == c && Dev.galMine (part .load) (gframe 0 c 32))
      && galGood (gframe 0x3F 1 32) && galCmd (gframe 0x3F 1 32) == 1 && Dev.galMine (part .load) (gframe 0x3F 1 32) && !hasBit (byteAt (gframe 0 2 32) 2) 7
      && !Dev.galMine (part .load) (gframe 9 2 32) && (part .load).takes .pcie R.GAL_CRED_CTL [] (2 + (part .load).get R.GAL_CRED_CTL [] "EN")) = true := by
  decide +kernel

theorem witness_SecurityCommandsComplete :
    [(part .load).takes .pcie R.SEC_OTP_CMD [] (2 ^ 28 + 255), (part .load).takes .pcie R.SEC_OTP_CMD [] (2 * 2 ^ 28), otpMode (part .load).glb.mode,
      decide ((part .load).sec.osvn ≤ 0 ∧ 0 ≤ (part .load).get R.GLB_FORME_INFO [] "SVN"), (part .load).takes .pcie R.SEC_OTP_CMD [] (3 * 2 ^ 28 + 128),
      (part .load).sec.vendorSvn.all (fun v => decide (128 ≤ v)), (part .load).takes .pcie R.SEC_ATT_CMD [] 1, !(part .load).bit R.SEC_ATT_STAT [] "BUSY",
      (part .load).attests, !(part .load).bit R.SEC_STAT [] "MON", (part .load).dmaUp, (part .load).shows .galley R.SEC_MREG [0],
      decide ((part .cold).glb.mode = .cold)].all id = true := by decide +kernel

/-! ## Accesses -/

theorem witness_RegisterReadsComplete :
    [aperOf rcOff == none, aperOf wideOff == none, findReg rcOff == some ⟨R.FLW_QN_ORDER, [1], false⟩, (part .load).shows .pcie R.FLW_QN_ORDER [1], !R.FLW_QN_ORDER.wide,
      (readers.find? (fun r => r.1.is R.FLW_QN_ORDER)).isNone, (R.FLW_QN_ORDER.fields.find? (fun f => f.acc == .rc)).isSome,
      findReg wideOff == some ⟨R.TIM_EPOCH, [], false⟩, (part .load).shows .galley R.TIM_EPOCH [], R.TIM_EPOCH.wide, (readers.find? (fun r => r.1.is R.TIM_EPOCH)).isNone,
      !R.TIM_EPOCH.fields.any (fun f => f.acc == .rc), findReg (R.SDS_PRBS_ERR.addr (macIx 63)) == some ⟨R.SDS_PRBS_ERR, macIx 63, false⟩,
      (part .load).shows .pcie R.SDS_PRBS_ERR (macIx 63), !R.SDS_PRBS_ERR.wide, R.SDS_PRBS_ERR.is R.SDS_PRBS_ERR, !R.FLW_QN_ORDER.is R.SDS_PRBS_ERR, (part .load).reaches .pcie, !(part .load).behind .pcie 0x7FFFFFC].all id = true
    ∧ capWord rcOff = none ∧ capWord wideOff = none ∧ (part .load).accErr 0x7FFFFFC = some 5 :=
  ⟨by decide +kernel, capWord_none (by decide), capWord_none (by decide), by unfold Dev.accErr; rw [capWord_none (by decide)]; decide +kernel⟩

theorem witness_RegisterWriteActsByAccessCode :
    [findReg w1cOff == some ⟨R.MAC_LINK_CHG, [1, 1], false⟩, aperOf w1cOff == none, (part .load).takes .galley R.MAC_LINK_CHG [1, 1] 0xFFFFFFFF,
      (writers.find? (fun w => w.1.is R.MAC_LINK_CHG)).isNone, !R.MAC_LINK_CHG.acts, !R.MAC_LINK_CHG.wide,
      R.MAC_LINK_CHG.fields.any (fun f => f.acc == .w1c)].all id = true := by decide +kernel

theorem witness_RegisterWriteActsElsewhere :
    ([(R.MAC_PFC_TX, macIx 63, 0x1002001), (R.SCH_PORT_OVH, schP 63, 0), (R.TSN_MTR_W3, [0, 0, 0], 0), (R.BUF_PART_LOW, [1], 0)].all (fun x =>
      let off := x.1.addr x.2.1
      below (2 ^ 27) off && aperOf off == none && findReg off == some ⟨x.1, x.2.1, false⟩ && (part .load).takes .galley x.1 x.2.1 x.2.2
        && (writers.find? (fun w => w.1.is x.1)).isNone && x.1.acts && !x.1.wide)) = true := by decide +kernel

theorem witness_AW1cBitSetByThePartStaysSet :
    ([(R.MAC_LINK_CHG, [1, 1]), (R.PMC_EVSEL, [1, 1, 2, 7]), (R.GAL_STAT, [])].all (fun x =>
      let off := x.1.addr x.2
      below (2 ^ 27) off && aperOf off == none && findReg off == some ⟨x.1, x.2, false⟩ && (part .load).takes .galley x.1 x.2 0xFFFFFFFF
        && x.1.fields.any (fun f => f.acc == .w1c && hasBit 0xFFFFFFFF f.hi))) = true := by decide +kernel

theorem witness_AClearingReadKeepsTheSameCycleIncrement :
    ([(R.FLW_QN_ORDER, [1]), (R.PRS_PAT_HITS, [1, 1]), (R.FLW_MIR_HIT, [1, 1]), (R.SDS_PRBS_ERR, macIx 63), (R.SDS_PRBS_BITS, macIx 63), (R.SCH_QPEAK, [0, 263])].all (fun x =>
      let off := x.1.addr x.2
      below (2 ^ 27) off && aperOf off == none && findReg off == some ⟨x.1, x.2, false⟩ && (part .load).shows .pcie x.1 x.2
        && !(x.1.is R.FLW_QN_TORN_LOG || x.1.is R.TIM_TSQ_W0) && (x.1.fields.find? (fun f => f.acc == .rc)).isSome)) = true
    ∧ capWord (R.FLW_QN_ORDER.addr [1]) = none ∧ capWord (R.PRS_PAT_HITS.addr [1, 1]) = none ∧ capWord (R.FLW_MIR_HIT.addr [1, 1]) = none
    ∧ capWord (R.SDS_PRBS_ERR.addr (macIx 63)) = none ∧ capWord (R.SDS_PRBS_BITS.addr (macIx 63)) = none ∧ capWord (R.SCH_QPEAK.addr [0, 263]) = none :=
  ⟨by decide +kernel, capWord_none (by decide), capWord_none (by decide), capWord_none (by decide), capWord_none (by decide), capWord_none (by decide),
    capWord_none (by decide)⟩

theorem witness_LockedFieldsStandAgainstAWrite :
    [findReg lockOff == some ⟨R.ERR_RESP, [1, 0x70], false⟩, aperOf lockOff == none, (part .run).shows .pcie R.ERR_RESP [1, 0x70],
      !(part .run).mustHold ⟨R.ERR_RESP, [1, 0x70], false⟩, !(part .run).credLocked R.ERR_RESP, (part .run).locks,
      (writers.find? (fun w => w.1.is R.ERR_RESP)).isNone, !R.ERR_RESP.acts, !R.ERR_RESP.wide,
      (part .run).writeRefused ⟨R.ERR_RESP, [1, 0x70], false⟩ ((part .run).lockedValue R.ERR_RESP [1, 0x70] 0xFF0705) == 0,
      (part .run).lockedValue R.ERR_RESP [1, 0x70] 0xFF0705 != 0xFF0705].all id = true := by decide +kernel

theorem witness_ALowWordIsStagedForItsHighWord :
    [(part .load).shows .galley R.TIM_EPOCH [], !(part .load).mustHold ⟨R.TIM_EPOCH, [], false⟩, !(part .load).bit R.TIM_CMD_STAT [] "PENDING",
      ((part .load).latch .galley).wl == none].all id = true := by decide +kernel

theorem witness_RefusedWritesOnlyReport :
    [(part .run).takes .galley R.GLB_RESET [] 0x5A160001, (part .run).takes .pcie R.GLB_MODE_REQ [] ((part .run).setWord R.GLB_MODE_REQ [] "FLUSH"),
      (part .load).reaches .pcie, !(part .load).behind .pcie 0x7FFFFFC, findReg 0x7FFFFFC == none,
      locked.shows .pcie R.GAL_KEY [7], locked.bit R.GAL_CRED_CTL [] "LOCK", !locked.mustHold ⟨R.GAL_KEY, [7], false⟩].all id = true
    ∧ (part .load).accErr 0x7FFFFFC = some 5 := ⟨by decide +kernel, by unfold Dev.accErr; rw [capWord_none (by decide)]; decide +kernel⟩

theorem witness_EveryRegisterIsFoundAtItsOffset :
    (R.all.contains R.CP_ENT_W1 && ixOk R.CP_ENT_W1.dims [1, 65535] && R.all.contains R.TIM_EPOCH && ixOk R.TIM_EPOCH.dims [] && R.TIM_EPOCH.wide) = true := by
  decide +kernel

/-! ## The rest -/

theorem witness_AluRowsComputeTheTable : (UW.of (uword 8 0 0)).width < 4 ∧
    [1, 2, 3, 4, 5, 6, 7, 8, 9, 0x0A, 0x0B, 0x0C, 0x0D, 0x0E, 0x0F, 0x10, 0x11, 0x12, 0x13, 0x14, 0x15, 0x16, 0x17, 0x18, 0x19].all (fun n => (UW.of (uword n 0 0)).aop == n) = true := by
  decide +kernel

theorem witness_AnAluWordWritesItsDestinationAlone :
    (List.range 25).all (fun n =>
      let w := uword (n + 1) 0 0 + 31 * 2 ^ 179
      (running 95 w).issues 95 (UW.of w) && (UW.of w).mop == 0 && (UW.of w).bop == 0 && (UW.of w).dst == 31
        && decide ((UW.of w).dst < ((running 95 w).engOf 95).ctx.w.length)) = true := by decide +kernel

theorem witness_AnStlWordStoresItsBytesAlone :
    ((running 95 (uword 0 2 0)).issues 95 (UW.of (uword 0 2 0)) && ((running 95 (uword 0 2 0)).engOf 95).win == none
      && (UW.of (uword 0 2 0)).aop == 0 && (UW.of (uword 0 2 0)).bop == 0 && Memory.wf ((running 95 (uword 0 2 0)).engOf 95).lmem 0#8) = true := by decide +kernel

theorem witness_AnEngineResetTouchesNoOtherEngine :
    ((running 95 0).takes .pcie R.KSN_ENG_RESET (engIx 95) 1 && (running 95 0).get R.KSN_ENG_CFG (engIx 95) "ROLE" == 0) = true := by decide +kernel

theorem witness_AQacqOutOfOrderIsRefused :
    (decide ((record 5 .valid 0).claims 95 < 4) && ((record 5 .valid 0).owned 95).any (fun r => decide (5 ≤ r))) = true := by decide +kernel

theorem witness_TheBusWinnerDropsToTheLowestRank :
    ([0, 8].all (below 9) && ((part .run).busRank 11).find? (fun r => [8, 3].contains r) == some 3) = true := by decide +kernel

theorem witness_AModeRequestIsAnsweredInOrder : ((part .load).takes .pcie R.GLB_MODE_REQ [] 0xB && (part .run).takes .galley R.GLB_MODE_REQ [] 0xB) = true := by
  decide +kernel

theorem witness_ADeferredRequestIsTestedAgain :
    (decide ((moving .load .run true).glb.trans = some .run) && (moving .load .run true).glb.deferred && (moving .load .run true).glb.loader.state == 0
      && (moving .load .run true).refusal .run == some 6) = true := by decide +kernel

theorem witness_AThermalTripHoldsThePartInCold : (-128 : Int) ≤ 115 ∧ (115 : Int) ≤ 127 ∧ (part .run).glb.mode ≠ .cold := by decide +kernel

theorem witness_TheAlertPinFollowsTheReadings :
    ((part .run).get R.GLB_THERM_CFG [] "ALERT_C" == 100 && ((part .run).put R.MEM_STACK_STAT [1, 2] "OVERTEMP" 1).bit R.MEM_STACK_STAT [5 / 3, 5 % 3] "OVERTEMP"
      && (List.range 6).all (fun j => !(part .run).bit R.MEM_STACK_STAT [j / 3, j % 3] "OVERTEMP")) = true := by decide +kernel

theorem witness_ARefusedOtpCommandChangesNothing :
    [(part .proof).takes .pcie R.SEC_OTP_CMD [] (2 * 2 ^ 28 + 5), (part .proof).takes .pcie R.SEC_OTP_CMD [] (3 * 2 ^ 28 + 5),
      (part .load).takes .pcie R.SEC_OTP_CMD [] (2 * 2 ^ 28 + 129), (part .load).takes .pcie R.SEC_OTP_CMD [] (3 * 2 ^ 28 + 129)].all id = true := by decide +kernel

theorem witness_ProgrammedBitsAreNeverCleared : step (at_ (part .run)) = .next (at_ (part .run).idle) := rfl

/-- A record of the key 1, 0, … in slot 3 of candidate A of H = 2 ^ 63. -/
def found : Dev :=
  let k := 1#8 :: List.replicate 39 0#8
  let s := { Slot.zero with st := .valid, form := 1, ktag := ktagOf (2 ^ 63) false, body := { Rec.zero with key := k } }
  { part .run with flw := { (part .run).flw with slots := [(candSlot (2 ^ 63) false 3, s)] } }

theorem witness_CandidatesLieOnTheHomeDieInDifferentStacks : 6 < 7 := by decide

theorem witness_ALookupFindsTheSlotOfItsKey :
    found.lookup (1#8 :: List.replicate 39 0#8) (2 ^ 63) none = .hit (candSlot (2 ^ 63) false 3)
    ∧ found.lookup (1#8 :: List.replicate 39 0#8) (2 ^ 63) (some (0, 3)) = .hit (candSlot (2 ^ 63) false 3)
    ∧ found.lookup (2#8 :: List.replicate 39 0#8) (2 ^ 63) none = .miss ∧ (found.slot (candSlot (2 ^ 63) false 3)).st ≠ .empty := by decide +kernel

theorem witness_AddNeedsAValidRecordAndNoQuoin :
    (raOk 5 && auuPop 5 (record 5 .valid 0).flw.auuq == some (⟨5, .add 1 2 3 4⟩, []) && ((record 5 .valid 0).slot 5).st == .valid && (record 5 .valid 0).auuReadable 5
      && decide ((record 5 .valid 0).glb.mode ≠ .rest)
      && ((record 5 .torn 0).slot 5).st == .torn) = true := by decide +kernel

theorem witness_EventBitsAreOnlySet :
    (threaded.takes .pcie R.TSK_SLOT_EVT [1, 511] 5 && threaded.tst 1 511 == 2 && (part .load).tst 1 511 == 0
      && Nat.land (Nat.xor (Nat.lor (threaded.tevt 1 511) 5) (threaded.tevt 1 511)) (threaded.tslot 1 511).intm == 4
      && Nat.land (Nat.xor (Nat.lor (threaded.tevt 1 511) 1) (threaded.tevt 1 511)) (threaded.tslot 1 511).intm == 0
      && threaded.takes .pcie R.TSK_SLOT_EVT [1, 511] 1 && sleepy.tst 1 511 == 3 && sleepy.takes .galley R.TSK_SLOT_EVT [1, 511] 4
      && Nat.land (Nat.lor (sleepy.tevt 1 511) 4) (sleepy.tslot 1 511).mask == 4 && Nat.land (Nat.lor (sleepy.tevt 1 511) 2) (sleepy.tslot 1 511).mask == 0
      && sleepy.takes .galley R.TSK_SLOT_EVT [1, 511] 2) = true := by decide +kernel

theorem witness_TimeCommandsActAtTheirEpoch : (⟨1, 9, (7 : Nat), 0, true, false⟩ : TimCmd).op = 1 ∧ (⟨1, 9, (7 : Nat), 0, true, false⟩ : TimCmd).v = (7 : Nat)
    ∧ (⟨2, 9, -5, 0, true, false⟩ : TimCmd).op = 2 ∧ (⟨3, 9, 5, 0, true, false⟩ : TimCmd).op = 3 ∧ stepping.tim.cmd = some ⟨2, 5000100000, -1200, 0, true, false⟩
    ∧ (stepping.timForce ⟨2, 5000100000, -1200, 0, true, false⟩).tim.cmd = some ⟨2, 5000100000, -1200, 0, true, true⟩ := by decide +kernel

theorem witness_AFullStampQueueDropsAndCounts :
    ((stamping 31).tim.due.getD 3 [] == [⟨0, 5, 6, 7, false⟩] && decide (3 < (stamping 31).tim.tsq.length) && ((stamping 31).tim.tsq.getD 3 []).length == 31
      && ((stamping 32).tim.tsq.getD 3 []).length == 32 && !(stamping 32).bit R.TIM_LOST_ID [1, 1] "VALID"
      && ((stamping 32).put R.TIM_LOST_ID [1, 1] "VALID" 1).bit R.TIM_LOST_ID [1, 1] "VALID") = true := by decide +kernel

theorem witness_CapturesStayApartAndOvrTellsALostOne :
    (((part .load).put R.TIM_IO_CFG [3] "FUNC" 2).get R.TIM_IO_CFG [3] "FUNC" == 2 && ((part .load).put R.TIM_TRIG_STAT [3] "NEW" 1).bit R.TIM_TRIG_STAT [3] "NEW"
      && !(part .load).bit R.TIM_TRIG_STAT [3] "NEW" && (part .load).shows .pcie R.TIM_NOW_NS [1] && (part .load).shows .galley R.TIM_NOW_NS [0]) = true := by
  decide +kernel

theorem witness_ReleaseClearsDiverted :
    (let d := (record 5 .valid 4).put R.FLW_DIV_LOC [0] "RADDR" 5
    let x := Dev.auuDrain 5 d.flw.auuq.length d
    d.takes .pcie R.FLW_DIV_CMD [0] 1 && d.get R.FLW_DIV_LOC [0] "RADDR" == 5 && raDie 5 == 0 && d.flw.auuq.length == 1 && x.flw.auuq.isEmpty
      && (x.slot 5).body.pkts == 3 && (x.slot 5).st == .valid && (x.slot 5).body.diverted && !x.heldBy 5 && x.auuReadable 5) = true := by decide +kernel

theorem witness_TraceClearEmptiesTheBuffer : (part .load).takes .galley R.TRC_CTL [1] ((part .load).setWord R.TRC_CTL [1] "CLR") = true := by decide +kernel

theorem witness_ATraceReadAdvancesItsPathAlone : ((part .load).shows .pcie R.TRC_RD_DATA [0, 0] && (part .load).shows .galley R.TRC_RD_DATA [1, 0]) = true := by
  decide +kernel

theorem witness_AMaskedVectorSendsOneMessageWhenUnmasked :
    (Endpoint.reset.masked.contains 57 && pendingV.epTakes 0 && !(sleeping .run).epTakes 0 && (pendingV.hif.ep.get 0).sends
      && (pendingV.hif.ep.get 0).pending == [63]) = true := by
  decide +kernel

theorem witness_AForwardedFrameCarriesTtlLessOne :
    (!Dev.galMine (part .load) (gframe 9 2 1) && galGood (gframe 9 2 1) && byteAt (gframe 9 2 1) 4 == 1 && byteAt (gframe 9 2 0) 4 == 0 && !galGood (List.replicate 8 9#8)
      && !Dev.galMine (part .load) (List.replicate 8 9#8)) = true := by decide +kernel

end Sys2Proof.Tests
end

section
/-! SUPPORT. Facts about the tables of the registers, what reset leaves, and values made field by field. -/

namespace Sys2Proof.Machine

/-! ## The register tables -/

/-- Two fields share no bit. -/
def RField.apart (f g : RField) : Prop := f.hi < g.lo ∨ g.hi < f.lo

/-- R13: the fields of a register lie within its width, apart from each other, and each is found by its name. -/
def RegSpec.laidOut (r : RegSpec) : Bool :=
  r.fields.all (fun f => decide (f.lo ≤ f.hi) && decide (f.hi < r.bits) && r.field f.name == some f)
    && decide (r.fields.Pairwise (fun f g => f.hi < g.lo ∨ g.hi < f.lo))

theorem regs_laidOut : ∀ r ∈ R.all, r.laidOut = true :=
  List.all_eq_true.mp (show R.all.all RegSpec.laidOut = true by decide +kernel)

theorem field_bounds {r : RegSpec} (hr : r ∈ R.all) {f : RField} (hf : f ∈ r.fields) : f.lo ≤ f.hi ∧ f.hi < r.bits := by
  have h := regs_laidOut r hr
  simp only [RegSpec.laidOut, Bool.and_eq_true, List.all_eq_true, decide_eq_true_eq] at h
  exact (h.1 f hf).1

theorem field_name {r : RegSpec} (hr : r ∈ R.all) {f : RField} (hf : f ∈ r.fields) : r.field f.name = some f := by
  have h := regs_laidOut r hr
  simp only [RegSpec.laidOut, Bool.and_eq_true, List.all_eq_true, decide_eq_true_eq, beq_iff_eq] at h
  exact (h.1 f hf).2

theorem fields_apart {r : RegSpec} (hr : r ∈ R.all) : r.fields.Pairwise RField.apart := by
  have h := regs_laidOut r hr
  simp only [RegSpec.laidOut, Bool.and_eq_true, decide_eq_true_eq] at h
  exact h.2

theorem reset_lt {r : RegSpec} (hr : r ∈ R.all) : r.reset < 2 ^ r.bits := by
  have h : R.all.all (fun r => decide (r.reset < 2 ^ r.bits)) = true := by decide +kernel
  simpa using List.all_eq_true.mp h r hr

theorem regIds_nodup : (R.all.map RegSpec.id).Nodup := by
  have h : R.all.map RegSpec.id = List.range R.all.length := by decide +kernel
  exact h ▸ List.nodup_range

/-- Two registers of the map that are the same row are equal. -/
theorem eq_of_is {r q : RegSpec} (hr : r ∈ R.all) (hq : q ∈ R.all) (h : r.is q = true) : r = q :=
  List.inj_on_of_nodup_map regIds_nodup hr hq (by simpa [RegSpec.is] using h)

theorem any_acc {r : RegSpec} {f : RField} (hf : f ∈ r.fields) {c : Acc} (hc : f.acc = c) : r.fields.any (fun f => f.acc == c) = true :=
  List.any_eq_true.mpr ⟨f, hf, by simp [hc]⟩

/-- R17: a register that no word of the register file lists reads its reset value. -/
theorem getW_of_regs_nil {d : Dev} (hd : d.regs = []) {r : RegSpec} (hr : r ∈ R.all) (ix : List Nat) : d.getW r ix = r.reset := by
  have h := reset_lt hr
  have hword : ∀ a rst, regWord d.regs a rst = rst % 2 ^ 32 := fun a rst => by
    simp only [regWord, hd, SMap.get, SMap.look, Option.getD_none, BitVec.toNat_ofNat]
  simp only [Dev.getW, hword]
  unfold RegSpec.bits at h
  split at h
  · rw [if_pos ‹_›]; omega
  · rw [if_neg ‹_›]; omega

/-- Settles O3: the register file is empty after reset, and so is every store. -/
theorem resetLeavesEveryRegisterAtItsResetValue : Obligations.ResetLeavesEveryRegisterAtItsResetValue :=
  ⟨fun _ ix hr => getW_of_regs_nil rfl hr ix, rfl, rfl, rfl, rfl, rfl, rfl, rfl, rfl⟩

/-! ## Values made field by field -/

theorem fields_apart_of_ne {r : RegSpec} (hr : r ∈ R.all) {f g : RField} (hf : f ∈ r.fields) (hg : g ∈ r.fields) (h : f ≠ g) : f.apart g :=
  have : Std.Symm RField.apart := ⟨fun _ _ => Or.symm⟩
  (fields_apart hr).forall hf hg h

theorem bitsOf_mod {hi lo n : Nat} (w : Nat) (h : hi < n) : bitsOf (w % 2 ^ n) hi lo = bitsOf w hi lo := by
  apply Nat.eq_of_testBit_eq
  intro i
  rw [testBit_bitsOf, testBit_bitsOf, Nat.testBit_mod_two_pow]
  by_cases hi' : i < hi + 1 - lo
  · simp [show i + lo < n by omega]
  · simp [hi']

/-- A field set to what it reads is left as it stands. -/
@[simp] theorem setBits_bitsOf_self (w hi lo : Nat) : setBits w hi lo (bitsOf w hi lo) = w := by
  rw [setBits_eq, Nat.mod_eq_of_lt (bitsOf_lt w hi lo)]
  exact (split_field w hi lo).symm

/-- A step for each field that changes that field's bits alone. -/
def FieldStep (step : Nat → RField → Nat) : Prop :=
  ∀ (w : Nat) (f g : RField), f.lo ≤ f.hi → f.apart g → bitsOf (step w f) g.hi g.lo = bitsOf w g.hi g.lo

section
variable {step : Nat → RField → Nat} {l : List RField}

theorem bitsOf_foldl_apart (hs : FieldStep step) (hl : ∀ f ∈ l, f.lo ≤ f.hi) {g : RField} (hg : ∀ f ∈ l, f.apart g) (w : Nat) :
    bitsOf (l.foldl step w) g.hi g.lo = bitsOf w g.hi g.lo := by
  induction l generalizing w with
  | nil => rfl
  | cons f l ih =>
    rw [List.foldl_cons, ih (fun x hx => hl x (List.mem_cons_of_mem _ hx)) (fun x hx => hg x (List.mem_cons_of_mem _ hx))]
    exact hs w f g (hl f List.mem_cons_self) (hg f List.mem_cons_self)

/-- Of fields that lie apart, each ends as its own step makes it. -/
theorem bitsOf_foldl_mem (hs : FieldStep step) (hl : ∀ f ∈ l, f.lo ≤ f.hi) (hp : l.Pairwise RField.apart) {f : RField} (hf : f ∈ l) {F : Nat → Nat}
    (hF : ∀ w, bitsOf (step w f) f.hi f.lo = F (bitsOf w f.hi f.lo)) (w : Nat) : bitsOf (l.foldl step w) f.hi f.lo = F (bitsOf w f.hi f.lo) := by
  induction l generalizing w with
  | nil => cases hf
  | cons g l ih =>
    obtain ⟨hg, hp⟩ := List.pairwise_cons.mp hp
    have hl' : ∀ x ∈ l, x.lo ≤ x.hi := fun x hx => hl x (List.mem_cons_of_mem _ hx)
    rw [List.foldl_cons]
    rcases List.mem_cons.mp hf with rfl | hf
    · rw [bitsOf_foldl_apart hs hl' (fun x hx => (hg x hx).symm), hF]
    · rw [ih hl' hp hf, hs w g f (hl g List.mem_cons_self) (hg f hf)]

/-- Setting a field is such a step, whatever it is set to. -/
theorem fieldStep_setBits (v : Nat → RField → Nat) : FieldStep (fun w f => setBits w f.hi f.lo (v w f)) :=
  fun w _ _ hl h => bitsOf_setBits_ne w _ hl h

/-- Fields of a register chosen by a test, made by steps: each ends as its own step makes it. -/
theorem bitsOf_foldl_filter {r : RegSpec} (hr : r ∈ R.all) (hs : FieldStep step) {c : RField → Bool} {f : RField} (hf : f ∈ r.fields) (hc : c f = true)
    {F : Nat → Nat} (hF : ∀ w, bitsOf (step w f) f.hi f.lo = F (bitsOf w f.hi f.lo)) (w : Nat) :
    bitsOf ((r.fields.filter c).foldl step w) f.hi f.lo = F (bitsOf w f.hi f.lo) :=
  bitsOf_foldl_mem hs (fun _ hx => (field_bounds hr (List.mem_filter.mp hx).1).1) ((fields_apart hr).filter c) (List.mem_filter.mpr ⟨hf, hc⟩) hF w

/-- A field that the test leaves out ends as it began. -/
theorem bitsOf_foldl_filter_not {r : RegSpec} (hr : r ∈ R.all) (hs : FieldStep step) {c : RField → Bool} {f : RField} (hf : f ∈ r.fields) (hc : c f = false)
    (w : Nat) : bitsOf ((r.fields.filter c).foldl step w) f.hi f.lo = bitsOf w f.hi f.lo := by
  refine bitsOf_foldl_apart hs (fun _ hx => (field_bounds hr (List.mem_filter.mp hx).1).1) (fun x hx => ?_) w
  obtain ⟨hx, hcx⟩ := List.mem_filter.mp hx
  exact fields_apart_of_ne hr hx hf (by rintro rfl; simp [hc] at hcx)

end

/-- A field of a register reads what the register was set to. -/
theorem bitsOf_getW_setW {r : RegSpec} (hr : r ∈ R.all) {f : RField} (hf : f ∈ r.fields) (d : Dev) (ix : List Nat) (v : Nat) :
    bitsOf ((d.setW r ix v).getW r ix) f.hi f.lo = bitsOf v f.hi f.lo := by
  rw [Dev.getW_setW_same, bitsOf_mod v (field_bounds hr hf).2]

/-- A field by its name is its bits of the register. -/
theorem get_name {r : RegSpec} (hr : r ∈ R.all) {f : RField} (hf : f ∈ r.fields) (d : Dev) (ix : List Nat) :
    d.get r ix f.name = bitsOf (d.getW r ix) f.hi f.lo := by
  simp only [Dev.get, field_name hr hf]

end Sys2Proof.Machine
end

section
/-! SUPPORT. What a host access does at any register that its offset finds, and the reads that it performs. -/

namespace Sys2Proof.Machine

/-! ## What a host access reaches -/

/-- An access of a path at an offset reaches the register word, or the low word, that the offset finds. -/
structure Reached (d : Dev) (p : Path) (off : Nat) (h : Hit) : Prop where
  bound : off < 2 ^ 27
  aper : aperOf off = none
  find : findReg off = some h
  addr : off = h.r.addr h.ix
  low : h.high = false
  shows : d.shows p h.r h.ix = true

theorem findReg_mem {off : Nat} {h : Hit} (hf : findReg off = some h) : h.r ∈ R.all ∧ ixOk h.r.dims h.ix = true := by
  obtain ⟨r, hr, hit⟩ := List.exists_of_findSome?_eq_some hf
  unfold RegSpec.hit at hit
  split at hit
  · cases hit
  · split at hit
    · rename_i hd
      split at hit
      · cases hit; exact ⟨hr, (decodeIx_sound hd).2⟩
      · split at hit <;> cases hit
        exact ⟨hr, (decodeIx_sound hd).2⟩
    · cases hit

section
variable {d : Dev} {p : Path} {off : Nat} {h : Hit}

theorem Reached.mem (a : Reached d p off h) : h.r ∈ R.all := (findReg_mem a.find).1

theorem Reached.hit_eq (a : Reached d p off h) : h = ⟨h.r, h.ix, false⟩ := by
  obtain ⟨r, ix, high⟩ := h
  exact congrArg _ a.low

theorem Reached.reaches (a : Reached d p off h) : d.reaches p = true := by
  have hs := a.shows
  simp only [Dev.shows, Bool.and_eq_true] at hs
  obtain ⟨⟨⟨⟨hreach, -⟩, -⟩, -⟩, -⟩ := hs
  exact hreach

theorem Reached.notBehind (a : Reached d p off h) : d.behind p off = false := by
  have hs := a.shows
  simp only [Dev.shows, Bool.and_eq_true, Bool.not_eq_true', ← a.addr] at hs
  obtain ⟨⟨⟨⟨-, hbehind⟩, -⟩, -⟩, -⟩ := hs
  exact hbehind

/-- R707: an access that reaches a register is neither ABSENT nor STOPPED. -/
theorem Reached.accErr (a : Reached d p off h) : d.accErr off = none := by
  have hs := a.shows
  simp only [Dev.shows, Bool.and_eq_true, Bool.not_eq_true', Bool.or_eq_true, bne_iff_ne, ← a.addr, ← a.hit_eq] at hs
  obtain ⟨⟨⟨-, hidden⟩, clock⟩, stops⟩ := hs
  have hclock : (!isGlb off && (d.glb.mode == .root || !d.boot "ROOT_DONE")) = false := by
    rcases clock with hg | ⟨hm, hb⟩
    · simp [hg]
    · simp [hm, hb]
  unfold Dev.accErr
  simp only [a.find, hidden, Bool.not_false, Bool.or_true, Bool.not_true, Bool.false_eq_true, if_false, hclock, stops]

/-- R13: a read that reaches a register shows it. -/
theorem Reached.hostRead (a : Reached d p off h) (hc : capWord off = none) (inc : Nat) : d.hostRead p off inc = d.regRead p h inc := by
  simp only [Dev.hostRead, a.reaches, a.notBehind, Dev.doRead, a.accErr, hc, a.aper, a.find, Bool.not_true, Bool.false_eq_true, if_false]

/-- R13: a write that reaches a register and is not held is a write of that register. -/
theorem Reached.hostWrite (a : Reached d p off h) (hm : d.mustHold h = false) (v : Word) : d.hostWrite p off v = d.regWrite p off v.toNat h := by
  simp only [Dev.hostWrite, a.reaches, a.notBehind, Dev.doWrite, a.accErr, a.aper, a.find, hm, Bool.not_true, Bool.false_eq_true, if_false]

end

/-! ## The commands of accesses -/

theorem clearingRead_runs {off : Nat} (h : off < 2 ^ 27) (p : Path) (inc : Nat) (s : State) :
    exec (.clearingRead p off inc) s = .next { s with dev := s.dev.hostRead p off inc } := by
  rw [exec_clearingRead, execClearingRead, within_pos ((below_iff _ _).mpr h)]

theorem wideLowWordRead_runs {off : Nat} (h : off < 2 ^ 27) (p : Path) (s : State) :
    exec (.wideLowWordRead p off) s = .next { s with dev := s.dev.hostRead p off } := by
  rw [exec_wideLowWordRead, execWideLowWordRead, within_pos ((below_iff _ _).mpr h)]

theorem hostAccessErrorRead_runs {off : Nat} (h : off < 2 ^ 27) (p : Path) (s : State) :
    exec (.hostAccessErrorRead p off) s = .next { s with dev := s.dev.hostRead p off } := by
  rw [exec_hostAccessErrorRead, execHostAccessErrorRead, within_pos ((below_iff _ _).mpr h)]

theorem registerWrite_runs {off : Nat} (h : off < 2 ^ 27) (p : Path) (v hw : Word) (s : State) :
    exec (.registerWrite p off v hw) s = .next { s with dev := s.dev.registerWrite p off v hw } := by
  rw [exec_registerWrite, execRegisterWrite, within_pos ((below_iff _ _).mpr h)]

/-! ## Reads -/

theorem is_comm (r q : RegSpec) : r.is q = q.is r := by
  simp only [RegSpec.is, Bool.beq_comm]

/-- A register for which a table by registers holds no row is none of those with one. -/
theorem is_false_of_no_row {α : Type} {rows : List (RegSpec × α)} {r q : RegSpec} (hr : rows.find? (fun x => x.1.is r) = none)
    (hq : q ∈ rows.map Prod.fst) : r.is q = false := by
  obtain ⟨x, hx, rfl⟩ := List.mem_map.mp hq
  have hxr := List.find?_eq_none.mp hr x hx
  rw [is_comm]
  simpa using hxr

/-- A 64-bit register is neither of the two arrays of words whose read of word 0 latches. -/
theorem wide_not_latching {r : RegSpec} (hr : r ∈ R.all) (hw : r.wide = true) : (r.is R.SEC_MREG || r.is R.TRC_RD_DATA) = false := by
  have hall : R.all.all (fun r => !(r.wide && (r.is R.SEC_MREG || r.is R.TRC_RD_DATA))) = true := by decide +kernel
  simpa [hw] using List.all_eq_true.mp hall r hr

section
variable {d : Dev} {p : Path} {h : Hit} {f : RField}

theorem mem_of_find_rc {r : RegSpec} (hf : r.fields.find? (fun f => f.acc == .rc) = some f) : f ∈ r.fields ∧ f.acc = .rc :=
  ⟨List.mem_of_find?_eq_some hf, by simpa using List.find?_some hf⟩

/-- A read of a register that no reader of its own answers shows its word. -/
theorem regRead_plain (hm : (h.r.is R.SEC_MREG || h.r.is R.TRC_RD_DATA) = false) (hr : readers.find? (fun r => r.1.is h.r) = none) (inc : Nat) :
    d.regRead p h inc = (d.tally h).plainRead p h inc := by
  obtain ⟨hsec, htrc⟩ := Bool.or_eq_false_iff.mp hm
  simp [Dev.regRead, hsec, htrc, hr]

theorem plainRead_low (hl : h.high = false) (inc : Nat) : d.plainRead p h inc =
    (if h.r.wide then (d.clearedBy h 63 0 inc).setLatch p { (d.clearedBy h 63 0 inc).latch p with rl := some (h.r.addr h.ix, d.view p h.r h.ix / 2 ^ 32) }
      else d.clearedBy h 63 0 inc).ret p (d.view p h.r h.ix % 2 ^ 32) := by
  simp [Dev.plainRead, hl]

theorem clearedBy_rc (hf : h.r.fields.find? (fun f => f.acc == .rc) = some f) (inc : Nat) :
    d.clearedBy h 63 0 inc = (d.setW h.r h.ix (rcCleared h.r (d.getW h.r h.ix) 63 0)).withInc h.r h.ix inc := by
  obtain ⟨hmem, hacc⟩ := mem_of_find_rc hf
  rw [Dev.clearedBy, if_pos (any_acc hmem hacc)]

/-- R684: the counter of an RC register that neither saturates nor stands for the count of a slot takes the increment as any counter does. -/
theorem withInc_bump {r : RegSpec} (hf : r.fields.find? (fun f => f.acc == .rc) = some f) (hpat : r.is R.PRS_PAT_HITS = false)
    (hsds : r.is R.SDS_PRBS_ERR = false) (x : Dev) (ix : List Nat) (inc : Nat) : x.withInc r ix inc = x.bump r ix f.name inc := by
  simp [Dev.withInc, hpat, hsds, hf]

end

/-- R626: a read that nothing holds back, of no register or of a stopped block, returns 0 and is reported. -/
theorem hostRead_refused {d : Dev} {p : Path} {off t : Nat} (hr : d.reaches p = true) (hb : d.behind p off = false) (he : d.accErr off = some t) (inc : Nat) :
    d.hostRead p off inc = (d.ret p 0).hostAcc p t off 0 false := by
  simp only [Dev.hostRead, hr, hb, Dev.doRead, he, Bool.not_true, Bool.false_eq_true, if_false]

/-- Settles O29: a read that reaches a register goes to its `plainRead`, or is refused. -/
theorem registerReadsComplete : Obligations.RegisterReadsComplete := by
  intro s p off inc t h f bound aper cap
  refine ⟨fun find shows addr low narrow hm hr hf => ?_, fun find shows addr low wide hr hno => ?_, fun hr hb he => ?_⟩
  · have a : Reached s.dev p off h := ⟨bound, aper, find, addr, low, shows⟩
    have hpat : h.r.is R.PRS_PAT_HITS = false := is_false_of_no_row hr (by simp [readers])
    refine ⟨?_, fun hsds x => withInc_bump hf hpat hsds x h.ix inc⟩
    rw [clearingRead_runs bound, a.hostRead cap, regRead_plain hm hr, plainRead_low low, clearedBy_rc hf]
    simp [narrow]
  · have a : Reached s.dev p off h := ⟨bound, aper, find, addr, low, shows⟩
    have hclear : ∀ d : Dev, d.clearedBy h 63 0 0 = d := fun d => by simp [Dev.clearedBy, hno]
    rw [wideLowWordRead_runs bound, a.hostRead cap, regRead_plain (wide_not_latching a.mem wide) hr, plainRead_low low, hclear, ← addr]
    simp [wide]
  · rw [hostAccessErrorRead_runs bound, hostRead_refused hr hb he]

end Sys2Proof.Machine
end

section
/-! SUPPORT. What a host write does at any register that its offset finds: the bits that the part sets with it, and the fields that are locked. -/

namespace Sys2Proof.Machine

/-! ## Writes -/

/-- R14: a value with the W1C bits set that the part sets with the write. -/
def RegSpec.setByPart (r : RegSpec) (hw x : Nat) : Nat :=
  (r.fields.filter (fun f => f.acc == .w1c)).foldl (fun w f => setBits w f.hi f.lo (Nat.lor (bitsOf w f.hi f.lo) (bitsOf hw f.hi f.lo))) x

/-- A part that sets no bit leaves the value. -/
theorem setByPart_zero (r : RegSpec) (x : Nat) : r.setByPart 0 x = x := by
  have hstep : ∀ (w : Nat) (f : RField), setBits w f.hi f.lo (Nat.lor (bitsOf w f.hi f.lo) (bitsOf 0 f.hi f.lo)) = w := by
    intro w f
    have h0 : bitsOf 0 f.hi f.lo = 0 := by simp [bitsOf]
    simp [h0]
  simp only [RegSpec.setByPart, hstep, List.foldl_fixed]

/-- A W1C field ends with the bits it had and those that the part sets. -/
theorem bitsOf_setByPart {r : RegSpec} (hr : r ∈ R.all) {f : RField} (hf : f ∈ r.fields) (hc : f.acc = .w1c) (hw x : Nat) :
    bitsOf (r.setByPart hw x) f.hi f.lo = Nat.lor (bitsOf x f.hi f.lo) (bitsOf hw f.hi f.lo) % 2 ^ (f.hi + 1 - f.lo) :=
  bitsOf_foldl_filter hr (fieldStep_setBits _) hf (by simp [hc]) (F := fun b => Nat.lor b (bitsOf hw f.hi f.lo) % 2 ^ (f.hi + 1 - f.lo))
    (fun _ => bitsOf_setBits_same _ _ _ _) x

theorem hasBit_eq_testBit (x i : Nat) : hasBit x i = x.testBit i := by
  rw [hasBit, Nat.testBit_eq_decide_div_mod_eq]
  rfl

/-- A bit of a value within a field is a bit of the field. -/
theorem hasBit_of_field {f : RField} {i : Nat} (hl : f.lo ≤ i) (hh : i ≤ f.hi) (x : Nat) : hasBit x i = (bitsOf x f.hi f.lo).testBit (i - f.lo) := by
  rw [hasBit_eq_testBit, testBit_bitsOf, Nat.sub_add_cancel hl]
  simp [show i - f.lo < f.hi + 1 - f.lo by omega]

/-- R14: a W1C bit that the part sets stands in the value. -/
theorem hasBit_setByPart {r : RegSpec} (hr : r ∈ R.all) {f : RField} (hf : f ∈ r.fields) (hc : f.acc = .w1c) {i : Nat} (hl : f.lo ≤ i) (hh : i ≤ f.hi)
    {hw : Nat} (hb : hasBit hw i = true) (x : Nat) : hasBit (r.setByPart hw x) i = true := by
  rw [hasBit_of_field hl hh] at hb ⊢
  rw [bitsOf_setByPart hr hf hc, Nat.testBit_mod_two_pow]
  simp [hb, show i - f.lo < f.hi + 1 - f.lo by omega]

section
variable {d : Dev} {p : Path} {off : Nat} {h : Hit}

/-- R14: a register write is the host write, and after it the W1C bits that the part sets, unless the write has put the part in COLD. -/
theorem registerWrite_eq (hf : findReg off = some h) (hl : h.high = false) (v hw : Word) : d.registerWrite p off v hw =
    if (d.hostWrite p off v).glb.mode = .cold then d.hostWrite p off v
    else (d.hostWrite p off v).setW h.r h.ix (h.r.setByPart hw.toNat ((d.hostWrite p off v).getW h.r h.ix)) := by
  simp [Dev.registerWrite, hf, hl, RegSpec.setByPart]

/-- R16, R707: a write to a register of one word that neither its own checks nor the galley's nor its credentials refuse takes effect with its locked
fields as they stand, and is reported when it names another value for one. -/
theorem regWrite_narrow (hw : h.r.wide = false) (hc : d.credLocked h.r = false) {v : Nat} (hr : d.writeRefused h (d.lockedValue h.r h.ix v) = 0)
    (hg : (p == .galley && h.r.noWr) = false) : d.regWrite p off v h =
      (if d.lockedValue h.r h.ix v = v then d else d.hostAcc p 1 off v true).performWrite p h (d.lockedValue h.r h.ix v) := by
  have hdrop : d.dropStaged p h = d := by
    simp only [Dev.dropStaged, hw, Bool.false_and, Bool.false_eq_true, if_false]
    split <;> rfl
  have hwhole : d.wholeValue p h v = v := by simp [Dev.wholeValue, hw]
  unfold Dev.regWrite
  simp only [hdrop, hwhole, hc, hr, hg, Dev.landWrite, hw, Bool.false_and, Bool.or_false, bne_self_eq_false, Bool.false_eq_true, if_false, bne_iff_ne, ne_eq,
    ite_not]

/-- A write that has no effect but on fields sets them. -/
theorem performWrite_fields (hw : writers.find? (fun w => w.1.is h.r) = none) (ha : h.r.acts = false) (v : Nat) :
    d.performWrite p h v = d.fieldsWrite h.r h.ix v := by
  simp only [RegSpec.acts, Bool.or_eq_false_iff] at ha
  obtain ⟨⟨⟨⟨hb, hs⟩, hp⟩, hsp⟩, hpl⟩ := ha
  simp [Dev.performWrite, hw, hb, hs, hp, hsp, hpl]

/-- A write that a register takes performs the register's effect. -/
theorem Reached.hostWrite_takes (a : Reached d p off h) (hw : h.r.wide = false) {v : Word} (ht : d.takes p h.r h.ix v.toNat = true) :
    d.hostWrite p off v = d.performWrite p h v.toNat := by
  simp only [Dev.takes, Bool.and_eq_true, Bool.not_eq_true', beq_iff_eq, ← a.hit_eq] at ht
  obtain ⟨⟨⟨⟨⟨-, held⟩, lock⟩, cred⟩, refused⟩, galley⟩ := ht
  rw [a.hostWrite held, regWrite_narrow hw cred (by rw [lock]; exact refused) galley, lock, if_pos rfl]

end

theorem takes_shows {d : Dev} {p : Path} {r : RegSpec} {ix : List Nat} {v : Nat} (ht : d.takes p r ix v = true) : d.shows p r ix = true := by
  simp only [Dev.takes, Bool.and_eq_true] at ht
  obtain ⟨⟨⟨⟨⟨hshows, -⟩, -⟩, -⟩, -⟩, -⟩ := ht
  exact hshows

/-- R391: a write of PMC_EVSEL changes registers alone. -/
theorem evselWrite_glb (d : Dev) (k n v : Nat) : (d.evselWrite k n v).glb = d.glb := by
  unfold Dev.evselWrite
  simp only
  split <;> split <;> simp only [Dev.put_glb]

/-- A register with W1C bits has one word, and a write of it acts on its fields alone, but for PMC_EVSEL. -/
theorem w1c_registers {r : RegSpec} (hr : r ∈ R.all) {f : RField} (hf : f ∈ r.fields) (hc : f.acc = .w1c) :
    r.wide = false ∧ (r = R.PMC_EVSEL ∨ writers.find? (fun w => w.1.is r) = none ∧ r.acts = false) := by
  have hall : R.all.all (fun r => !r.fields.any (fun f => f.acc == .w1c)
      || !r.wide && (r == R.PMC_EVSEL || (writers.find? (fun w => w.1.is r)).isNone && !r.acts)) = true := by decide +kernel
  have h := List.all_eq_true.mp hall r hr
  simpa only [any_acc hf hc, Bool.not_true, Bool.false_or, Bool.and_eq_true, Bool.or_eq_true, Bool.not_eq_true', beq_iff_eq, Option.isNone_iff_eq_none] using h

/-- A write of a register with W1C bits leaves the mode of the part. -/
theorem performWrite_w1c_glb {h : Hit} (hr : h.r ∈ R.all) {f : RField} (hf : f ∈ h.r.fields) (hc : f.acc = .w1c) (d : Dev) (p : Path) (v : Nat) :
    (d.performWrite p h v).glb = d.glb := by
  rcases (w1c_registers hr hf hc).2 with heq | ⟨hw, ha⟩
  · have hown : writers.find? (fun w => w.1.is h.r) = some (R.PMC_EVSEL, fun d _ ix v => d.evselWrite (clOfIx ix) (ix.getD 3 0) v) := by
      rw [heq]; rfl
    simp only [Dev.performWrite, hown, evselWrite_glb]
  · rw [performWrite_fields hw ha, Dev.fieldsWrite, Dev.setW_glb]

/-- Settles O37: the write leaves the mode, and the part's bits are set after it. -/
theorem aW1cBitSetByThePartStaysSet : Obligations.AW1cBitSetByThePartStaysSet := by
  intro s p off i v hw h f bound aper find addr low takes hf hc hlo hhi hbit
  have a : Reached s.dev p off h := ⟨bound, aper, find, addr, low, takes_shows takes⟩
  have hmode : (s.dev.hostWrite p off v).glb.mode ≠ .cold := by
    rw [a.hostWrite_takes (w1c_registers a.mem hf hc).1 takes, performWrite_w1c_glb a.mem hf hc]
    have hreach := a.reaches
    simp only [Dev.reaches, Bool.and_eq_true, bne_iff_ne] at hreach
    exact hreach.1
  refine ⟨_, registerWrite_runs bound p v hw s, ?_⟩
  simp only [registerWrite_eq find low, if_neg hmode]
  rw [hasBit_of_field hlo hhi, bitsOf_getW_setW a.mem hf, ← hasBit_of_field hlo hhi]
  exact hasBit_setByPart a.mem hf hc hlo hhi hbit _

/-! ## Locked fields -/

/-- R16: while RWL fields are locked, the value that acts has each of them as it stands. -/
theorem bitsOf_lockedValue {d : Dev} {r : RegSpec} (hr : r ∈ R.all) {f : RField} (hf : f ∈ r.fields) (hl : d.locks = true) (ix : List Nat) (v : Nat) :
    bitsOf (d.lockedValue r ix v) f.hi f.lo = if f.acc = .rwl then bitsOf (d.getW r ix) f.hi f.lo else bitsOf v f.hi f.lo := by
  simp only [Dev.lockedValue, hl, Bool.not_true, Bool.false_eq_true, if_false]
  split
  · rename_i hc
    exact bitsOf_foldl_filter hr (fieldStep_setBits _) hf (by simp [hc]) (F := fun _ => bitsOf (d.getW r ix) f.hi f.lo)
      (fun w => by rw [bitsOf_setBits_same, Nat.mod_eq_of_lt (bitsOf_lt _ _ _)]) v
  · rename_i hc
    exact bitsOf_foldl_filter_not hr (fieldStep_setBits _) hf (by simp [hc]) v

theorem fieldStep_fieldWrite (cur v : Nat) : FieldStep (fieldWrite cur v) := by
  intro w f g hl ha
  unfold fieldWrite
  cases f.acc
  case rw | rwl | w1c | w1s => exact bitsOf_setBits_ne w _ hl ha
  case ro | wo | rc => rfl

/-- R13: a write sets an RWL field that nothing locks to the bits that the word names. -/
theorem bitsOf_fieldsWrite_rwl {r : RegSpec} (hr : r ∈ R.all) {f : RField} (hf : f ∈ r.fields) (hc : f.acc = .rwl) (d : Dev) (ix : List Nat) (v : Nat) :
    bitsOf ((d.fieldsWrite r ix v).getW r ix) f.hi f.lo = bitsOf v f.hi f.lo := by
  rw [Dev.fieldsWrite, bitsOf_getW_setW hr hf]
  refine bitsOf_foldl_mem (fieldStep_fieldWrite _ v) (fun x hx => (field_bounds hr hx).1) (fields_apart hr) hf (F := fun _ => bitsOf v f.hi f.lo)
    (fun w => ?_) _
  simp only [fieldWrite, hc, bitsOf_setBits_same]
  exact Nat.mod_eq_of_lt (bitsOf_lt _ _ _)

/-- A register write with which the part sets no W1C bit differs from the host write in no value of the register. -/
theorem registerWrite_zero {off : Nat} {h : Hit} (hf : findReg off = some h) (hl : h.high = false) (d : Dev) (p : Path) (v : Word) :
    (d.registerWrite p off v 0#32).getW h.r h.ix = (d.hostWrite p off v).getW h.r h.ix ∧
      ∃ m, d.registerWrite p off v 0#32 = { d.hostWrite p off v with regs := m } := by
  rw [registerWrite_eq hf hl, show (0#32 : Word).toNat = 0 from rfl, setByPart_zero]
  split
  · exact ⟨rfl, _, rfl⟩
  · exact ⟨by rw [Dev.getW_setW_same, Nat.mod_eq_of_lt (Dev.getW_lt _ _ _)], _, rfl⟩

/-- Settles O39: the write sets the fields of the value that `lockedValue` leaves. -/
theorem lockedFieldsStandAgainstAWrite : Obligations.LockedFieldsStandAgainstAWrite := by
  intro s off v h bound aper find addr low narrow shows held cred locks hw ha w told accepted
  have a : Reached s.dev .pcie off h := ⟨bound, aper, find, addr, low, shows⟩
  have hfield : ∀ f ∈ h.r.fields, bitsOf w f.hi f.lo = if f.acc = .rwl then bitsOf (s.dev.getW h.r h.ix) f.hi f.lo else bitsOf v.toNat f.hi f.lo :=
    fun f hf => bitsOf_lockedValue a.mem hf locks h.ix v.toNat
  have hwrite : s.dev.hostWrite .pcie off v = told.fieldsWrite h.r h.ix w := by
    rw [a.hostWrite held, regWrite_narrow narrow cred accepted rfl, performWrite_fields hw ha]
  obtain ⟨hget, m, hregs⟩ := registerWrite_zero find low s.dev .pcie v
  rw [hwrite] at hget hregs
  refine ⟨hfield, _, registerWrite_runs bound .pcie v 0#32 s, hget, ?_, fun f hf hc => ?_⟩
  · simp only [hregs]
    rfl
  · rw [hget, bitsOf_fieldsWrite_rwl a.mem hf hc, hfield f hf, if_pos hc]

end Sys2Proof.Machine
end

section
/-! SUPPORT. Counters that a read clears. -/

namespace Sys2Proof.Machine

@[simp] theorem Dev.getW_ret (d : Dev) (p : Path) (v : Nat) (r : RegSpec) (ix : List Nat) : (d.ret p v).getW r ix = d.getW r ix := by
  simp only [Dev.getW, Dev.ret_regs]

@[simp] theorem Dev.getW_setLatch (d : Dev) (p : Path) (l : Latch) (r : RegSpec) (ix : List Nat) : (d.setLatch p l).getW r ix = d.getW r ix := by
  simp only [Dev.getW, Dev.setLatch_regs]

@[simp] theorem Dev.latch_ret_rl (d : Dev) (p : Path) (v : Nat) : ((d.ret p v).latch p).rl = (d.latch p).rl := by
  simp only [Dev.ret, Dev.latch_setLatch]

/-- A saturating counter after it is raised. -/
theorem Dev.get_bumpSat_same (d : Dev) {r : RegSpec} (ix : List Nat) {f : String} {g : RField} (n : Nat) (hf : r.field f = some g)
    (hl : g.lo ≤ g.hi) (hh : g.hi < r.bits) : (d.bumpSat r ix f n).get r ix f = min (d.get r ix f + n) (2 ^ (g.hi + 1 - g.lo) - 1) := by
  have hpos : 0 < 2 ^ (g.hi + 1 - g.lo) := Nat.two_pow_pos _
  simp only [Dev.bumpSat, hf]
  rw [d.get_put_same ix _ hf hl hh, Nat.mod_eq_of_lt (by omega)]

/-- Clearing the part of a field that a read of bits 63 to 0 shows changes no other field. -/
theorem fieldStep_clear :
    FieldStep (fun w f => if (decide (f.hi < 0) || decide (63 < f.lo)) = true then w else setBits w (min 63 f.hi) (max 0 f.lo) 0) := by
  intro w f g hl ha
  unfold RField.apart at ha
  dsimp only
  split
  · rfl
  · rename_i hin
    simp only [Bool.or_eq_true, decide_eq_true_eq, not_or] at hin
    exact bitsOf_setBits_ne w 0 (by omega) (by omega)

section
variable {r : RegSpec} {f : RField}

/-- R13: a read of a whole register leaves 0 in its RC fields. -/
theorem get_rcCleared (hr : r ∈ R.all) (hf : f ∈ r.fields) (hc : f.acc = .rc) (d : Dev) (ix : List Nat) (cur : Nat) :
    (d.setW r ix (rcCleared r cur 63 0)).get r ix f.name = 0 := by
  have hbits : f.hi < 64 := by
    have hlt := (field_bounds hr hf).2
    unfold RegSpec.bits at hlt
    split at hlt <;> omega
  have hlo := (field_bounds hr hf).1
  rw [get_name hr hf, bitsOf_getW_setW hr hf]
  refine bitsOf_foldl_filter hr fieldStep_clear hf (by simp [hc]) (F := fun _ => 0) (fun w => ?_) cur
  simp [show ¬ 63 < f.lo by omega, show min 63 f.hi = f.hi by omega]

/-- R684: the first RC field of a counter that reads 0, after an increment. -/
theorem get_withInc (hr : r ∈ R.all) (hf : r.fields.find? (fun f => f.acc == .rc) = some f) (hpat : r.is R.PRS_PAT_HITS = false) {x : Dev} {ix : List Nat}
    (h0 : x.get r ix f.name = 0) (inc : Nat) :
    (x.withInc r ix inc).get r ix f.name = if r.is R.SDS_PRBS_ERR then min inc (2 ^ 32 - 1) else inc % 2 ^ (f.hi + 1 - f.lo) := by
  obtain ⟨hmem, -⟩ := mem_of_find_rc hf
  obtain ⟨hl, hh⟩ := field_bounds hr hmem
  cases hsds : r.is R.SDS_PRBS_ERR with
  | false => rw [withInc_bump hf hpat hsds, Dev.get_bump_same x ix inc (field_name hr hmem) hl hh, h0, Nat.zero_add]; rfl
  | true =>
    have hsat : R.SDS_PRBS_ERR ∈ R.all := by decide +kernel
    obtain rfl := eq_of_is hr hsat hsds
    obtain rfl : fl "COUNT" 31 0 .rc = f := Option.some.inj hf
    have hinc : x.withInc R.SDS_PRBS_ERR ix inc = x.bumpSat R.SDS_PRBS_ERR ix (fl "COUNT" 31 0 .rc).name inc := rfl
    rw [hinc, Dev.get_bumpSat_same x ix inc (field_name hr hmem) hl hh, h0, Nat.zero_add]
    rfl

end

/-- A register with RC fields is read by no reader of its own and shows its word, but for four: two that pop a queue, a count that an index selects, and
a peak. -/
theorem rc_registers {r : RegSpec} (hr : r ∈ R.all) {f : RField} (hf : f ∈ r.fields) (hc : f.acc = .rc)
    (hpop : (r.is R.FLW_QN_TORN_LOG || r.is R.TIM_TSQ_W0) = false) :
    r = R.PRS_PAT_HITS ∨ (r.is R.SEC_MREG || r.is R.TRC_RD_DATA) = false ∧ readers.find? (fun x => x.1.is r) = none
      ∧ (r = R.SCH_QPEAK ∨ views.find? (fun x => x.1.is r) = none) := by
  have hall : R.all.all (fun r => !r.fields.any (fun f => f.acc == .rc) || (r.is R.FLW_QN_TORN_LOG || r.is R.TIM_TSQ_W0) || (r == R.PRS_PAT_HITS
      || !(r.is R.SEC_MREG || r.is R.TRC_RD_DATA) && ((readers.find? (fun x => x.1.is r)).isNone
        && (r == R.SCH_QPEAK || (views.find? (fun x => x.1.is r)).isNone)))) = true := by decide +kernel
  have h := List.all_eq_true.mp hall r hr
  simpa only [any_acc hf hc, hpop, Bool.not_true, Bool.false_or, Bool.and_eq_true, Bool.or_eq_true, Bool.not_eq_true', beq_iff_eq, Option.isNone_iff_eq_none] using h

/-- A register that no view computes when it is read shows its word. -/
theorem view_eq_getW {r : RegSpec} (hv : views.find? (fun x => x.1.is r) = none) (d : Dev) (p : Path) (ix : List Nat) : d.view p r ix = d.getW r ix := by
  simp only [Dev.view, hv]

/-- R491: a read of SCH_QPEAK shows the peak, and the depth of its queue when that is higher. -/
theorem view_qPeak (d : Dev) (p : Path) (ix : List Nat) : d.view p R.SCH_QPEAK ix = max (d.get R.SCH_QPEAK ix "CELLS") (d.get R.SCH_QDEPTH ix "CELLS") := rfl

/-- R267, R15: a clearing read of PRS_PAT_HITS leaves the increment as the count of the slot. -/
theorem hitsOf_hitsRead (d : Dev) (p : Path) (ix : List Nat) (inc : Nat) : (d.hitsRead p ix inc).hitsOf ix = inc % 2 ^ 32 := by
  have hidx : (d.hitsRead p ix inc).get R.PRS_PAT_IDX ix "INDEX" = d.get R.PRS_PAT_IDX ix "INDEX" := by
    simp only [Dev.hitsRead, Dev.get, Dev.getW_ret]
    rfl
  rw [Dev.hitsOf, hidx]
  simp only [Dev.hitsRead, Dev.ret_mat, Dev.setHits, SMap.get_set_same, Nat.mod_mod]

theorem latch_hitsRead (d : Dev) (p : Path) (ix : List Nat) (inc : Nat) : ((d.hitsRead p ix inc).latch p).last = d.hitsOf ix := by
  simp only [Dev.hitsRead, Dev.latch_ret]

/-- R491: the peak of a queue and its depth share no word. -/
theorem qPeak_apart_qDepth {ix : List Nat} (hi : ixOk R.SCH_QPEAK.dims ix = true) : R.SCH_QPEAK.apart ix R.SCH_QDEPTH ix :=
  apart_of_clear (by decide +kernel) hi hi

section
variable {d : Dev} {p : Path} {h : Hit} {f : RField}

/-- What a plain read of a low word answers and latches. -/
theorem plainRead_latch (hl : h.high = false) (inc : Nat) : ((d.plainRead p h inc).latch p).last = d.view p h.r h.ix % 2 ^ 32 ∧
    (h.r.wide = true → ((d.plainRead p h inc).latch p).rl = some (h.r.addr h.ix, d.view p h.r h.ix / 2 ^ 32)) := by
  rw [plainRead_low hl]
  refine ⟨Dev.latch_ret _ _ _, fun hw => ?_⟩
  rw [if_pos hw, Dev.latch_ret_rl, Dev.latch_setLatch]

/-- A plain read of a low word leaves every register as the clearing does. -/
theorem getW_plainRead (hl : h.high = false) (inc : Nat) (q : RegSpec) (jx : List Nat) :
    (d.plainRead p h inc).getW q jx = (d.clearedBy h 63 0 inc).getW q jx := by
  rw [plainRead_low hl]
  split <;> simp only [Dev.getW_ret, Dev.getW_setLatch]

/-- R15: after a plain read of an RC counter it holds the increment of the same cycle. -/
theorem get_plainRead (hr : h.r ∈ R.all) (hl : h.high = false) (hf : h.r.fields.find? (fun f => f.acc == .rc) = some f)
    (hpat : h.r.is R.PRS_PAT_HITS = false) (inc : Nat) : (d.plainRead p h inc).get h.r h.ix f.name =
      if h.r.is R.SDS_PRBS_ERR then min inc (2 ^ 32 - 1) else inc % 2 ^ (f.hi + 1 - f.lo) := by
  obtain ⟨hmem, hc⟩ := mem_of_find_rc hf
  rw [← get_withInc hr hf hpat (get_rcCleared hr hmem hc d h.ix (d.getW h.r h.ix)), ← clearedBy_rc hf, get_name hr hmem, get_name hr hmem,
    getW_plainRead hl]

/-- R491: a read of a queue's peak leaves its depth. -/
theorem get_qDepth_plainRead {ix : List Nat} (hi : ixOk R.SCH_QPEAK.dims ix = true) (inc : Nat) :
    (d.plainRead p ⟨R.SCH_QPEAK, ix, false⟩ inc).get R.SCH_QDEPTH ix "CELLS" = d.get R.SCH_QDEPTH ix "CELLS" := by
  have hrc : R.SCH_QPEAK.fields.find? (fun f => f.acc == .rc) = some (fl "CELLS" 18 0 .rc) := rfl
  have hap := qPeak_apart_qDepth hi
  have hclear := clearedBy_rc (d := d) (h := ⟨R.SCH_QPEAK, ix, false⟩) hrc inc
  have hinc := fun x => withInc_bump hrc rfl rfl x ix inc
  simp only [Dev.get, getW_plainRead, hclear, hinc, Dev.bump, Dev.getW_put_ne _ _ _ hap, Dev.getW_setW_ne _ _ hap]

/-- R15, R491: after a read of a queue's peak it shows the increment of the same cycle, and the depth when that is higher. -/
theorem view_qPeak_plainRead {ix : List Nat} (hi : ixOk R.SCH_QPEAK.dims ix = true) (inc : Nat) :
    (d.plainRead p ⟨R.SCH_QPEAK, ix, false⟩ inc).view p R.SCH_QPEAK ix = max (inc % 2 ^ 19) (d.get R.SCH_QDEPTH ix "CELLS") := by
  have hin : R.SCH_QPEAK ∈ R.all := by decide +kernel
  have hcells : (d.plainRead p ⟨R.SCH_QPEAK, ix, false⟩ inc).get R.SCH_QPEAK ix "CELLS" = inc % 2 ^ 19 :=
    get_plainRead (h := ⟨R.SCH_QPEAK, ix, false⟩) (f := fl "CELLS" 18 0 .rc) hin rfl rfl rfl inc
  rw [view_qPeak, hcells, get_qDepth_plainRead hi]

end

/-- The depth of a queue lies within its field. -/
theorem qDepth_lt (d : Dev) (ix : List Nat) : d.get R.SCH_QDEPTH ix "CELLS" < 2 ^ 19 := bitsOf_lt _ 18 0

/-- Settles O38: the read clears the counter, and what falls in its cycle is counted after that. -/
theorem aClearingReadKeepsTheSameCycleIncrement : Obligations.AClearingReadKeepsTheSameCycleIncrement := by
  intro s p off inc h f bound aper cap find shows addr low hpop hf shown
  have a : Reached s.dev p off h := ⟨bound, aper, find, addr, low, shows⟩
  obtain ⟨hmem, hc⟩ := mem_of_find_rc hf
  refine ⟨_, clearingRead_runs bound p inc s, ?_⟩
  simp only [a.hostRead cap]
  rcases rc_registers a.mem hmem hc hpop with hpat | ⟨hm, hreader, hview⟩
  · obtain ⟨r, ix, high⟩ := h
    obtain rfl : r = R.PRS_PAT_HITS := hpat
    obtain rfl : fl "COUNT" 31 0 .rc = f := Option.some.inj hf
    have hread : s.dev.regRead p ⟨R.PRS_PAT_HITS, ix, high⟩ inc = s.dev.hitsRead p ix inc := rfl
    have hshown : ∀ d : Dev, d.view p R.PRS_PAT_HITS ix = d.hitsOf ix := fun _ => rfl
    have hlt : s.dev.hitsOf ix < 2 ^ 32 := Nat.mod_lt _ (by decide)
    refine ⟨?_, fun hw => absurd hw Bool.false_ne_true, ?_⟩
    · rw [hread, latch_hitsRead]
      exact (Nat.mod_eq_of_lt hlt).symm
    · rw [hread, hshown, hitsOf_hitsRead]
      exact Nat.mod_mod _ _
  · have hpat : h.r.is R.PRS_PAT_HITS = false := is_false_of_no_row hreader (by simp [readers])
    rw [regRead_plain hm hreader]
    obtain ⟨hlast, hrl⟩ := plainRead_latch (d := s.dev.tally h) (p := p) low inc
    refine ⟨hlast, fun hw => addr ▸ hrl hw, ?_⟩
    rcases hview with hq | hv
    · obtain ⟨r, ix, high⟩ := h
      obtain rfl : r = R.SCH_QPEAK := hq
      obtain rfl : high = false := low
      obtain rfl : fl "CELLS" 18 0 .rc = f := Option.some.inj hf
      have htally : s.dev.tally ⟨R.SCH_QPEAK, ix, false⟩ = s.dev := rfl
      rw [htally, view_qPeak_plainRead (findReg_mem find).2]
      exact Nat.mod_eq_of_lt (Nat.max_lt.mpr ⟨Nat.mod_lt _ (by decide), qDepth_lt s.dev ix⟩)
    · have hpeak : h.r.is R.SCH_QPEAK = false := is_false_of_no_row hv (by simp [views, viewsFlw])
      rw [view_eq_getW hv, ← get_name a.mem hmem, get_plainRead a.mem low hf hpat, hpeak]
      rfl

end Sys2Proof.Machine
end

section
/-! SUPPORT. The commands and events of the engines (chapter 10): what each does where it describes an event of the part. -/

namespace Sys2Proof.Machine

/-! ## The indices of the engines' registers -/

theorem engOfIx_engIx (e : Nat) : engOfIx (engIx e) = e := by
  simp only [engOfIx, engIx, clIx, List.cons_append, List.nil_append, List.getD_cons_zero, List.getD_cons_succ]
  omega

theorem clOfIx_clIx_append (k : Nat) (l : List Nat) : clOfIx (clIx k ++ l) = k := by
  simp only [clOfIx, clIx, List.cons_append, List.nil_append, List.getD_cons_zero, List.getD_cons_succ]
  omega

theorem ixOk_engIx {e : Nat} (h : e < 96) : ixOk R.KSN_ENG_RESET.dims (engIx e) = true := by
  simp only [R.KSN_ENG_RESET, engIx, clIx, List.cons_append, List.nil_append, ixOk, Bool.and_eq_true, Bool.and_true, decide_eq_true_eq]
  omega

theorem ixOk_evsel {k n : Nat} (hk : k < 12) (hn : n < 8) : ixOk R.PMC_EVSEL.dims (clIx k ++ [n]) = true := by
  simp only [R.PMC_EVSEL, clIx, List.cons_append, List.nil_append, ixOk, Bool.and_eq_true, Bool.and_true, decide_eq_true_eq]
  omega

/-! ## Results of memory operations (R342, R392) -/

/-- R390: counting an event changes registers alone. -/
theorem Dev.pmc_eq (d : Dev) (e ev n : Nat) : ∃ m, d.pmc e ev n = { d with regs := m } := by
  have hput : ∀ (x : Dev) (r : RegSpec) (ix : List Nat) (f : String) (v : Nat), (∃ m, x = { d with regs := m }) → ∃ m, x.put r ix f v = { d with regs := m } := by
    rintro _ r ix f v ⟨m, rfl⟩
    exact Dev.put_eq _ r ix f v
  unfold Dev.pmc
  refine List.foldlRecOn (motive := fun x : Dev => ∃ m, x = { d with regs := m }) (List.range 8) _ ⟨d.regs, rfl⟩ fun x hx c _ => ?_
  dsimp only
  split
  · split
    · exact hput _ _ _ _ _ (hput _ _ _ _ _ hx)
    · exact hput _ _ _ _ _ hx
  · exact hx

@[simp] theorem Dev.pmc_eng (d : Dev) (e ev n : Nat) : (d.pmc e ev n).eng = d.eng := by
  obtain ⟨m, h⟩ := d.pmc_eq e ev n
  rw [h]

@[simp] theorem Dev.engOf_ldhTime (d : Dev) (e j : Nat) : (d.ldhTime e).engOf j = d.engOf j := by
  unfold Dev.ldhTime
  split
  · simp only [Dev.engOf, Dev.pmc_eng, Dev.fresh_eng]
  · rfl

/-- R342: values that reach their registers leave the turn that the engine has given away. -/
theorem Eng.deliver_turn (g : Eng) (tok r v : Nat) : (g.deliver tok r v).turn = g.turn := by
  unfold Eng.deliver Eng.wr
  simp only
  repeat' split
  all_goals rfl

theorem Eng.land_turn (g : Eng) (i : Infl) (vs : List Nat) : (g.land i vs).turn = g.turn := by
  unfold Eng.land
  exact List.foldlRecOn (motive := fun x : Eng => x.turn = g.turn) _ _ rfl fun x hx _ _ => (x.deliver_turn _ _ _).trans hx

/-- R342: the oldest operation that is done returns to an engine that has given no turn away. -/
theorem memBack_of_find {d : Dev} {e : Nat} {i : Infl} (hf : (d.engOf e).infl.find? (fun i => i.vals.isSome) = some i) (ht : (d.engOf e).turn = none) :
    d.memBack e = (d.ldhTime e).updEng e (fun g => g.land i (i.vals.getD [])) := by
  simp only [Dev.memBack, Dev.memReturn, Dev.engOf_ldhTime, hf, Dev.engOf_updEng, Eng.land_turn, ht]

/-! ## Host writes of the engines' registers -/

section
variable {d : Dev} {p : Path} {e : Nat}

/-- R13: a command register of one word that takes a host write, its word made by field, has its effect. -/
theorem Dev.hostOp_takes {r : RegSpec} {ix : List Nat} {fs : List (String × Nat)} {v : Nat} (hv : pack r fs = v)
    (ht : d.takes p r ix v = true) (h : r.placed = true) (hi : ixOk r.dims ix = true) (hw : r.wide = false) (hlt : v < 2 ^ 32) :
    d.hostOp p r ix fs = d.performWrite p ⟨r, ix, false⟩ v := by
  rw [Dev.hostOp, hv, hostWrite_takes ht h hi hw hlt]

theorem hostOp_engIrq (h : e < 96) (ht : d.takes p R.KSN_ENG_IRQ (engIx e) 1 = true) :
    d.hostOp p R.KSN_ENG_IRQ (engIx e) [("RAISE", 1)] = d.raiseIrq e 3 := by
  rw [Dev.hostOp_takes rfl ht placed_KSN_ENG_IRQ (ixOk_engIx h) rfl (by decide)]
  exact congrArg (d.raiseIrq · 3) (engOfIx_engIx e)

theorem hostOp_engReset (h : e < 96) (ht : d.takes p R.KSN_ENG_RESET (engIx e) 1 = true) :
    d.hostOp p R.KSN_ENG_RESET (engIx e) [("GO", 1)] = d.engResetAll e false := by
  rw [Dev.hostOp_takes rfl ht placed_KSN_ENG_RESET (ixOk_engIx h) rfl (by decide)]
  exact congrArg (d.engResetAll · false) (engOfIx_engIx e)

theorem hostOp_engCfg (h : e < 96) {role : Bool} (ht : d.takes p R.KSN_ENG_CFG (engIx e) (2 * b2n role) = true) :
    d.hostOp p R.KSN_ENG_CFG (engIx e) [("ROLE", b2n role)] = d.roleWrite p e role := by
  have hpack : pack R.KSN_ENG_CFG [("ROLE", b2n role)] = 2 * b2n role := by cases role <;> rfl
  have hrole : (fv R.KSN_ENG_CFG "ROLE" (2 * b2n role) == 1) = role := by cases role <;> rfl
  have hlt : 2 * b2n role < 2 ^ 32 := by cases role <;> decide
  rw [Dev.hostOp_takes hpack ht placed_KSN_ENG_CFG (ixOk_engIx h) rfl hlt]
  exact congrArg₂ (d.roleWrite p) (engOfIx_engIx e) hrole

theorem hostWrite_evsel {k n : Nat} {v : Word} (hk : k < 12) (hn : n < 8) (ht : d.takes p R.PMC_EVSEL (clIx k ++ [n]) v.toNat = true) :
    d.hostWrite p (R.PMC_EVSEL.addr (clIx k ++ [n])) v = d.evselWrite k n v.toNat := by
  have hwrite := hostWrite_takes ht placed_PMC_EVSEL (ixOk_evsel hk hn) rfl v.isLt
  rw [BitVec.ofNat_toNat, BitVec.setWidth_eq] at hwrite
  rw [hwrite]
  exact congrArg (d.evselWrite · n v.toNat) (clOfIx_clIx_append k [n])

end

/-! ## The scratch apertures (R26, R389) -/

/-- R26: the apertures of two clusters share no byte. -/
theorem apertures_apart {j k : Nat} (hj : j < 12) (hk : k < 12) (h : j ≠ k) :
    apertureOff j 0 + 0x20000 ≤ apertureOff k 0 ∨ apertureOff k 0 + 0x20000 ≤ apertureOff j 0 := by
  have hall : (List.range 12).all (fun j => (List.range 12).all (fun k =>
      j == k || decide (apertureOff j 0 + 0x20000 ≤ apertureOff k 0) || decide (apertureOff k 0 + 0x20000 ≤ apertureOff j 0))) = true := by decide +kernel
  simpa [h] using List.all_eq_true.mp (List.all_eq_true.mp hall j (List.mem_range.mpr hj)) k (List.mem_range.mpr hk)

theorem apertureOff_word {off : Nat} (h : off < 0x20000) (k : Nat) : apertureOff k off = apertureOff k 0 + off / 4 * 4 := by
  unfold apertureOff
  omega

theorem capWord_apertureOff (k off : Nat) : capWord (apertureOff k off) = none :=
  capWord_none (by unfold apertureOff; omega)

/-- R26: a word of a cluster's aperture lies in that aperture and in no other. -/
theorem aperOf_apertureOff {k off : Nat} (hk : k < 12) (h : off < 0x20000) : aperOf (apertureOff k off) = some (k, off / 4 * 4) := by
  have hword := apertureOff_word h k
  generalize apertureOff k off = a at hword ⊢
  cases ha : aperOf a with
  | none =>
    have hnone := List.findSome?_eq_none_iff.mp ha k (List.mem_range.mpr hk)
    generalize apertureOff k 0 = b at *
    have hin : b ≤ a ∧ a < b + 0x20000 := by omega
    simp [hin] at hnone
  | some x =>
    obtain ⟨j, hj, hx⟩ := List.exists_of_findSome?_eq_some ha
    dsimp only at hx
    split at hx
    · rename_i hin
      simp only [Bool.and_eq_true, decide_eq_true_eq] at hin
      obtain rfl : j = k := by
        by_contra hne
        have hap := apertures_apart (List.mem_range.mp hj) hk hne
        generalize apertureOff j 0 = b at *
        generalize apertureOff k 0 = c at *
        omega
      rw [← hx, hword, Nat.add_sub_cancel_left]
    · cases hx

section
variable {d : Dev} {p : Path} {k off : Nat}

/-- R26, R389: a read that reaches an offset of an aperture is one of the cluster's scratch. -/
theorem hostRead_aperture {a o : Nat} (hr : d.reaches p = true) (hb : d.behind p a = false) (ha : d.accErr a = none) (hc : capWord a = none)
    (hp : aperOf a = some (k, o)) : d.hostRead p a = d.scrAccess p k o none := by
  simp only [Dev.hostRead, hr, hb, Dev.doRead, ha, hc, hp, Bool.not_true, Bool.false_eq_true, if_false]

/-- R26, R389: so is a write. -/
theorem hostWrite_aperture {a o : Nat} (hr : d.reaches p = true) (hb : d.behind p a = false) (ha : d.accErr a = none)
    (hp : aperOf a = some (k, o)) (v : Word) : d.hostWrite p a v = d.scrAccess p k o (some v) := by
  simp only [Dev.hostWrite, hr, hb, Dev.doWrite, ha, hp, Bool.not_true, Bool.false_eq_true, if_false]

theorem apertureAccess_runs (hk : k < 12) (ho : off < 0x20000) (hr : d.reaches p = true) (hb : d.behind p (apertureOff k off) = false)
    (ha : d.accErr (apertureOff k off) = none) (wr : Option Word) : d.apertureAccess p k off wr = d.scrAccess p k (off / 4 * 4) wr := by
  cases wr with
  | none => exact hostRead_aperture hr hb ha (capWord_apertureOff k off) (aperOf_apertureOff hk ho)
  | some v => exact hostWrite_aperture hr hb ha (aperOf_apertureOff hk ho) v

/-- R389: an access through an aperture that the bus does not grant in time is reported. -/
theorem apertureWait_runs (hr : d.reaches p = true) (hb : d.behind p (apertureOff k off) = false) (ha : d.accErr (apertureOff k off) = none)
    (wr : Option Word) : d.apertureWait p k off wr = d.scrTimeout p k off wr := by
  simp only [Dev.apertureWait, hr, hb, ha, Option.isNone_none, Bool.not_false, Bool.and_self, if_true]

end

/-! ## The events -/

section
variable {d : Dev} {e n : Nat} {w : Win}

/-- R366, R372: an engine that issues words, outside windows and handlers, takes its lowest interrupt. -/
theorem engIrq_takes (hq : lowIrq (d.engOf e).irqs = some n) (hi : d.canIssue e = true) (hh : (d.engOf e).handler = none)
    (hw : (d.engOf e).win = none) : d.engIrq e = d.takeIrq e n := by
  simp only [Dev.engIrq, hq, hi, hh, hw, Option.isNone_none, Bool.and_self, if_true]

/-- R373: the limit of a window passes with no interrupt waiting: a machine check AWIN. -/
theorem winLimit_mcheck (hw : (d.engOf e).win = some w) (hq : lowIrq (d.engOf e).irqs = none) :
    d.winLimit e = (d.updEng e Eng.restoreWin).mcheck e 6 w.at_ false := by
  simp only [Dev.winLimit, hw, hq]

/-- R372: the limit of a window passes with an interrupt waiting: it is taken. -/
theorem winLimit_takeIrq (hw : (d.engOf e).win = some w) (hq : lowIrq (d.engOf e).irqs = some n) (hh : (d.engOf e).handler = none) :
    d.winLimit e = ((d.updEng e Eng.restoreWin).pmc e 0x0C 1).takeIrq e n := by
  simp only [Dev.winLimit, hw, hq, hh]

end

theorem engineResetWrite_runs {s : State} {p : Path} {e : Nat} (h : e < 96) (ht : s.dev.takes p R.KSN_ENG_RESET (engIx e) 1 = true) :
    exec (.engineResetWrite p e) s = .next { s with dev := s.dev.engResetAll e false } := by
  rw [exec_engineResetWrite, execEngineResetWrite, within_pos ((below_iff _ _).mpr h), hostOp_engReset h ht]

/-- Settles O17: each command's operands describe an event of the part, and each effect is the lemma's above. -/
theorem engineEventsComplete : Obligations.EngineEventsComplete := by
  intro s p e n k off beats i w role req v
  have hbelow : ∀ {n x : Nat}, x < n → below n x = true := (below_iff _ _).mpr
  refine ⟨fun he hf ht => ?_, fun he hq hi hh hw => ?_, fun he ht => ?_, fun he hw hq => ?_, fun he hw hq hh => ?_, fun he => ?_,
    fun he ht => engineResetWrite_runs he ht, fun he ht => ?_, fun he => ?_, fun hk hreq h1 h64 => ?_, fun hk ho hr hb ha => ?_, fun hk hn ht => ?_⟩
  · rw [exec_memoryResultReturn, execMemoryResultReturn, within_pos (hbelow he), memBack_of_find hf ht]
  · rw [exec_engineInterrupt, execEngineInterrupt, within_pos (hbelow he), engIrq_takes hq hi hh hw]
  · rw [exec_hostInterruptRaise, execHostInterruptRaise, within_pos (hbelow he), hostOp_engIrq he ht]
  · rw [exec_atomicWindowLimit, execAtomicWindowLimit, within_pos (hbelow he), winLimit_mcheck hw hq]
  · rw [exec_atomicWindowLimit, execAtomicWindowLimit, within_pos (hbelow he), winLimit_takeIrq hw hq hh]
  · rw [exec_workItemTake, execWorkItemTake, within_pos (hbelow he)]
  · rw [exec_roleWrite, execRoleWrite, within_pos (hbelow he), hostOp_engCfg he ht]
  · rw [exec_roleSwitch, execRoleSwitch, within_pos (hbelow he)]
  · rw [exec_clusterBusGrant, execClusterBusGrant, within_pos (by simp [hbelow hk, hreq, h1, h64])]
  · have hops : (below 12 k && below 0x20000 off) = true := by rw [hbelow hk, hbelow ho, Bool.and_self]
    have haccess := apertureAccess_runs hk ho hr hb ha
    have hwait := apertureWait_runs hr hb ha
    refine ⟨?_, ?_, ?_, ?_⟩
    · rw [exec_scratchApertureAccess, execScratchApertureAccess, within_pos hops, haccess]
    · rw [exec_scratchApertureAccess, execScratchApertureAccess, within_pos hops, haccess]
    · rw [exec_apertureTimeout, execApertureTimeout, within_pos hops, hwait, Dev.scrTimeout]
    · rw [exec_apertureTimeout, execApertureTimeout, within_pos hops, hwait, Dev.scrTimeout]
  · rw [exec_pmcEvselWrite, execPmcEvselWrite, within_pos (by rw [hbelow hk, hbelow hn, Bool.and_self]), hostWrite_evsel hk hn ht]

end Sys2Proof.Machine
end

section
/-! SUPPORT. What a reset of an engine (R24) leaves of the other engines and of the owner epochs. -/

namespace Sys2Proof.Machine

/-! ## Operations that touch no engine, no owner epoch and no role -/

/-- An operation leaves every engine, every owner epoch and every role that KSN_ENG_CFG names. -/
structure Quiet (d d' : Dev) : Prop where
  eng : d'.eng = d.eng
  epoch : ∀ ix, ixOk R.FLW_QN_EPOCH.dims ix = true → d'.getW R.FLW_QN_EPOCH ix = d.getW R.FLW_QN_EPOCH ix
  cfg : ∀ ix, ixOk R.KSN_ENG_CFG.dims ix = true → d'.getW R.KSN_ENG_CFG ix = d.getW R.KSN_ENG_CFG ix

/-- Registers of the engines, the schedulers, the counters and the trace that share no word with FLW_QN_EPOCH and KSN_ENG_CFG. -/
def quietRegs : List RegSpec :=
  [R.FLW_QN_STATUS, R.KSN_BUS_STAT, R.KSN_ENG_MCHK, R.KSN_ENG_STAT, R.TSK_ENG_ST, R.TSK_SLOT_ST, R.TSK_SLOT_EVT, R.TSK_READY, R.TSK_WITHDRAW_CNT,
    R.PMC_EVSEL, R.PMC_CTR, R.TRC_SEQ, R.TRC_STAT, R.TRC_DROP]

theorem placed_FLW_QN_EPOCH : R.FLW_QN_EPOCH.placed = true := by decide +kernel

/-- Two instances of a register of one word share none. -/
theorem apart_of_ne {r : RegSpec} (h : r.placed = true) (hw : r.wide = false) {ix jx : List Nat} (hi : ixOk r.dims ix = true) (hj : ixOk r.dims jx = true)
    (hne : ix ≠ jx) : r.apart ix r jx := by
  refine ⟨fun ha => hne ?_, by simp [hw], by simp [hw]⟩
  have hfind := placed_findReg h hi
  rw [ha, placed_findReg h hj] at hfind
  simpa using hfind.symm

theorem quietRegs_clear : quietRegs.all (fun r => r.clear R.FLW_QN_EPOCH && r.clear R.KSN_ENG_CFG) = true := by decide +kernel

section
variable {d x : Dev} {ix : List Nat}

theorem Quiet.refl (d : Dev) : Quiet d d := ⟨rfl, fun _ _ => rfl, fun _ _ => rfl⟩

theorem Quiet.trans {y : Dev} (h : Quiet d x) (g : Quiet x y) : Quiet d y :=
  ⟨g.eng.trans h.eng, fun ix hi => (g.epoch ix hi).trans (h.epoch ix hi), fun ix hi => (g.cfg ix hi).trans (h.cfg ix hi)⟩

/-- An update of other stores than the register file and the engines. -/
theorem Quiet.of_eq (h : Quiet d x) {y : Dev} (hr : y.regs = x.regs) (he : y.eng = x.eng) : Quiet d y :=
  h.trans ⟨he, fun _ _ => by simp only [Dev.getW, hr], fun _ _ => by simp only [Dev.getW, hr]⟩

theorem Quiet.setTsk (h : Quiet d x) (t : TskS) : Quiet d { x with tsk := t } := h.of_eq rfl rfl

theorem Quiet.setW (h : Quiet d x) (r : RegSpec) (hi : ixOk r.dims ix = true) (v : Nat) (hr : r ∈ quietRegs := by simp [quietRegs]) :
    Quiet d (x.setW r ix v) := by
  obtain ⟨hepoch, hcfg⟩ := Bool.and_eq_true_iff.mp (List.all_eq_true.mp quietRegs_clear r hr)
  exact h.trans ⟨rfl, fun _ hj => x.getW_setW_ne v (apart_of_clear hepoch hi hj), fun _ hj => x.getW_setW_ne v (apart_of_clear hcfg hi hj)⟩

theorem Quiet.put (h : Quiet d x) (r : RegSpec) (hi : ixOk r.dims ix = true) (f : String) (v : Nat) (hr : r ∈ quietRegs := by simp [quietRegs]) :
    Quiet d (x.put r ix f v) := by
  unfold Dev.put
  split
  · exact h.setW r hi _ hr
  · exact h

theorem Quiet.bump (h : Quiet d x) (r : RegSpec) (hi : ixOk r.dims ix = true) (f : String) (n : Nat) (hr : r ∈ quietRegs := by simp [quietRegs]) :
    Quiet d (x.bump r ix f n) := h.put r hi f _ hr

theorem Quiet.engOf (h : Quiet d x) (j : Nat) : x.engOf j = d.engOf j := by
  simp only [Dev.engOf, h.eng]

theorem Quiet.epochOf (h : Quiet d x) {j : Nat} (hj : j < 96) : x.epoch j = d.epoch j := by
  have hi : ixOk R.FLW_QN_EPOCH.dims [j / 48, j % 48] = true := by
    simp only [R.FLW_QN_EPOCH, ixOk, Bool.and_eq_true, Bool.and_true, decide_eq_true_eq]
    omega
  simp only [Dev.epoch, Dev.get, h.epoch _ hi]

theorem Quiet.role (h : Quiet d x) {e : Nat} (he : e < 96) : x.get R.KSN_ENG_CFG (engIx e) "ROLE" = d.get R.KSN_ENG_CFG (engIx e) "ROLE" := by
  simp only [Dev.get, h.cfg _ (ixOk_engIx he)]

end

theorem ixOk_epochIx {e : Nat} (h : e < 96) : ixOk R.FLW_QN_EPOCH.dims [e / 48, e % 48] = true := by
  simp only [R.FLW_QN_EPOCH, ixOk, Bool.and_eq_true, Bool.and_true, decide_eq_true_eq]
  omega

theorem ixOk_clIx {k : Nat} (h : k < 12) : ixOk R.KSN_BUS_STAT.dims (clIx k) = true := by
  simp only [R.KSN_BUS_STAT, clIx, ixOk, Bool.and_eq_true, Bool.and_true, decide_eq_true_eq]
  omega

theorem ixOk_tskIx {e : Nat} (h : e < 96) : ixOk R.TSK_ENG_ST.dims (tskIx e) = true := by
  simp only [R.TSK_ENG_ST, tskIx, ixOk, Bool.and_eq_true, Bool.and_true, decide_eq_true_eq]
  omega

theorem ixOk_die {k : Nat} (h : k < 2) : ixOk R.FLW_QN_STATUS.dims [k] = true := by
  simp only [R.FLW_QN_STATUS, ixOk, Bool.and_eq_true, Bool.and_true, decide_eq_true_eq]
  omega

theorem ixOk_slot {k s : Nat} (hk : k < 2) (hs : s < 512) : ixOk R.TSK_SLOT_ST.dims [k, s] = true := by
  simp only [R.TSK_SLOT_ST, ixOk, Bool.and_eq_true, Bool.and_true, decide_eq_true_eq]
  omega

theorem ixOk_drop {k src : Nat} (hk : k < 2) (h1 : 1 ≤ src) (h6 : src ≤ 6) : ixOk R.TRC_DROP.dims [k, src] = true := by
  simp only [R.TRC_DROP, ixOk, Bool.and_eq_true, Bool.and_true, decide_eq_true_eq]
  omega

theorem Quiet.showQuoins {d x : Dev} (h : Quiet d x) {k : Nat} (hk : k < 2) : Quiet d (x.showQuoins k) :=
  h.put R.FLW_QN_STATUS (ixOk_die hk) _ _

/-! ## Counters and trace -/

theorem Quiet.pmc {d x : Dev} {e : Nat} (h : Quiet d x) (he : e < 96) (ev n : Nat) : Quiet d (x.pmc e ev n) := by
  unfold Dev.pmc
  refine List.foldlRecOn (motive := Quiet d) (List.range 8) _ h fun y hy c hc => ?_
  have hi : ixOk R.PMC_EVSEL.dims (clIx (e / 8) ++ [c]) = true := ixOk_evsel (by omega) (List.mem_range.mp hc)
  have hi' : ixOk R.PMC_CTR.dims (clIx (e / 8) ++ [c]) = true := hi
  have hcount : Quiet d (y.put R.PMC_CTR (clIx (e / 8) ++ [c]) "COUNT" (y.get R.PMC_CTR (clIx (e / 8) ++ [c]) "COUNT" + n)) :=
    hy.put R.PMC_CTR hi' _ _
  dsimp only
  split
  · split
    · exact hcount.put R.PMC_EVSEL hi _ _
    · exact hcount
  · exact hy

theorem TrcFrame.quiet {k : Nat} {d d' : Dev} (h : TrcFrame k d d') (hk : k < 2) : Quiet d d' := by
  have hd : ixOk R.TRC_SEQ.dims [k] = true := ixOk_die hk
  have hclear : ∀ r ∈ [R.TRC_SEQ, R.TRC_STAT], r.clear R.FLW_QN_EPOCH = true ∧ r.clear R.KSN_ENG_CFG = true := by decide +kernel
  obtain ⟨hseq, hstat⟩ := List.forall_mem_cons.mp hclear
  obtain ⟨hstat, -⟩ := List.forall_mem_cons.mp hstat
  obtain ⟨m, hm⟩ := h.rest
  exact ⟨by rw [hm], fun _ hi => h.regs _ _ (apart_of_clear hseq.1 hd hi) (apart_of_clear hstat.1 hd hi),
    fun _ hi => h.regs _ _ (apart_of_clear hseq.2 hd hi) (apart_of_clear hstat.2 hd hi)⟩

theorem Quiet.trcArrive {d x : Dev} (h : Quiet d x) {k : Nat} (hk : k < 2) {r : TrcRec} (h1 : 1 ≤ r.src) (h6 : r.src ≤ 6) : Quiet d (x.trcArrive k r) := by
  unfold Dev.trcArrive
  dsimp only
  generalize hy : Dev.trcDrain k _ _ = y
  have hquiet : Quiet d y := by
    subst hy
    exact (h.of_eq (Dev.fresh_regs _ _) (Dev.fresh_eng _ _)).trans ((Dev.trcDrain_frame k _ _).quiet hk)
  split
  · refine Quiet.bump ?_ R.TRC_DROP (ixOk_drop hk h1 h6) _ _
    exact hquiet.of_eq rfl rfl
  · exact hquiet.of_eq rfl rfl

theorem Quiet.trace {d x : Dev} (h : Quiet d x) {k src : Nat} (hk : k < 2) (h1 : 1 ≤ src) (h6 : src ≤ 6) (typ : Nat) (pay : List Byte) (sel : Bool)
    (code : Option Nat) : Quiet d (x.trace k src typ pay sel code) := by
  unfold Dev.trace
  dsimp only
  split
  · split
    · refine Quiet.trcArrive ?_ hk h1 h6
      exact h.of_eq rfl rfl
    · exact h.of_eq rfl rfl
  · exact h

/-! ## Threads (R399, R413) -/

theorem mem_runners {d : Dev} {k : Nat} {x : Nat × Nat} (h : x ∈ d.runners k) : x.1 ≤ 48 * k + 47 := by
  obtain ⟨e, he, hx⟩ := List.mem_filterMap.mp h
  obtain ⟨i, hi, rfl⟩ := List.mem_map.mp he
  obtain ⟨s, -, rfl⟩ := Option.map_eq_some_iff.mp hx
  have := List.mem_range.mp hi
  dsimp only
  omega

/-- Of a list gone through keeping one element or taking the next, what is kept stands in the list. -/
theorem mem_of_foldl_choice {α : Type} {f : Option α → α → Option α} (hf : ∀ b z, f b z = b ∨ f b z = some z) {l : List α} {y : α}
    (h : l.foldl f none = some y) : y ∈ l := by
  refine List.foldlRecOn (motive := fun b => ∀ y, b = some y → y ∈ l) l f (by simp) (fun b hb z hz y hy => ?_) y h
  rcases hf b z with hkeep | htake
  · exact hb y (hkeep ▸ hy)
  · exact Option.some.inj (htake.symm.trans hy) ▸ hz

/-- R413: withdrawing preemptions changes marks and a count. -/
theorem Quiet.withdraw {k : Nat} (hk : k < 2) (n : Nat) {d x : Dev} (h : Quiet d x) : Quiet d (Dev.withdraw k n x) := by
  induction n generalizing x with
  | zero => exact h
  | succ n ih =>
    unfold Dev.withdraw
    dsimp only
    split
    · exact h
    · split
      · exact h
      · rename_i y hlow
        have hmem := mem_of_foldl_choice (fun b z => by
          cases b with
          | none => exact .inr rfl
          | some w => dsimp only; split <;> simp) hlow
        have he := mem_runners (List.mem_filter.mp hmem).1
        exact ih ((h.put R.TSK_ENG_ST (ixOk_tskIx (by omega)) _ _).bump R.TSK_WITHDRAW_CNT (ixOk_die hk) _ _)

section
variable {d x : Dev} {e : Nat}

theorem Quiet.setEngState (h : Quiet d x) (he : e < 96) (v : Nat) : Quiet d (x.setEngState e v) := h.put R.KSN_ENG_STAT (ixOk_engIx he) _ _

theorem Quiet.unready (h : Quiet d x) {k : Nat} (hk : k < 2) (s : Nat) : Quiet d (x.unready k s) := by
  unfold Dev.unready
  refine Quiet.put ?_ R.TSK_READY (ixOk_die hk) _ _
  exact h.of_eq rfl rfl

theorem Quiet.quiesceTakes (h : Quiet d x) (e upc : Nat) : Quiet d (x.quiesceTakes e upc) := by
  unfold Dev.quiesceTakes
  split
  · exact h
  · exact h.of_eq rfl rfl

end

/-- An operation leaves every engine but engine e, the local memory of engine e, and every owner epoch. -/
structure Spares (e : Nat) (d d' : Dev) : Prop where
  others : ∀ j, j ≠ e → d'.engOf j = d.engOf j
  lmem : (d'.engOf e).lmem = (d.engOf e).lmem
  epochs : ∀ j, j < 96 → d'.epoch j = d.epoch j

theorem Quiet.spares {d d' : Dev} (h : Quiet d d') (e : Nat) : Spares e d d' :=
  ⟨fun j _ => h.engOf j, by rw [h.engOf], fun _ hj => h.epochOf hj⟩

theorem Spares.trans {e : Nat} {a b c : Dev} (h : Spares e a b) (g : Spares e b c) : Spares e a c :=
  ⟨fun j hj => (g.others j hj).trans (h.others j hj), g.lmem.trans h.lmem, fun j hj => (g.epochs j hj).trans (h.epochs j hj)⟩

theorem loadCtx_spares (d : Dev) {e : Nat} (he : e < 96) (c : Ctx) : Spares e d (d.loadCtx e c) := by
  have hput := (Quiet.refl (d.updEng e (fun g => { g with ctx := c, handler := none }))).put R.KSN_ENG_STAT (ixOk_engIx he) "IMASK" 0
  refine Spares.trans ⟨fun j hj => d.engOf_updEng_ne _ hj, ?_, fun _ _ => rfl⟩ (hput.spares e)
  rw [Dev.engOf_updEng]

/-- R399: a thread dispatched gives its engine a context, and changes no other engine. -/
theorem dispatch_spares (d : Dev) {e s : Nat} (he : e < 96) (hs : s < 512) : Spares e d (d.dispatch e s) := by
  have hk : e / 48 < 2 := by omega
  have hslot : ixOk R.TSK_SLOT_ST.dims [e / 48, s] = true := ixOk_slot hk hs
  unfold Dev.dispatch
  dsimp only
  generalize hx : Dev.unready _ _ _ = x
  have hq : Quiet d x := by
    subst hx
    refine Quiet.unready ?_ hk s
    have hf := (Quiet.refl d).of_eq (d.fresh_regs (2 ^ 16)) (d.fresh_eng (2 ^ 16))
    split
    · exact hf.pmc he _ _
    · exact hf
  generalize x.resumeCtx (e / 48) s = c
  have hput := (((hq.put R.TSK_SLOT_ST hslot "STATE" 2).put R.TSK_SLOT_ST hslot "ENGINE" e).setW R.TSK_SLOT_EVT hslot c.2).put R.TSK_ENG_ST (ixOk_tskIx he) "SLOT" s
  refine ((hput.spares e).trans (loadCtx_spares _ he c.1)).trans (Quiet.spares ?_ e)
  refine Quiet.trace ?_ hk (by omega) (by omega) _ _ _ _
  refine Quiet.setEngState ?_ he 1
  exact ((Quiet.refl _).quiesceTakes e c.1.upc).setTsk _

theorem seek_spares (d : Dev) {e : Nat} (he : e < 96) (hr : ∀ s, d.topReady (e / 48) = some s → s < 512) : Spares e d (d.seek e) := by
  unfold Dev.seek
  dsimp only
  split
  · rename_i s hs
    have hserved : Quiet d (d.served (e / 48) e) := (Quiet.refl d).of_eq rfl rfl
    exact (hserved.spares e).trans (dispatch_spares _ he (hr s hs))
  · have hput := ((Quiet.refl d).put R.TSK_ENG_ST (ixOk_tskIx he) "SLOT" 0x1FF).setEngState he 3
    exact (hput.setTsk _).spares e

/-! ## The reset of an engine (R24) -/

section
variable {d : Dev} {e : Nat}

/-- R24: what a reset of engine e makes of a part: the engine's local memory is cleared, in the packet role its registers and micro-PC too, its owner epoch
rises, and no other engine and no other epoch changes. -/
structure ResetsAlone (e : Nat) (d d' : Dev) : Prop where
  lmem : (d'.engOf e).lmem = []
  packet : d.get R.KSN_ENG_CFG (engIx e) "ROLE" = 0 → d'.engOf e = Eng.zero
  epoch : d'.epoch e = (d.epoch e + 1) % 2 ^ 16
  others : ∀ j, j < 96 → j ≠ e → d'.engOf j = d.engOf j ∧ d'.epoch j = d.epoch j

theorem ResetsAlone.quiet {x y : Dev} (he : e < 96) (h : ResetsAlone e d x) (g : Quiet x y) : ResetsAlone e d y :=
  ⟨by rw [g.engOf, h.lmem], fun h0 => (g.engOf e).trans (h.packet h0), (g.epochOf he).trans h.epoch,
    fun j hj hne => ⟨(g.engOf j).trans (h.others j hj hne).1, (g.epochOf hj).trans (h.others j hj hne).2⟩⟩

theorem Quiet.resetsAlone {x y : Dev} (he : e < 96) (g : Quiet d x) (h : ResetsAlone e x y) : ResetsAlone e d y :=
  ⟨h.lmem, fun h0 => h.packet ((g.role he).trans h0), h.epoch.trans (by rw [g.epochOf he]),
    fun j hj hne => ⟨(h.others j hj hne).1.trans (g.engOf j), (h.others j hj hne).2.trans (g.epochOf hj)⟩⟩

/-- R24, R228: an engine cleared reads 0, and its epoch alone rises. -/
theorem engClear_resetsAlone (he : e < 96) : ResetsAlone e d (d.engClear e) := by
  have hzero : (d.engClear e).engOf e = Eng.zero := by
    simp only [Dev.engClear, Dev.showQuoins, Dev.engOf, Dev.put_eng, SMap.get_del_same]
  have hshow := fun x : Dev => (Quiet.refl x).showQuoins (k := e / 48) (by omega)
  refine ⟨by rw [hzero]; rfl, fun _ => hzero, ?_, fun j hj hne => ⟨?_, ?_⟩⟩
  · exact ((hshow _).epochOf he).trans (Dev.get_put_same _ _ _ (g := fl "EPOCH" 15 0 .ro) rfl (by decide) (by decide))
  · simp only [Dev.engClear, Dev.showQuoins, Dev.engOf, Dev.put_eng, SMap.get_del_ne _ _ hne]
  · have hix : [e / 48, e % 48] ≠ [j / 48, j % 48] := by
      simp only [ne_eq, List.cons.injEq, and_true]
      omega
    exact ((hshow _).epochOf hj).trans (Dev.get_put_ne _ _ _ _ (apart_of_ne placed_FLW_QN_EPOCH rfl (ixOk_epochIx he) (ixOk_epochIx hj) hix))

theorem engClear_role (he : e < 96) : (d.engClear e).get R.KSN_ENG_CFG (engIx e) "ROLE" = d.get R.KSN_ENG_CFG (engIx e) "ROLE" := by
  have hclear : R.FLW_QN_EPOCH.clear R.KSN_ENG_CFG = true := by decide +kernel
  have hshow := fun x : Dev => (Quiet.refl x).showQuoins (k := e / 48) (by omega)
  exact ((hshow _).role he).trans (Dev.get_put_ne _ _ _ _ (apart_of_clear hclear (ixOk_epochIx he) (ixOk_engIx he)))

theorem takeRole_spares (he : e < 96) (hr : ∀ s, d.topReady (e / 48) = some s → s < 512) : Spares e d (d.takeRole e) := by
  unfold Dev.takeRole Dev.ask
  have hput := (Quiet.refl d).put R.KSN_ENG_STAT (ixOk_engIx he) "ROLE_ACT" (d.get R.KSN_ENG_CFG (engIx e) "ROLE")
  dsimp only
  split
  · have hready : ∀ s, (d.put R.KSN_ENG_STAT (engIx e) "ROLE_ACT" (d.get R.KSN_ENG_CFG (engIx e) "ROLE")).topReady (e / 48) = some s → s < 512 := by
      simpa only [Dev.topReady, Dev.readyList, Dev.put_tsk] using hr
    exact ((hput.spares e).trans (seek_spares _ he hready)).trans (((Quiet.refl _).withdraw (by omega) 48).spares e)
  · exact (hput.setEngState he 0).spares e

/-- R364: an engine whose role is the packet role takes no thread. -/
theorem takeRole_packet (he : e < 96) (h0 : d.get R.KSN_ENG_CFG (engIx e) "ROLE" = 0) : Quiet d (d.takeRole e) := by
  unfold Dev.takeRole
  simp only [h0, Nat.zero_ne_one, if_false]
  exact ((Quiet.refl d).put R.KSN_ENG_STAT (ixOk_engIx he) _ _).setEngState he 0

/-- What an engine reset does between the clearing and the role. -/
theorem engRegs_quiet (he : e < 96) : Quiet d (((d.busDrop e).engRegs e).notIdle e) := by
  have hbus : Quiet d (d.busDrop e) := by
    unfold Dev.busDrop
    split
    · exact (Quiet.refl d).put R.KSN_BUS_STAT (ixOk_clIx (by omega)) _ _
    · exact Quiet.refl d
  have heng := ixOk_engIx he
  have htsk := ixOk_tskIx he
  unfold Dev.engRegs Dev.notIdle
  exact ((((hbus.setW R.KSN_ENG_MCHK heng _).put R.TSK_ENG_ST htsk _ _).put R.TSK_ENG_ST htsk _ _).put R.KSN_ENG_STAT heng _ _).setTsk _

/-- Up to then the ready lists stand. -/
theorem topReady_engRegs (e k : Nat) : ((((d.engClear e).busDrop e).engRegs e).notIdle e).topReady k = d.topReady k := by
  have hbus : ∀ x : Dev, (x.busDrop e).tsk = x.tsk := fun x => by
    unfold Dev.busDrop
    split
    · exact x.put_tsk _ _ _ _
    · rfl
  simp only [Dev.topReady, Dev.readyList, Dev.notIdle, Dev.engRegs, Dev.put_tsk, Dev.setW_tsk, hbus, Dev.engClear, Dev.showQuoins]

theorem engReset_resetsAlone (he : e < 96) (hr : ∀ s, d.topReady (e / 48) = some s → s < 512) : ResetsAlone e d (d.engReset e) := by
  have hclear := (engClear_resetsAlone (d := d) he).quiet he (engRegs_quiet he)
  have hrole := ((engRegs_quiet he).role he).trans (engClear_role (d := d) he)
  have hready := fun s => hr s ∘ (topReady_engRegs (d := d) e (e / 48)).symm.trans
  unfold Dev.engReset
  generalize (((d.engClear e).busDrop e).engRegs e).notIdle e = x at hclear hrole hready ⊢
  have htake := takeRole_spares he hready
  exact ⟨htake.lmem.trans hclear.lmem, fun h0 => ((takeRole_packet he (hrole.trans h0)).engOf e).trans (hclear.packet h0),
    (htake.epochs e he).trans hclear.epoch,
    fun j hj hne => ⟨(htake.others j hne).trans (hclear.others j hj hne).1, (htake.epochs j hj).trans (hclear.others j hj hne).2⟩⟩

theorem curSlot_lt {s : Nat} (h : d.curSlot e = some s) : s < 512 := by
  simp only [Dev.curSlot, Option.ite_none_right_eq_some, Option.some.injEq, Bool.and_eq_true, decide_eq_true_eq] at h
  omega

theorem engResetAll_resetsAlone (he : e < 96) (hr : ∀ s, d.topReady (e / 48) = some s → s < 512) : ResetsAlone e d (d.engResetAll e false) := by
  have hk : e / 48 < 2 := by omega
  unfold Dev.engResetAll
  cases hs : d.curSlot e with
  | none => exact engReset_resetsAlone he hr
  | some s =>
    have hslot := ixOk_slot hk (curSlot_lt hs)
    have hput := ((Quiet.refl d).put R.TSK_SLOT_ST hslot "STATE" 4).put R.TSK_SLOT_ST hslot "ENGINE" 0x7F
    refine (hput.resetsAlone he (engReset_resetsAlone he ?_)).quiet he ((Quiet.refl _).withdraw hk 48)
    simpa only [Dev.topReady, Dev.readyList, Dev.put_tsk] using hr

end

/-- R24: a host's reset of an engine resets that engine alone, where the thread at the head of its die's ready lists stands in a slot that the die has. -/
theorem engineResetWrite_resetsAlone {s : State} {p : Path} {e : Nat} (he : e < 96) (ht : s.dev.takes p R.KSN_ENG_RESET (engIx e) 1 = true)
    (hr : ∀ n, s.dev.topReady (e / 48) = some n → n < 512) : ∃ t, exec (.engineResetWrite p e) s = .next t ∧ ResetsAlone e s.dev t.dev :=
  ⟨_, engineResetWrite_runs he ht, engResetAll_resetsAlone he hr⟩

/-! ## A ready list that names no slot of its die -/

/-- The slot number above 511 at which the event word of die 0 would stand at the offset of FLW_QN_EPOCH[0] of die 1. -/
def straySlot : Nat := (R.FLW_QN_EPOCH.addr [1, 0] - R.TSK_SLOT_EVT.addr [0, 0]) / 4

/-- A part in LOAD that takes host writes; engine 0 is to take the thread role, engine 48 stands in epoch 5, and the ready list of die 0 names that slot
number, as of a thread that waits for events. -/
def strayReady : State :=
  let ep : Endpoint := { Endpoint.reset with ready := true, up := true, memEn := true, busEn := true }
  let d := { Dev.reset with
    glb := { GlbS.reset with mode := .load }
    hif := { HifS.reset with ep := ⟨ep, ep⟩ }
    tsk := { TskS.reset with slots := [(straySlot, { TSlot.zero with how := 1, mask := 0xFFFF })], ready := [(0, [straySlot])] } }
  ⟨((d.put R.GLB_BOOT_STATUS [] "ROOT_DONE" 1).put R.KSN_ENG_CFG (engIx 0) "ROLE" 1).put R.FLW_QN_EPOCH [1, 0] "EPOCH" 5, []⟩

theorem strayReady_takes : strayReady.dev.takes .pcie R.KSN_ENG_RESET (engIx 0) 1 = true := by decide +kernel

theorem strayReady_epochs : strayReady.dev.epoch 48 = 5 ∧ (strayReady.dev.engResetAll 0 false).epoch 48 = 0 := by decide +kernel

/-- Refutes O34: engine 0, reset into the thread role, takes the thread of slot `straySlot`, whose events are the bits of FLW_QN_EPOCH[0] of die 1 and
are cleared as it resumes: the epoch of engine 48 goes from 5 to 0. A die has slots 0 to 511 (R395), and the statement does not ask that its ready lists
name only those; where the head of the lists is one of them, the reset is as stated (`engineResetWrite_resetsAlone`). -/
theorem not_anEngineResetTouchesNoOtherEngine : ¬ Obligations.AnEngineResetTouchesNoOtherEngine := by
  intro h
  obtain ⟨t, hrun, -, -, -, hothers⟩ := h strayReady .pcie 0 (by decide) strayReady_takes
  rw [engineResetWrite_runs (by decide) strayReady_takes] at hrun
  cases hrun
  obtain ⟨hbefore, hafter⟩ := strayReady_epochs
  have hsame := (hothers 48 (by decide) (by decide)).2
  rw [hbefore, hafter] at hsame
  exact absurd hsame (by decide)

end Sys2Proof.Machine
end

section
/-! SUPPORT. Mode requests and package resets over the host's paths (R54–R58, R64, R77): what a write of GLB_MODE_REQ or GLB_RESET does, and the STATUS that
answers a request. -/

namespace Sys2Proof.Machine

/-! ## Host writes that act -/

section
variable {d : Dev} {p : Path} {v : Word}

/-- R13: a word that a register of one word takes over a path has the register's effect. -/
theorem hostWrite_word {r : RegSpec} {ix : List Nat} (ht : d.takes p r ix v.toNat = true) (h : r.placed = true) (hi : ixOk r.dims ix = true)
    (hw : r.wide = false) : d.hostWrite p (r.addr ix) v = d.performWrite p ⟨r, ix, false⟩ v.toNat := by
  have hwrite := hostWrite_takes ht h hi hw v.isLt
  rwa [BitVec.ofNat_toNat, BitVec.setWidth_eq] at hwrite

theorem hostWrite_modeReq (ht : d.takes p R.GLB_MODE_REQ [] v.toNat = true) :
    d.hostWrite p (R.GLB_MODE_REQ.addr []) v = d.modeReqWrite p v.toNat :=
  hostWrite_word ht placed_GLB_MODE_REQ rfl rfl

theorem hostWrite_reset (ht : d.takes p R.GLB_RESET [] v.toNat = true) : d.hostWrite p (R.GLB_RESET.addr []) v = d.resetWrite p v.toNat :=
  hostWrite_word ht placed_GLB_RESET rfl rfl

end

/-! ## The word of a request -/

section
variable {d : Dev} {p : Path} {v : Nat}

/-- R54: a write with GO = 1 and FLUSH = 0 names a TARGET and asks for it. -/
theorem modeReqWrite_go (hgo : hasBit v 3 = true) (hflush : hasBit v 8 = false) :
    d.modeReqWrite p v = (d.put R.GLB_MODE_REQ [] "TARGET" (v % 8)).request (Mode.of (v % 8)) := by
  simp only [Dev.modeReqWrite, hgo, hflush, Bool.not_false, if_true]

/-- R77: a write with FLUSH = 1 and GO = 0 flushes in DRAIN and is reported in every other mode. -/
theorem modeReqWrite_flush (hgo : hasBit v 3 = false) (hflush : hasBit v 8 = true) :
    d.modeReqWrite p v = if d.glb.mode = .drain then (d.put R.GLB_MODE_REQ [] "TARGET" (v % 8)).flushAll
      else (d.put R.GLB_MODE_REQ [] "TARGET" (v % 8)).hostAcc p 3 (R.GLB_MODE_REQ.addr []) v true := by
  simp only [Dev.modeReqWrite, hgo, hflush, Bool.not_true, Bool.false_eq_true, if_false, Dev.put_glb]

end

theorem target_lt (d : Dev) : d.get R.GLB_MODE_REQ [] "TARGET" < 8 := bitsOf_lt _ 2 0

/-- R54: the word that sets FLUSH alone has GO = 0 and TARGET as it stands. -/
theorem setWord_flush (d : Dev) : d.setWord R.GLB_MODE_REQ [] "FLUSH" = 256 + d.get R.GLB_MODE_REQ [] "TARGET" := by
  have hword : d.setWord R.GLB_MODE_REQ [] "FLUSH" = setBits (setBits 0 2 0 (d.get R.GLB_MODE_REQ [] "TARGET")) 8 8 1 := rfl
  have hlt := target_lt d
  rw [hword, setBits_eq, setBits_eq]
  omega

/-- R77: a FLUSH write takes effect as the rule says of it: TARGET is written as it stands. -/
theorem hostSet_flush {d : Dev} {p : Path} (ht : d.takes p R.GLB_MODE_REQ [] (d.setWord R.GLB_MODE_REQ [] "FLUSH") = true) :
    d.hostSet p R.GLB_MODE_REQ [] "FLUSH" = if d.glb.mode = .drain
      then (d.put R.GLB_MODE_REQ [] "TARGET" (d.get R.GLB_MODE_REQ [] "TARGET")).flushAll
      else (d.put R.GLB_MODE_REQ [] "TARGET" (d.get R.GLB_MODE_REQ [] "TARGET")).hostAcc p 3 (R.GLB_MODE_REQ.addr [])
        (d.setWord R.GLB_MODE_REQ [] "FLUSH") true := by
  have hword := setWord_flush d
  have hlt := target_lt d
  have hwrite : d.hostSet p R.GLB_MODE_REQ [] "FLUSH" = d.modeReqWrite p (d.setWord R.GLB_MODE_REQ [] "FLUSH") :=
    hostWrite_takes ht placed_GLB_MODE_REQ rfl rfl (by omega)
  generalize d.setWord R.GLB_MODE_REQ [] "FLUSH" = w at hword hwrite ⊢
  have hgo : hasBit w 3 = false := by
    simp only [hasBit, beq_eq_false_iff_ne]
    omega
  have hflush : hasBit w 8 = true := by
    simp only [hasBit, beq_iff_eq]
    omega
  have htarget : w % 8 = d.get R.GLB_MODE_REQ [] "TARGET" := by omega
  rw [hwrite, modeReqWrite_flush hgo hflush, htarget]

/-- R56: a mode request over one path alone. -/
theorem modeRequest_runs {s : State} {p : Path} {v : Word} (ht : s.dev.takes p R.GLB_MODE_REQ [] v.toNat = true) (hgo : hasBit v.toNat 3 = true)
    (hflush : hasBit v.toNat 8 = false) : exec (.modeRequest p ⟨v, none⟩) s =
      .next { s with dev := (s.dev.put R.GLB_MODE_REQ [] "TARGET" (v.toNat % 8)).request (Mode.of (v.toNat % 8)) } := by
  rw [exec_modeRequest, execModeRequest, within_pos rfl, Dev.modeWrites, hostWrite_modeReq ht, modeReqWrite_go hgo hflush]

/-! ## The answer to a request (R57) -/

/-- R57: the STATUS that answers a request to enter a mode. -/
def Dev.answer (d : Dev) (b : Mode) : Nat :=
  if d.glb.trans.isSome then 3 else if permitted d.glb.mode b then (d.refusal b).getD 2 else 4

theorem get_reqStatus (d : Dev) {n : Nat} (h : n < 16) : (d.reqStatus n).get R.GLB_MODE_REQ [] "STATUS" = n :=
  (d.get_put_same [] n (g := fl "STATUS" 19 16 .ro) rfl (by decide) (by decide)).trans (Nat.mod_eq_of_lt h)

@[simp] theorem reqStatus_glb (d : Dev) (n : Nat) : (d.reqStatus n).glb = d.glb := d.put_glb _ _ _ _

section
variable {d : Dev} {b : Mode}

/-- R56: a request that nothing refuses. -/
theorem request_accepted (ht : d.glb.trans = none) (hp : permitted d.glb.mode b = true) (hr : d.refusal b = none) :
    d.request b = { d with glb := { d.glb with trans := some b, deferred := d.glb.loader.state != 0 } }.reqStatus 2 := by
  simp only [Dev.request, ht, hp, hr, Option.isSome_none, Bool.not_true, Bool.false_eq_true, if_false]

/-- R57: a precondition that fails is named as FORME (6), TRAIN (7) or PRECOND (5). -/
theorem refusal_codes {c : Nat} (h : d.refusal b = some c) : c = 5 ∨ c = 6 ∨ c = 7 := by
  unfold Dev.refusal at h
  repeat' split at h
  all_goals simp_all

/-- R55, R57: a request shows its answer, and one that is refused changes no more. -/
theorem request_answers : (d.request b).get R.GLB_MODE_REQ [] "STATUS" = d.answer b ∧ (d.request b).glb.mode = d.glb.mode ∧
    (d.answer b ≠ 2 → (d.request b).glb = d.glb) := by
  unfold Dev.request Dev.answer
  cases ht : d.glb.trans with
  | some m => exact ⟨get_reqStatus d (by decide), by simp, fun _ => reqStatus_glb _ _⟩
  | none =>
    cases hp : permitted d.glb.mode b with
    | false => exact ⟨get_reqStatus d (by decide), by simp, fun _ => reqStatus_glb _ _⟩
    | true =>
      cases hr : d.refusal b with
      | none => exact ⟨get_reqStatus _ (by decide), by simp, fun h => absurd rfl h⟩
      | some c =>
        have hc : c < 16 := by rcases refusal_codes hr with rfl | rfl | rfl <;> decide
        exact ⟨get_reqStatus d hc, by simp, fun _ => reqStatus_glb _ _⟩

end

/-! ## What the answer rests on -/

theorem ixOk_macIx {l : Nat} (h : l < 64) : ixOk R.SDS_CTL.dims (macIx l) = true := by
  simp only [R.SDS_CTL, macIx, ixOk, Bool.and_eq_true, Bool.and_true, decide_eq_true_eq]
  omega

section
variable (d : Dev) (f : String) (v : Nat)

theorem boot_put_modeReq (g : String) : (d.put R.GLB_MODE_REQ [] f v).boot g = d.boot g := by
  have hclear : R.GLB_MODE_REQ.clear R.GLB_BOOT_STATUS = true := by decide +kernel
  simp only [Dev.boot, Dev.bit, d.get_put_ne f g v (apart_of_clear hclear (ix := []) (jx := []) rfl rfl)]

theorem testing_put_modeReq : (d.put R.GLB_MODE_REQ [] f v).testing = d.testing := by
  have hctl : R.GLB_MODE_REQ.clear R.SDS_CTL = true := by decide +kernel
  have hprbs : R.GLB_MODE_REQ.clear R.SDS_PRBS_CTL = true := by decide +kernel
  unfold Dev.testing
  rw [Bool.eq_iff_iff, List.any_eq_true, List.any_eq_true]
  refine exists_congr fun l => and_congr_right fun hl => ?_
  have hix := ixOk_macIx (List.mem_range.mp hl)
  simp only [Dev.bit, d.get_put_ne f _ v (apart_of_clear hctl (ix := []) rfl hix), d.get_put_ne f _ v (apart_of_clear hprbs (ix := []) rfl hix)]

/-- R57: the preconditions do not rest on GLB_MODE_REQ. -/
theorem refusal_put_modeReq (b : Mode) : (d.put R.GLB_MODE_REQ [] f v).refusal b = d.refusal b := by
  simp only [Dev.refusal, Dev.put_glb, boot_put_modeReq, testing_put_modeReq]

theorem answer_put_modeReq (b : Mode) : (d.put R.GLB_MODE_REQ [] f v).answer b = d.answer b := by
  simp only [Dev.answer, Dev.put_glb, refusal_put_modeReq]

end

/-- R56: the nine transitions that a host may request (log entry 113). -/
theorem permitted_cases {a b : Mode} (h : permitted a b = true) :
    a = .enrol ∧ b = .load ∨ a = .load ∧ b = .run ∨ a = .load ∧ b = .proof ∨ a = .proof ∧ b = .load ∨ a = .run ∧ b = .drain ∨
      a = .drain ∧ b = .run ∨ a = .drain ∧ b = .load ∨ a = .drain ∧ b = .rest ∨ a = .rest ∧ b = .run := by
  simpa only [permitted, List.contains_iff_mem, List.mem_cons, List.not_mem_nil, or_false, Prod.mk.injEq] using h

/-- R57: the STATUS of a permitted transition by its preconditions: FORME, then TRAIN, then the others, or accepted. -/
def Dev.precondition (d : Dev) (b : Mode) : Nat :=
  let a := d.glb.mode
  if a == .load && b == .run && !d.boot "FORME_OK" then 6
  else if a == .load && !d.boot "TRAIN_DONE" then 7
  else if (a == .enrol && !d.boot "ENROL_DONE") || (a == .drain && b != .run && !d.boot "DRAIN_DONE") || (a == .proof && d.testing) then 5
  else 2

/-- R56, R57: what a permitted transition needs, transition by transition. -/
theorem refusal_precondition {d : Dev} {b : Mode} (h : permitted d.glb.mode b = true) : (d.refusal b).getD 2 = d.precondition b := by
  unfold Dev.refusal Dev.precondition
  rcases permitted_cases h with ⟨ha, rfl⟩ | ⟨ha, rfl⟩ | ⟨ha, rfl⟩ | ⟨ha, rfl⟩ | ⟨ha, rfl⟩ | ⟨ha, rfl⟩ | ⟨ha, rfl⟩ | ⟨ha, rfl⟩ | ⟨ha, rfl⟩ <;>
    rw [ha]
  · cases d.boot "ENROL_DONE" <;> rfl
  · cases d.boot "FORME_OK" <;> cases d.boot "TRAIN_DONE" <;> rfl
  · cases d.boot "TRAIN_DONE" <;> rfl
  · cases d.testing <;> rfl
  · rfl
  · rfl
  · cases d.boot "DRAIN_DONE" <;> rfl
  · cases d.boot "DRAIN_DONE" <;> rfl
  · rfl

/-- R57: the order of the values. -/
theorem answer_eq (d : Dev) (b : Mode) :
    d.answer b = if d.glb.trans.isSome then 3 else if !permitted d.glb.mode b then 4 else d.precondition b := by
  unfold Dev.answer
  cases hp : permitted d.glb.mode b with
  | false => rfl
  | true => rw [refusal_precondition hp]; rfl

/-- Settles O43: the write submits the request, and the answer does not rest on the TARGET that it names. -/
theorem aModeRequestIsAnsweredInOrder : Obligations.AModeRequestIsAnsweredInOrder := by
  intro s p v ht hgo hflush a b listed code
  have hcode : (s.dev.put R.GLB_MODE_REQ [] "TARGET" (v.toNat % 8)).answer b = code :=
    (answer_put_modeReq _ _ _ b).trans (answer_eq s.dev b)
  obtain ⟨hstatus, hmode, hglb⟩ := request_answers (d := s.dev.put R.GLB_MODE_REQ [] "TARGET" (v.toNat % 8)) (b := b)
  rw [hcode] at hstatus hglb
  rw [Dev.put_glb] at hmode hglb
  exact ⟨_, modeRequest_runs ht hgo hflush, hstatus, hmode, hglb⟩

end Sys2Proof.Machine
end

section
/-! SUPPORT. Resets, heat and boot (R61–R68, R655, R657, R693, R698, R708): when each command acts, and what a thermal trip leaves. -/

namespace Sys2Proof.Machine

/-! ## Resets of the package -/

section
variable {d : Dev} {p : Path} {v : Nat}

/-- R64: CONFIRM is the upper half of the word. -/
theorem confirm_eq (h : v < 2 ^ 32) : bitsOf v 31 16 = v / 2 ^ 16 := by
  rw [bitsOf_eq]
  omega

/-- R64: PKG is bit 0. -/
theorem hasBit_zero (h : v % 2 = 1) : hasBit v 0 = true := by
  simp only [hasBit, beq_iff_eq]
  omega

/-- R64: PKG = 1 with the right CONFIRM resets the package. -/
theorem resetWrite_confirmed (hpkg : v % 2 = 1) (hc : bitsOf v 31 16 = 0x5A17) : d.resetWrite p v = d.packageReset 2 false := by
  simp only [Dev.resetWrite, hasBit_zero hpkg, hc, Bool.not_true, Bool.false_eq_true, if_false, if_true]

/-- R64: PKG = 1 with another CONFIRM is reported. -/
theorem resetWrite_refused (hpkg : v % 2 = 1) (hc : bitsOf v 31 16 ≠ 0x5A17) :
    d.resetWrite p v = d.hostAcc p 3 (R.GLB_RESET.addr []) v true := by
  simp only [Dev.resetWrite, hasBit_zero hpkg, hc, Bool.not_true, Bool.false_eq_true, if_false]

/-- R693: a rail that fails puts a part in COLD that no trip holds. -/
theorem railLow_holds (h : d.glb.hold ≠ .thermal) : d.railLow.glb.mode = .cold ∧ d.railLow.glb.hold = .rails ∧ d.railLow.glb.prev = d.glb.mode ∧
    d.railLow.tim.running = false := by
  rw [Dev.railLow, if_neg h]
  exact ⟨rfl, rfl, rfl, rfl⟩

/-- R693: the end of a hold by the rails is a power-on. -/
theorem railBack_rails (h : d.glb.hold = .rails) (refSel : Bool) : d.railBack refSel = d.powerOn refSel := by
  rw [Dev.railBack, if_pos h]

/-- R61: PORESET_N resets a part that nothing holds. -/
theorem pinReset_free (h : d.glb.hold = .none) (refSel : Bool) : d.pinReset refSel = (d.packageReset 1 false).strap refSel := by
  rw [Dev.pinReset, h]

/-- R698: PORESET_N does not release a part that is held hot. -/
theorem pinReset_hot (h : d.glb.hold = .thermal) (hc : d.cool = false) (refSel : Bool) : d.pinReset refSel = d := by
  rw [Dev.pinReset, h]
  simp only [hc, Bool.false_eq_true, if_false]

/-- R698: a hold does not end while a die reads 100 °C or more. -/
theorem not_cool (h : 100 ≤ d.glb.die0 ∨ 100 ≤ d.glb.die1) : d.cool = false := by
  rcases h with h | h <;> simp [Dev.cool, show ¬ _ < (100 : Int) from Int.not_lt.mpr h]

end

theorem hostPackageReset_runs {s : State} {p : Path} {v : Word} (ht : s.dev.takes p R.GLB_RESET [] v.toNat = true) :
    exec (.hostPackageReset p v) s = .next { s with dev := s.dev.resetWrite p v.toNat } := by
  rw [exec_hostPackageReset, execHostPackageReset, within_pos rfl, hostWrite_reset ht]

/-! ## Heat -/

/-- The part with a sample of its die sensors. -/
def Dev.sampled (d : Dev) (t0 t1 : Int) : Dev := { d with glb := { d.glb with die0 := t0, die1 := t1 } }

section
variable {d : Dev} {t0 t1 : Int}

/-- R699: a sample below the trip moves the alert pin alone. -/
theorem dieSample_alert (hm : d.glb.mode ≠ .cold) (h0 : t0 < 115) (h1 : t1 < 115) : d.dieSample t0 t1 = (d.sampled t0 t1).alertPin := by
  have hcool : ¬ (t0 ≥ 115 ∨ t1 ≥ 115) := by omega
  simp only [Dev.dieSample, hm, if_false, Bool.or_eq_true, decide_eq_true_eq, hcool, Dev.sampled]

/-- R698: a sample of 115 °C or more trips the part. -/
theorem dieSample_trip (hm : d.glb.mode ≠ .cold) (h : 115 ≤ t0 ∨ 115 ≤ t1) : d.dieSample t0 t1 = (d.sampled t0 t1).thermalTrip := by
  simp only [Dev.dieSample, hm, if_false, Bool.or_eq_true, decide_eq_true_eq, ge_iff_le, h, if_true, Dev.sampled]

end

/-- Sensor samples that the part can read. -/
theorem dieSensorSample_runs {t0 t1 : Int} (l0 : -128 ≤ t0) (h0 : t0 ≤ 127) (l1 : -128 ≤ t1) (h1 : t1 ≤ 127) (s : State) :
    exec (.dieSensorSample t0 t1) s = .next { s with dev := s.dev.dieSample t0 t1 } := by
  rw [exec_dieSensorSample, execDieSensorSample, within_pos (by simp only [l0, h0, l1, h1, decide_true, Bool.and_self])]

/-! ## What a trip leaves -/

/-- Fields of MEM_STACK_STAT written stack by stack leave what stands elsewhere. -/
theorem foldl_stackStat_frame {α : Type} {P : Dev → α} {f : String} {g : Nat → Nat}
    (hP : ∀ (x : Dev) (s v : Nat), s < 6 → P (x.put R.MEM_STACK_STAT [s / 3, s % 3] f v) = P x) (d : Dev) :
    P ((List.range 6).foldl (fun c s => c.put R.MEM_STACK_STAT [s / 3, s % 3] f (g s)) d) = P d :=
  List.foldlRecOn (motive := fun x : Dev => P x = P d) _ _ rfl fun x hx s hs => (hP x s _ (List.mem_range.mp hs)).trans hx

theorem ixOk_stack {s : Nat} (h : s < 6) : ixOk R.MEM_STACK_STAT.dims [s / 3, s % 3] = true := by
  simp only [R.MEM_STACK_STAT, ixOk, Bool.and_eq_true, Bool.and_true, decide_eq_true_eq]
  omega

section
variable (d : Dev)

theorem fuses_glb (g : GlbS) : ({ d with glb := g }).fuses = d.fuses := rfl

theorem get_glb (g : GlbS) (r : RegSpec) (ix : List Nat) (f : String) : ({ d with glb := g }).get r ix f = d.get r ix f := rfl

/-- R650: a field written leaves the one-time-programmable memory. -/
theorem fuses_put (r : RegSpec) (ix : List Nat) (f : String) (v : Nat) : (d.put r ix f v).fuses = d.fuses := by
  rw [Dev.fuses, Dev.put_sec, Dev.fuses]

/-- R61, R650: COLD keeps the one-time-programmable memory. -/
theorem packageReset_fuses (cause : Nat) (power : Bool) : (d.packageReset cause power).fuses = d.fuses := by
  rw [Dev.packageReset, fuses_put, fuses_put, Dev.cleared, fuses_put]
  rfl

/-- R65: a reset leaves its cause. -/
theorem packageReset_cause {cause : Nat} (h : cause < 8) (power : Bool) : (d.packageReset cause power).get R.GLB_RESET_CAUSE [] "CAUSE" = cause := by
  have hclear : R.GAL_STAT.clear R.GLB_RESET_CAUSE = true := by decide +kernel
  rw [Dev.packageReset, Dev.get_put_ne _ _ _ _ (apart_of_clear hclear (ix := []) (jx := []) rfl rfl),
    Dev.get_put_same _ _ _ (g := fl "CAUSE" 2 0 .ro) rfl (by decide) (by decide)]
  exact Nat.mod_eq_of_lt h

/-- R698: a trip keeps the one-time-programmable memory. -/
theorem thermalTrip_fuses : d.thermalTrip.fuses = d.fuses := by
  rw [Dev.thermalTrip, fuses_glb, foldl_stackStat_frame (P := Dev.fuses) (fun x _ _ _ => fuses_put x _ _ _ _), packageReset_fuses]

/-- R698: the cause of a trip is thermal. -/
theorem thermalTrip_cause : d.thermalTrip.get R.GLB_RESET_CAUSE [] "CAUSE" = 4 := by
  have hclear : R.MEM_STACK_STAT.clear R.GLB_RESET_CAUSE = true := by decide +kernel
  rw [Dev.thermalTrip, get_glb, foldl_stackStat_frame (P := fun x : Dev => x.get R.GLB_RESET_CAUSE [] "CAUSE")
    (fun x _ _ hs => x.get_put_ne _ _ _ (apart_of_clear hclear (ixOk_stack hs) rfl)), packageReset_cause d (by decide)]

/-- R698: a trip holds the part in COLD, with the readings that made it. -/
theorem thermalTrip_holds : d.thermalTrip.glb.mode = .cold ∧ d.thermalTrip.glb.hold = .thermal ∧ d.thermalTrip.glb.trip = true ∧
    d.thermalTrip.glb.die0 = d.glb.die0 ∧ d.thermalTrip.glb.die1 = d.glb.die1 := ⟨rfl, rfl, rfl, rfl, rfl⟩

end

/-- R657: a part in ENROL whose imprint is not yet tested derives and tests it. -/
theorem imprint_enrol {d : Dev} (hm : d.glb.mode = .enrol) (hdone : d.boot "ENROL_DONE" = false) :
    d.imprint =
      let d := { d with sec := { d.sec with pk := sliceB (Config.slhPublic d.sec.seed) 0 64 } }
      if d.sec.imp16 = d.sec.impChk then d.put R.GLB_BOOT_STATUS [] "ENROL_DONE" 1 else d.put R.GLB_BOOT_STATUS [] "CODE" 4 := by
  rw [Dev.boot] at hdone
  simp only [Dev.imprint, hm, hdone, bne_self_eq_false, Bool.or_self, Bool.false_eq_true, if_false]

/-- Settles O46: the sample trips the part, and the readings that did so keep it from a release. -/
theorem aThermalTripHoldsThePartInCold : Obligations.AThermalTripHoldsThePartInCold := by
  intro s t0 t1 l0 h0 l1 h1 hot hm
  obtain ⟨hmode, hhold, htrip, hd0, hd1⟩ := thermalTrip_holds (s.dev.sampled t0 t1)
  have hrun := dieSensorSample_runs l0 h0 l1 h1 s
  rw [dieSample_trip hm hot] at hrun
  refine ⟨_, hrun, hmode, hhold, htrip, thermalTrip_cause _, thermalTrip_fuses _, fun r => ?_⟩
  have hread : 100 ≤ (s.dev.sampled t0 t1).thermalTrip.glb.die0 ∨ 100 ≤ (s.dev.sampled t0 t1).thermalTrip.glb.die1 := by
    rw [hd0, hd1]
    exact hot.imp (by simp only [Dev.sampled]; omega) (by simp only [Dev.sampled]; omega)
  refine ⟨_, (exec_pinReset r _).trans (within_pos rfl _ _), ?_⟩
  rw [pinReset_hot hhold (not_cool hread)]
  exact hmode

/-- Settles O7: each command's condition makes it act, and the operations say what it does. -/
theorem resetsHeatAndBootComplete : Obligations.ResetsHeatAndBootComplete := by
  intro s p refSel v t0 t1 ep speed width mem bus kind flash
  refine ⟨?_, fun hhold => ?_, fun ht hpkg hconf => ?_, fun hhold => ?_, fun hhold => ?_, fun l0 h0 l1 h1 hm => ?_, fun l0 h0 l1 h1 hot hm => ?_,
    fun hep => ?_, fun hlink => ?_, fun hlen => ?_, fun hm hdone => ?_⟩
  · rw [exec_powerOnReset, execPowerOnReset, within_pos rfl, Dev.powerOn]
  · rw [exec_pinReset, execPinReset, within_pos rfl, pinReset_free hhold]
  · rw [hostPackageReset_runs ht, resetWrite_confirmed hpkg ((confirm_eq v.isLt).trans hconf)]
  · exact ⟨_, (exec_railUndervoltage s).trans (within_pos rfl s _), railLow_holds hhold⟩
  · rw [exec_railRecovered, execRailRecovered, within_pos rfl, railBack_rails hhold, Dev.powerOn]
  · rw [dieSensorSample_runs l0 (by omega) l1 (by omega), dieSample_alert hm h0 h1, Dev.sampled]
  · rw [dieSensorSample_runs l0 h0 l1 h1, dieSample_trip hm hot, Dev.sampled]
  · rw [exec_pcieReset, execPcieReset, within_pos ((below_iff _ _).mpr hep)]
  · rw [exec_pcieEndpointReady, execPcieEndpointReady, within_pos hlink]
  · rw [exec_bootVerifyComplete, execBootVerifyComplete, within_pos ((below_iff _ _).mpr hlen)]
  · rw [exec_imprintSelfTest, execImprintSelfTest, within_pos rfl, imprint_enrol hm hdone]

end Sys2Proof.Machine
end

section
/-! SUPPORT. Writes that are refused (R64, R77, R626, R649): each leaves the part but for the report of a host access error. -/

namespace Sys2Proof.Machine

theorem placed_GAL_KEY : R.GAL_KEY.placed = true := by decide +kernel

theorem ixOk_key {n : Nat} (h : n < 8) : ixOk R.GAL_KEY.dims [n] = true := by
  simp only [R.GAL_KEY, ixOk, Bool.and_eq_true, Bool.and_true, decide_eq_true_eq]
  omega

theorem placed_mem {r : RegSpec} (h : r.placed = true) : r ∈ R.all := by
  simp only [RegSpec.placed, Bool.and_eq_true, List.contains_iff_mem] at h
  obtain ⟨⟨⟨hmem, -⟩, -⟩, -⟩ := h
  exact hmem

/-- No other register of the map shares a byte with a placed register. -/
theorem placed_clear {r q : RegSpec} (h : r.placed = true) (hq : q ∈ R.all) (hne : q ≠ r) : r.clear q = true := by
  simp only [RegSpec.placed, Bool.and_eq_true] at h
  obtain ⟨⟨⟨-, halone⟩, -⟩, -⟩ := h
  simpa [hne] using List.all_eq_true.mp halone q hq

/-- A register of one word set to what it reads leaves every register as it reads. -/
theorem getW_setW_getW {r : RegSpec} (h : r.placed = true) (hw : r.wide = false) {ix : List Nat} (hi : ixOk r.dims ix = true) (d : Dev) {q : RegSpec}
    (hq : q ∈ R.all) {jx : List Nat} (hj : ixOk q.dims jx = true) : (d.setW r ix (d.getW r ix)).getW q jx = d.getW q jx := by
  by_cases hqr : q = r
  · subst hqr
    by_cases hji : jx = ix
    · rw [hji, Dev.getW_setW_same, Nat.mod_eq_of_lt (d.getW_lt q ix)]
    · exact d.getW_setW_ne _ (apart_of_ne h hw hi hj (Ne.symm hji))
  · exact d.getW_setW_ne _ (apart_of_clear (placed_clear h hq hqr) hi hj)

/-- R14: a register write with which the part sets no W1C bit differs from the host write in the register file alone, and there in no value. -/
theorem registerWrite_rewrites {r : RegSpec} (h : r.placed = true) (hw : r.wide = false) {ix : List Nat} (hi : ixOk r.dims ix = true) (d : Dev) (p : Path)
    (v : Word) : ∃ m, d.registerWrite p (r.addr ix) v 0#32 = { d.hostWrite p (r.addr ix) v with regs := m } ∧
      ∀ q jx, q ∈ R.all → ixOk q.dims jx = true → ({ d with regs := m }).getW q jx = (d.hostWrite p (r.addr ix) v).getW q jx := by
  rw [registerWrite_eq (placed_findReg h hi) rfl, show (0#32 : Word).toNat = 0 from rfl, setByPart_zero]
  split
  · exact ⟨_, rfl, fun _ _ _ _ => rfl⟩
  · exact ⟨_, rfl, fun q jx hq hj => getW_setW_getW h hw hi _ hq hj⟩

/-- R626: a write that nothing holds back, of no register or of a stopped block, is reported. -/
theorem hostWrite_refused {d : Dev} {p : Path} {off t : Nat} (hr : d.reaches p = true) (hb : d.behind p off = false) (he : d.accErr off = some t)
    (v : Word) : d.hostWrite p off v = d.hostAcc p t off v.toNat true := by
  simp only [Dev.hostWrite, hr, hb, Dev.doWrite, he, Bool.not_true, Bool.false_eq_true, if_false]

/-- Where no register stands, the part sets no bit with a write. -/
theorem registerWrite_nowhere {d : Dev} {off : Nat} (h : findReg off = none) (p : Path) (v hw : Word) : d.registerWrite p off v hw = d.hostWrite p off v := by
  simp only [Dev.registerWrite, h]

/-- R649: a write of a register that its LOCK holds is reported. -/
theorem regWrite_locked {d : Dev} {h : Hit} (hw : h.r.wide = false) (hc : d.credLocked h.r = true) (p : Path) (off v : Nat) :
    d.regWrite p off v h = d.hostAcc p 1 off v true := by
  have hdrop : d.dropStaged p h = d := by
    simp only [Dev.dropStaged, hw, Bool.false_and, Bool.false_eq_true, if_false]
    split <;> rfl
  simp only [Dev.regWrite, hdrop, hc, if_true]

/-- R13: a placed register that is shown is reached. -/
theorem reached_of_shows {d : Dev} {p : Path} {r : RegSpec} {ix : List Nat} (h : r.placed = true) (hi : ixOk r.dims ix = true) (hb : r.addr ix < 2 ^ 27)
    (hs : d.shows p r ix = true) : Reached d p (r.addr ix) ⟨r, ix, false⟩ :=
  ⟨hb, placed_aperOf h hi, placed_findReg h hi, rfl, rfl, hs⟩

theorem addr_key_lt {n : Nat} (h : n < 8) : R.GAL_KEY.addr [n] < 2 ^ 27 := by
  have haddr : R.GAL_KEY.addr [n] = 0x400010 + n * 4 := rfl
  omega

/-- R649: a write of a locked galley key is reported. -/
theorem hostWrite_lockedKey {d : Dev} {p : Path} {n : Nat} (hn : n < 8) (hs : d.shows p R.GAL_KEY [n] = true) (hl : d.bit R.GAL_CRED_CTL [] "LOCK" = true)
    (hm : d.mustHold ⟨R.GAL_KEY, [n], false⟩ = false) (v : Word) :
    d.hostWrite p (R.GAL_KEY.addr [n]) v = d.hostAcc p 1 (R.GAL_KEY.addr [n]) v.toNat true := by
  have hlocked : d.credLocked R.GAL_KEY = true := hl
  rw [(reached_of_shows placed_GAL_KEY (ixOk_key hn) (addr_key_lt hn) hs).hostWrite hm, regWrite_locked rfl hlocked]

theorem flush_runs (s : State) (p : Path) : exec (.flush p) s = .next { s with dev := s.dev.hostSet p R.GLB_MODE_REQ [] "FLUSH" } := by
  rw [exec_flush, execFlush, within_pos rfl]

/-- Settles O41: each write comes to its refusal, by its own rule. -/
theorem refusedWritesOnlyReport : Obligations.RefusedWritesOnlyReport := by
  intro s p v off t n
  refine ⟨fun ht hpkg hconf => ?_, fun ht hm => ?_, fun hoff hr hb he hf => ?_, fun hn hs hl hm => ?_⟩
  · rw [hostPackageReset_runs ht, resetWrite_refused hpkg (confirm_eq v.isLt ▸ hconf)]
  · rw [flush_runs, hostSet_flush ht, if_neg hm]
  · rw [registerWrite_runs hoff, registerWrite_nowhere hf, hostWrite_refused hr hb he]
  · obtain ⟨m, hwrite, hsame⟩ := registerWrite_rewrites placed_GAL_KEY rfl (ixOk_key hn) s.dev p v
    rw [hostWrite_lockedKey hn hs hl hm] at hwrite hsame
    exact ⟨m, by rw [registerWrite_runs (addr_key_lt hn), hwrite], hsame⟩

end Sys2Proof.Machine
end

section
/-! SUPPORT. Transitions of the mode (R71–R83, R102, R107, R519, R709): each acts while it is in progress, and enters its mode. -/

namespace Sys2Proof.Machine

/-! ## Transitions in progress -/

section
variable {d : Dev} {a b : Mode}

/-- R709: a transition in progress completes with its effect. -/
theorem complete_moving (h : d.moving a b = true) (f : Dev → Dev) : d.complete_ a b f = f (d.enter b) := by
  rw [Dev.complete_, if_pos h]

/-- R107: a transition that waited and whose precondition holds starts. -/
theorem startDeferred_starts (ht : d.glb.trans = some b) (hd : d.glb.deferred = true) (hl : d.glb.loader.state = 0) (hr : d.refusal b = none) :
    d.startDeferred = { d with glb := { d.glb with deferred := false } } := by
  simp [Dev.startDeferred, ht, hd, hl, hr]

/-- R83: PROOF is left for LOAD once every test has stopped. -/
theorem proofToLoad_moving (h : d.moving .proof .load = true) (ht : d.testing = false) : d.proofToLoad = (d.enter .load).formeDiscard := by
  rw [Dev.proofToLoad, ht, complete_moving h]
  rfl

/-- R81: REST is left for RUN when every read eye is recentred. -/
theorem restToRun_moving (h : d.moving .rest .run = true) : d.restToRun none =
    let d := ((d.enter .run).srefTrace 7).thaw.sref 0
    { d with flw := { d.flw with hint := [] } }.startPorts := by
  simp only [Dev.restToRun, h, Bool.not_true, Bool.false_eq_true, if_false]

/-- R709: the mode of a transition that completes is the one that it names. -/
theorem enter_mode : (d.enter b).glb.mode = b := by
  simp only [Dev.enter, Dev.endTrans, Dev.msix_glb, reqStatus_glb]

end

/-! ## PAUSE on every port leaves the modes (R73, R466, R552) -/

section
variable (d : Dev) (p c : Nat)

@[simp] theorem trcDrain_glb (k n : Nat) : (Dev.trcDrain k n d).glb = d.glb := by
  obtain ⟨m, h⟩ := (Dev.trcDrain_frame k n d).rest
  rw [h]

@[simp] theorem trcArrive_glb (k : Nat) (x : TrcRec) : (d.trcArrive k x).glb = d.glb := by
  unfold Dev.trcArrive
  dsimp only
  split
  · simp only [Dev.bump, Dev.put_glb, trcDrain_glb, Dev.fresh_glb]
  · simp only [trcDrain_glb, Dev.fresh_glb]

@[simp] theorem trace_glb (k src typ : Nat) (pay : List Byte) (sel : Bool) (code : Option Nat) : (d.trace k src typ pay sel code).glb = d.glb := by
  unfold Dev.trace
  dsimp only
  split
  · split
    · exact trcArrive_glb _ _ _
    · rfl
  · rfl

theorem foldl_glb {α : Type} {f : Dev → α → Dev} (hf : ∀ d a, (f d a).glb = d.glb) (l : List α) : (l.foldl f d).glb = d.glb :=
  List.foldlRecOn (motive := fun x : Dev => x.glb = d.glb) l f rfl fun x hx a _ => (hf x a).trans hx

@[simp] theorem sendCtl_glb (cnt : Nat) (body : List Byte) : (d.sendCtl p cnt body).glb = d.glb := by
  unfold Dev.sendCtl
  split
  · rfl
  · dsimp only
    split <;> simp only [Dev.updEgr_glb, Dev.fresh_glb]

@[simp] theorem accruePort_glb : (d.accruePort p).glb = d.glb := by
  unfold Dev.accruePort
  split
  · rfl
  · simp only [Dev.put_glb, Dev.updEgr_glb]

@[simp] theorem accrueQ_glb : (d.accrueQ p c).glb = d.glb := by
  unfold Dev.accrueQ
  split
  · rfl
  · simp only [Dev.put_glb, Dev.updEgr_glb]

@[simp] theorem accrueAll_glb : (d.accrueAll p).glb = d.glb :=
  (foldl_glb _ (fun d c => accrueQ_glb d p c) _).trans (accruePort_glb d p)

@[simp] theorem countHeld_glb : (d.countHeld p c).glb = d.glb := by
  unfold Dev.countHeld
  dsimp only
  split
  · split
    · simp only [Dev.bump, Dev.put_glb, Dev.updEgr_glb]
    · rfl
  · rfl

@[simp] theorem setDeficit_glb (v : Int) : (d.setDeficit p c v).glb = d.glb := d.put_glb _ _ _ _

@[simp] theorem pickDrr_glb (inD elig : Nat → Bool) (n : Nat) : (Dev.pickDrr p inD elig n d).1.glb = d.glb := by
  induction n generalizing d with
  | zero => rfl
  | succ n ih =>
    unfold Dev.pickDrr
    dsimp only
    repeat' split
    all_goals simp only [ih, setDeficit_glb, Dev.updEgr_glb]

@[simp] theorem pickClass_glb (elig : Nat → Bool) : (d.pickClass p elig).1.glb = d.glb := by
  unfold Dev.pickClass
  dsimp only
  split
  · rfl
  · exact pickDrr_glb _ _ _ _ _

@[simp] theorem setEq_glb (q : Nat) (l : List QEnt) : (d.setEq q l).glb = d.glb := by
  simp only [Dev.setEq, Dev.put_glb]

@[simp] theorem sampleDelay_glb (q : Nat) (e : QEnt) : (d.sampleDelay q e).glb = d.glb := by
  unfold Dev.sampleDelay
  dsimp only
  repeat' split
  all_goals simp only [Dev.put_glb]

@[simp] theorem charge_glb (len : Int) : (d.charge p c len).glb = d.glb := by
  unfold Dev.charge
  dsimp only
  repeat' split
  all_goals simp only [Dev.put_glb, Dev.updEgr_glb]

@[simp] theorem leaveQ_glb (e : QEnt) (l : List QEnt) : (d.leaveQ p c e l).glb = d.glb := by
  simp only [Dev.leaveQ, trace_glb, charge_glb, sampleDelay_glb, setEq_glb]

@[simp] theorem flightStart_glb (q : Nat) (e : QEnt) : (d.flightStart q e).glb = d.glb := by
  unfold Dev.flightStart
  split <;> rfl

@[simp] theorem startTx_glb : (d.startTx p c).glb = d.glb := by
  unfold Dev.startTx
  split
  · rfl
  · simp only [Dev.updEgr_glb, flightStart_glb, leaveQ_glb]

@[simp] theorem select_glb : (d.select p).glb = d.glb := by
  unfold Dev.select
  dsimp only
  split
  · rfl
  · split
    · rfl
    · have hpick : ∀ elig, ((((List.range 8).foldl (fun d c => d.countHeld p c) (d.accrueAll p)).pickClass p elig).1).glb = d.glb := fun elig =>
        ((pickClass_glb _ p elig).trans (foldl_glb _ (fun d c => countHeld_glb d p c) _)).trans (accrueAll_glb d p)
      split
      · rename_i x c hx
        exact (startTx_glb _ p c).trans ((congrArg (fun y => y.1.glb) hx).symm.trans (hpick _))
      · rename_i x hx
        exact (congrArg (fun y => y.1.glb) hx).symm.trans (hpick _)

/-- R73: PAUSE sent on every port leaves modes and transitions. -/
@[simp] theorem pauseAll_glb : d.pauseAll.glb = d.glb := by
  refine foldl_glb d (fun x p => ?_) _
  split
  · exact (select_glb _ p).trans (sendCtl_glb x p _ _)
  · rfl

end

/-- R407: an edge on its way to its slot leaves modes and transitions. -/
@[simp] theorem lineEdge_glb (d : Dev) (k n : Nat) : (d.lineEdge k n).glb = d.glb := rfl

/-- R73, R76: RUN is left for DRAIN, whose time limit is taken. -/
theorem runToDrain_mode {d : Dev} (h : d.moving .run .drain = true) : d.runToDrain.glb.mode = .drain := by
  have hedges : ∀ (x : Dev) (n : Nat), (({ x with glb := { x.glb with drainTmo := n } }.lineEdge 0 11).lineEdge 1 11).glb.mode = x.glb.mode :=
    fun _ _ => rfl
  rw [Dev.runToDrain, complete_moving h]
  dsimp only
  split
  · rw [pauseAll_glb, hedges, enter_mode]
  · rw [hedges, enter_mode]

/-- Settles O8: a request that nothing refuses is accepted, and a transition in progress completes with its effect. -/
theorem modeTransitionsComplete : Obligations.ModeTransitionsComplete := by
  intro s p v w b
  refine ⟨fun ht hgo hflush hnone => ?_, rfl, fun ht hm => ?_, fun ht hd hl hr => ?_, fun h => ?_, fun h => ?_, fun h => ?_, fun h htest => ?_,
    fun h => ⟨?_, runToDrain_mode h⟩, fun h => ?_, fun h => ?_, fun h => ?_, fun h => ?_⟩
  · intro d hperm href
    have hglb : d.glb = s.dev.glb := Dev.put_glb _ _ _ _ _
    rw [modeRequest_runs ht hgo hflush, request_accepted (d := d) (by rw [hglb, hnone]) (by rw [hglb, hperm]) href, Dev.reqStatus]
  · rw [flush_runs, hostSet_flush ht, if_pos hm]
  · rw [exec_deferredTransitionStart, execDeferredTransitionStart, within_pos rfl, startDeferred_starts ht hd hl hr]
  · rw [exec_enrolToLoad, execEnrolToLoad, within_pos rfl, Dev.toLoad, complete_moving h, id]
  · rw [exec_loadToRun, execLoadToRun, within_pos rfl, Dev.loadToRun, complete_moving h]
  · rw [exec_loadToProof, execLoadToProof, within_pos rfl, Dev.loadToProof, complete_moving h, id]
  · rw [exec_proofToLoad, execProofToLoad, within_pos rfl, proofToLoad_moving h htest]
  · rw [exec_runToDrain, execRunToDrain, within_pos rfl]
  · rw [exec_drainToRun, execDrainToRun, within_pos rfl, Dev.drainToRun, complete_moving h, id]
  · rw [exec_drainToLoad, execDrainToLoad, within_pos rfl, Dev.drainToLoad, complete_moving h]
  · rw [exec_drainToRest, execDrainToRest, within_pos rfl]
  · rw [exec_restToRun, execRestToRun, within_pos rfl, restToRun_moving h]

end Sys2Proof.Machine
end

section
/-! SUPPORT. The end of DRAIN (R73, R75, R76) and the training of the stacks (R516, R517). -/

namespace Sys2Proof.Machine

/-! ## DRAIN -/

section
variable {d : Dev}

/-- R75: DRAIN is done once everything is empty. -/
theorem drainDone_drained (hm : d.glb.mode = .drain) (h : d.drained = true) : d.drainDone = d.put R.GLB_BOOT_STATUS [] "DRAIN_DONE" 1 := by
  simp only [Dev.drainDone, hm, h, decide_true, Bool.and_self, if_true]

/-- R76: DRAIN is stuck once its time limit has passed. -/
theorem drainTimeout_stuck (hm : d.glb.mode = .drain) (ht : d.glb.drainTmo ≠ 0) (hd : d.boot "DRAIN_DONE" = false) (hs : d.boot "DRAIN_STUCK" = false) :
    d.drainTimeout = (d.put R.GLB_BOOT_STATUS [] "DRAIN_STUCK" 1).errEvent (mkEvent 0 0x02 0 2 1 []) := by
  simp only [Dev.drainTimeout, hm, hd, hs, bne_iff_ne, ne_eq, ht, not_false_eq_true, decide_true, Bool.not_false, Bool.and_true, Bool.true_and, if_true]

/-- R73: the PAUSE of DRAIN is renewed where PAUSE_EN asks for it. -/
theorem pauseRenew_paused (hm : d.glb.mode = .drain) (h : d.bit R.GLB_DRAIN_CFG [] "PAUSE_EN" = true) : d.pauseRenew = d.pauseAll := by
  simp only [Dev.pauseRenew, hm, h, decide_true, Bool.and_self, if_true]

end

/-! ## TRAINED of a stack (R516) -/

/-- TRAINED of a stack. -/
def Dev.trainedBit (d : Dev) (s : Nat) : Bool := d.bit R.MEM_STACK_STAT [s / 3, s % 3] "TRAINED"

theorem placed_MEM_STACK_STAT : R.MEM_STACK_STAT.placed = true := by decide +kernel

theorem ixOk_channel {s c : Nat} (hs : s < 6) (hc : c < 16) : ixOk R.MEM_CH_STAT.dims [s / 3, s % 3 * 16 + c] = true := by
  simp only [R.MEM_CH_STAT, ixOk, Bool.and_eq_true, Bool.and_true, decide_eq_true_eq]
  omega

section
variable (d : Dev) {s j : Nat}

/-- R516: TRAINED of the channels is not TRAINED of a stack. -/
theorem trainedBit_channels (hs : s < 6) (hj : j < 6) :
    ((List.range 16).foldl (fun d c => d.put R.MEM_CH_STAT [s / 3, s % 3 * 16 + c] "TRAINED" 1) d).trainedBit j = d.trainedBit j := by
  have hclear : R.MEM_CH_STAT.clear R.MEM_STACK_STAT = true := by decide +kernel
  refine List.foldlRecOn (motive := fun x : Dev => x.trainedBit j = d.trainedBit j) _ _ rfl fun x hx c hc => ?_
  rw [← hx, Dev.trainedBit, Dev.bit, x.get_put_ne _ _ _ (apart_of_clear hclear (ixOk_channel hs (List.mem_range.mp hc)) (ixOk_stack hj))]
  rfl

/-- R516: a stack that passes shows TRAINED. -/
theorem stackTrained_same (hs : s < 6) : (d.stackTrained s).trainedBit s = true := by
  rw [Dev.stackTrained, trainedBit_channels _ hs hs, Dev.trainedBit, Dev.bit,
    d.get_put_same _ _ (g := fl "TRAINED" 31 31 .ro) rfl (by decide) (by decide)]
  rfl

/-- R516: a stack that passes leaves TRAINED of the others. -/
theorem stackTrained_other (hs : s < 6) (hj : j < 6) (hne : j ≠ s) : (d.stackTrained s).trainedBit j = d.trainedBit j := by
  have hix : [s / 3, s % 3] ≠ [j / 3, j % 3] := by
    simp only [ne_eq, List.cons.injEq, and_true]
    omega
  rw [Dev.stackTrained, trainedBit_channels _ hs hj, Dev.trainedBit, Dev.bit,
    d.get_put_ne _ _ _ (apart_of_ne placed_MEM_STACK_STAT rfl (ixOk_stack hs) (ixOk_stack hj) hix)]
  rfl

end

/-- R516: of the stacks that pass together each shows TRAINED. -/
theorem trainedBit_foldl {l : List Nat} (hl : ∀ s ∈ l, s < 6) {j : Nat} (hj : j < 6) (d : Dev) (h : j ∈ l ∨ d.trainedBit j = true) :
    (l.foldl Dev.stackTrained d).trainedBit j = true := by
  induction l generalizing d with
  | nil => exact h.resolve_left List.not_mem_nil
  | cons s l ih =>
    obtain ⟨hs, hl⟩ := List.forall_mem_cons.mp hl
    rw [List.foldl_cons]
    refine ih hl (d.stackTrained s) ?_
    rcases eq_or_ne j s with rfl | hjs
    · exact .inr (stackTrained_same d hs)
    · rw [stackTrained_other d hs hj hjs]
      exact h.imp_left fun hmem => (List.mem_cons.mp hmem).resolve_left hjs

/-- R516: a stack that trains when training passes shows TRAINED, whatever stopped beside it. -/
theorem trained_shows {d : Dev} {s : Nat} (hs : s < 6) (ht : d.training s = true) (rs : List LaneRepair) : (d.trained rs).trainedBit s = true := by
  have hmem : s ∈ (List.range 6).filter d.training := List.mem_filter.mpr ⟨List.mem_range.mpr hs, ht⟩
  have hpass : (((List.range 6).filter d.training).foldl Dev.stackTrained (d.repair rs)).trainedBit s = true :=
    trainedBit_foldl (fun j hj => List.mem_range.mp (List.mem_filter.mp hj).1) hs _ (.inl hmem)
  have hclear : R.GLB_BOOT_STATUS.clear R.MEM_STACK_STAT = true := by decide +kernel
  rw [Dev.trained, if_neg (by rw [List.isEmpty_iff]; exact List.ne_nil_of_mem hmem)]
  dsimp only
  split
  · rw [Dev.trainedBit, Dev.bit, Dev.get_put_ne _ _ _ _ (apart_of_clear hclear (ix := []) rfl (ixOk_stack hs))]
    exact hpass
  · exact hpass

/-! ## A stack that stops (R517) -/

section
variable {d : Dev} {s : Nat}

/-- R517: a stack whose training stopped does not train. -/
theorem not_training_of_failed (h : s ∈ d.hbm.failed) : d.training s = false := by
  simp only [Dev.training, List.contains_iff_mem.mpr h, Bool.not_true, Bool.and_false]

/-- R517: a stack that stops is among those that failed. -/
def Dev.failStack (d : Dev) (s : Nat) : Dev := { d with hbm := { d.hbm with failed := d.hbm.failed ++ [s] } }

theorem mem_failStack (x : Dev) : s ∈ (x.failStack s).hbm.failed := List.mem_append_right _ (List.mem_singleton_self s)

theorem failStack_frame (x : Dev) (m : HbmS) : { x.failStack s with hbm := m } = { x with hbm := m } := rfl

/-- R517: the training of a stack that trains stops, after the lanes repaired before it and its report. -/
theorem trainFail_training (h : d.training s = true) (f : TrainStop) (step code : Nat) :
    d.trainFail s f step code = ((d.repair f.repaired).trainEvent s step code f.chan).failStack s := by
  rw [Dev.trainFail, if_pos h, Dev.failStack]

/-- R517: of a stack that does not train nothing stops (log entries 4, 159). -/
theorem trainFail_idle (h : d.training s = false) (f : TrainStop) (step code : Nat) : d.trainFail s f step code = d := by
  simp only [Dev.trainFail, h, Bool.false_eq_true, if_false]

/-- R517: a stack that stops trains no more. -/
theorem trainFail_stops (h : d.training s = true) (f : TrainStop) (step code : Nat) : (d.trainFail s f step code).training s = false := by
  rw [trainFail_training h]
  exact not_training_of_failed (mem_failStack _)

/-- R517: a stack that stops changes no more outside the controllers than its repairs and its report do. -/
theorem trainFail_frame (h : d.training s = true) (f : TrainStop) (step code : Nat) (m : HbmS) :
    { d.trainFail s f step code with hbm := m } = { (d.repair f.repaired).trainEvent s step code f.chan with hbm := m } := by
  rw [trainFail_training h, failStack_frame]

end

theorem hbmTrainingFail_runs {stack st code : Nat} {stop : TrainStop} (h : trainStopOk stack stop st code = true) (s : State) :
    exec (.hbmTrainingFail stack stop st code) s = .next { s with dev := s.dev.trainFail stack stop st code } := by
  rw [exec_hbmTrainingFail, execHbmTrainingFail, within_pos h]

/-- Settles O9: DRAIN ends by its conditions, and the training of each stack is its own. -/
theorem drainAndTrainingComplete : Obligations.DrainAndTrainingComplete := by
  intro s repaired stack st code stop
  refine ⟨fun hm hd => ?_, fun hm ht hd hs => ?_, fun hm hp => ?_, fun hr hs ht => ⟨?_, trained_shows hs ht repaired⟩,
    fun hstop ht => ⟨_, hbmTrainingFail_runs hstop s, trainFail_stops ht stop st code, trainFail_frame ht stop st code _⟩, fun hstop ht => ?_⟩
  · rw [exec_drainComplete, execDrainComplete, within_pos rfl, drainDone_drained hm hd]
  · rw [exec_drainTimeout, execDrainTimeout, within_pos rfl, drainTimeout_stuck hm ht hd hs]
  · rw [exec_drainPauseRenew, execDrainPauseRenew, within_pos rfl, pauseRenew_paused hm hp]
  · rw [exec_hbmTrainingComplete, execHbmTrainingComplete, within_pos hr]
  · rw [hbmTrainingFail_runs hstop, trainFail_idle ht]

end Sys2Proof.Machine
end

section
/-! SUPPORT. A transition that waited for a forme delivery (R107) and is refused once the loader is idle. -/

namespace Sys2Proof.Machine

section
variable {d : Dev} {b : Mode} {c : Nat}

/-- R107: a transition that waited and whose precondition no longer holds ends with the STATUS of that precondition. -/
theorem startDeferred_refused (ht : d.glb.trans = some b) (hd : d.glb.deferred = true) (hl : d.glb.loader.state = 0) (hr : d.refusal b = some c) :
    d.startDeferred = d.endTrans c := by
  simp [Dev.startDeferred, ht, hd, hl, hr]

theorem refusal_lt (h : d.refusal b = some c) : c < 16 := by
  have hcodes := refusal_codes h
  omega

@[simp] theorem endTrans_glb : (d.endTrans c).glb = { d.glb with trans := none, deferred := false } := by
  rw [Dev.endTrans, Dev.msix_glb, reqStatus_glb]

theorem get_endTrans (h : c < 16) : (d.endTrans c).get R.GLB_MODE_REQ [] "STATUS" = c := get_reqStatus _ h

/-- R709: the end of a transition is signalled on the endpoint of die 0, by vector 57. -/
theorem endTrans_ep : (d.endTrans c).hif.ep = { d.hif.ep with d0 := d.hif.ep.d0.signal 57 } := by
  simp only [Dev.endTrans, Dev.msix, Dev.reqStatus, Dev.put_hif]
  rfl

end

/-- Settles O44: the refused transition ends as every transition does, with the failed precondition in STATUS. -/
theorem aDeferredRequestIsTestedAgain : Obligations.ADeferredRequestIsTestedAgain := by
  intro s b c ht hd hl hr
  refine ⟨{ s with dev := s.dev.endTrans c }, ?_, ?_, ?_, get_endTrans (refusal_lt hr), ?_, ?_⟩
  · rw [exec_deferredTransitionStart, execDeferredTransitionStart, within_pos rfl, startDeferred_refused ht hd hl hr]
  · rw [endTrans_glb]
  · rw [endTrans_glb]
  · rw [endTrans_ep]
  · rw [endTrans_ep]

end Sys2Proof.Machine
end

section
/-! SUPPORT. The switch point of an update (R111) that turns gate control on at a port while a frame is in transmission there (R480). -/

namespace Sys2Proof.Machine

/-- R111, R115: the part once the update that its loader holds has taken effect and the delivery has ended, before the ports look again. -/
def Dev.updated (d : Dev) : Dev := (d.formeUpdate d.glb.loader.img).formeEnd (FErr.plain 0)

/-- R111, R480: at the switch point of an update every port looks at its gates and then at its queues. -/
theorem updateSwitchPoint_runs {s : State} (hl : s.dev.glb.loader.state = 5) (hf : fFull s.dev.glb.loader.img = false) :
    exec .updateSwitchPoint s = .next { s with dev := s.dev.updated.lookAll.released } := by
  rw [exec_updateSwitchPoint, execUpdateSwitchPoint, within_pos rfl, Dev.formeSwitched, if_pos (by simp [hl, hf]), Dev.formeOk, Dev.updated]

/-- What the statement asks of the switch point: that the ports' looks at their gates leave no trace. -/
theorem formeAndPatchStepsComplete_lookAll (h : Obligations.FormeAndPatchStepsComplete) {s : State} (hl : s.dev.glb.loader.state = 5)
    (hf : fFull s.dev.glb.loader.img = false) : s.dev.updated.lookAll.released = ((List.range 64).foldl Dev.select s.dev.updated).released := by
  obtain ⟨-, -, -, -, -, -, -, -, hswitch, -⟩ := h s .pcie 0 []
  have hrun := (updateSwitchPoint_runs hl hf).symm.trans (hswitch hl hf)
  simp only [Host.Outcome.next.injEq, State.mk.injEq, and_true] at hrun
  exact hrun

/-- An update of one section, GATE, with one record: GATE_EN of port 0 set, every gate shut. -/
def gateUpdate : List Byte :=
  let header := [0x56#8, 0x54#8, 0x46#8, 0x4D#8, 1#8, 0#8, 2#8, 1#8] ++ List.replicate 56 0#8
  let entry := leBytes 2 9 ++ leBytes 2 0 ++ leBytes 4 128 ++ leBytes 4 16 ++ leBytes 4 0
  let gateEn := leBytes 4 (R.SCH_PORT_CFG.addr [0, 0]) ++ leBytes 4 0 ++ leBytes 8 (2 ^ 23)
  header ++ entry ++ List.replicate 48 0#8 ++ gateEn

/-- A frame of 64 bytes of class 0 in transmission. -/
def sending : Tx :=
  let frame := List.replicate 64 0#8
  ⟨some 0, some ⟨1, 0, 1, 0, 16, none, frame, true, false, false, 0, none, none, ⟨0, 0, 0, 0, 0, none, 0⟩, false⟩, frame, 84, false, false⟩

/-- A part in RUN whose port 0 is UP and transmits that frame, with that update ready for its switch point. -/
def switching : State :=
  let d := { Dev.reset with
    glb := { GlbS.reset with mode := .run, loader := ⟨5, gateUpdate, [], []⟩ }
    egr := { EgrS.reset with ports := [(0, { Egr.zero with tx := some sending })] } }
  ⟨(d.put R.GLB_BOOT_STATUS [] "ROOT_DONE" 1).put R.MAC_LINK (macIx 0) "STATE" 3, []⟩

/-- R480: SCH_GATE_OVR of port 0. -/
def Dev.overruns (d : Dev) : Nat := d.get R.SCH_GATE_OVR (schP 0) "COUNT"

/-- The frame whose gate the update shut counts where the ports look at their gates, and does not count where they look at their queues alone. -/
theorem switching_overruns : switching.dev.updated.lookAll.released.overruns = 1 ∧
    ((List.range 64).foldl Dev.select switching.dev.updated).released.overruns = 0 := by decide +kernel

/-- Refutes O10, in its clause of the switch point: there each port makes a selection and no more, where the part has it look at its gates first
(`updateSwitchPoint_runs`). The update of `switching` turns gate control on at port 0 and shuts the gate of the frame in transmission there; R480 counts
that frame, and by the statement it would not count. -/
theorem not_formeAndPatchStepsComplete : ¬ Obligations.FormeAndPatchStepsComplete := by
  intro h
  obtain ⟨hlook, hselect⟩ := switching_overruns
  rw [formeAndPatchStepsComplete_lookAll h rfl rfl, hselect] at hlook
  exact absurd hlook (by decide)

end Sys2Proof.Machine
end

section
/-! SUPPORT. The host's commands on a die's flow table (R166–R168, R181, R232, R234, R614): each acts where its register takes
the write, or shows the read. -/

namespace Sys2Proof.Machine

/-- R13, R167: a command register of a die that takes an OP has the effect of that OP. -/
theorem dieOp_runs {s : State} {p : Path} {r : RegSpec} {k op : Nat} (h : r.placed = true) (hdims : r.dims = R.FLW_QN_STATUS.dims) (hw : r.wide = false)
    (hop : pack r [("OP", op)] = op) (hlt : op < 2 ^ 32) (hk : k < 2) (ht : s.dev.takes p r [k] op = true) :
    within (below 2 k) s (fun d => d.hostOp p r [k] [("OP", op)]) = .next { s with dev := s.dev.performWrite p ⟨r, [k], false⟩ op } := by
  have hix : ixOk r.dims [k] = true := by rw [hdims, ixOk_die hk]
  rw [within_pos ((below_iff _ _).mpr hk), Dev.hostOp_takes hop ht h hix hw hlt]

section
variable {d : Dev} {p : Path} {k : Nat}

/-- R166: what each OP of FLW_HCMD does. -/
theorem performWrite_hcmd : d.performWrite p ⟨R.FLW_HCMD, [k], false⟩ 1 = d.hostLookup k ∧
    d.performWrite p ⟨R.FLW_HCMD, [k], false⟩ 2 = d.hostDelete k ∧ d.performWrite p ⟨R.FLW_HCMD, [k], false⟩ 3 = d.hostInsert k :=
  ⟨rfl, rfl, rfl⟩

/-- R232: what each OP of FLW_QN_RCMD does. -/
theorem performWrite_rcmd : d.performWrite p ⟨R.FLW_QN_RCMD, [k], false⟩ 1 = d.tornReadCmd k ∧
    d.performWrite p ⟨R.FLW_QN_RCMD, [k], false⟩ 2 = d.tornRestoreCmd k ∧ d.performWrite p ⟨R.FLW_QN_RCMD, [k], false⟩ 3 = d.tornEmptyCmd k :=
  ⟨rfl, rfl, rfl⟩

/-- R614: what each OP of FLW_DIV_CMD does. -/
theorem performWrite_divCmd : d.performWrite p ⟨R.FLW_DIV_CMD, [k], false⟩ 1 = d.divRelease k ∧
    d.performWrite p ⟨R.FLW_DIV_CMD, [k], false⟩ 2 = d.divPurge k := by
  have hop : ∀ op, d.performWrite p ⟨R.FLW_DIV_CMD, [k], false⟩ op = if fv R.FLW_DIV_CMD "OP" op = 1 then d.divRelease k else d.divPurge k := fun _ => rfl
  exact ⟨(hop 1).trans (if_pos rfl), (hop 2).trans (if_neg (by decide))⟩

/-- R181: a word with INV = 1 sets the fields of FLW_MIR_CTL and starts the invalidation. -/
theorem hostWrite_mirCtl_inv {v : Word} (hk : k < 2) (ht : d.takes p R.FLW_MIR_CTL [k] v.toNat = true) (hinv : hasBit v.toNat 1 = true) :
    d.hostWrite p (R.FLW_MIR_CTL.addr [k]) v = (d.fieldsWrite R.FLW_MIR_CTL [k] v.toNat).hintInv k := by
  have hperform : d.performWrite p ⟨R.FLW_MIR_CTL, [k], false⟩ v.toNat =
      if bitsOf v.toNat 1 1 = 1 then (d.fieldsWrite R.FLW_MIR_CTL [k] v.toNat).hintInv k else d.fieldsWrite R.FLW_MIR_CTL [k] v.toNat := rfl
  have hfield : bitsOf v.toNat 1 1 = 1 := by
    rw [bitsOf_eq]
    simpa [hasBit] using hinv
  rw [hostWrite_word ht placed_FLW_MIR_CTL (ixOk_die hk) rfl, hperform, if_pos hfield]

/-- R181: an invalidation in progress ends with no entry of the die. -/
theorem hintInvDone_busy (hb : d.bit R.FLW_MIR_CTL [k] "INV_BUSY" = true) : d.hintInvDone k =
    { d with flw := { d.flw with hint := d.flw.hint.filter (fun x => x.1 / 2 ^ 21 != k) } }.put R.FLW_MIR_CTL [k] "INV_BUSY" 0 := by
  rw [Dev.hintInvDone, if_pos hb]

/-- R234: a read of FLW_QN_TORN_LOG pops it. -/
theorem hostRead_tornLog (hk : k < 2) (hs : d.shows p R.FLW_QN_TORN_LOG [k] = true) : d.hostRead p (R.FLW_QN_TORN_LOG.addr [k]) = d.tornPop p k := by
  have haddr : 0x500 ≤ R.FLW_QN_TORN_LOG.addr [k] := Nat.le_add_right_of_le (by decide)
  have hreader : readers.find? (fun r => r.1.is R.FLW_QN_TORN_LOG) = some (R.FLW_QN_TORN_LOG, fun d p ix _ => d.tornPop p (ix.getD 0 0)) := rfl
  rw [hostRead_shows hs placed_FLW_QN_TORN_LOG (ixOk_die hk) haddr, Dev.regRead, Dev.tally]
  simp only [hreader]
  rfl

end

/-- Settles O13: each command's register takes its OP, or shows what the command reads. -/
theorem hostFlowCommandsComplete : Obligations.HostFlowCommandsComplete := by
  intro s p d v hd
  have hbelow : below 2 d = true := (below_iff _ _).mpr hd
  obtain ⟨hlookup, hdelete, hinsert⟩ := performWrite_hcmd (d := s.dev) (p := p) (k := d)
  obtain ⟨hread, hrestore, hempty⟩ := performWrite_rcmd (d := s.dev) (p := p) (k := d)
  obtain ⟨hrelease, hpurge⟩ := performWrite_divCmd (d := s.dev) (p := p) (k := d)
  refine ⟨fun ht => ?lookup, fun ht => ?delete, fun ht => ?insert, fun ht hinv => ?invalidate, fun hb => ?invalidated, fun hs => ?tornLog,
    fun ht => ?tornRead, fun ht => ?tornRestore, fun ht => ?tornEmpty, fun ht => ?release, fun ht => ?purge⟩
  case lookup => rw [exec_flowLookup, execFlowLookup, dieOp_runs placed_FLW_HCMD rfl rfl rfl (by decide) hd ht, hlookup]
  case delete => rw [exec_flowDelete, execFlowDelete, dieOp_runs placed_FLW_HCMD rfl rfl rfl (by decide) hd ht, hdelete]
  case insert => rw [exec_flowInsert, execFlowInsert, dieOp_runs placed_FLW_HCMD rfl rfl rfl (by decide) hd ht, hinsert]
  case invalidate => rw [exec_hintInvalidate, execHintInvalidate, within_pos hbelow, hostWrite_mirCtl_inv hd ht hinv, Dev.hintInv]
  case invalidated => rw [exec_hintInvalidateComplete, execHintInvalidateComplete, within_pos hbelow, hintInvDone_busy hb]
  case tornLog => rw [exec_tornLogPop, execTornLogPop, within_pos hbelow, hostRead_tornLog hd hs]
  case tornRead => rw [exec_tornRead, execTornRead, dieOp_runs placed_FLW_QN_RCMD rfl rfl rfl (by decide) hd ht, hread]
  case tornRestore => rw [exec_tornRestore, execTornRestore, dieOp_runs placed_FLW_QN_RCMD rfl rfl rfl (by decide) hd ht, hrestore]
  case tornEmpty => rw [exec_tornEmpty, execTornEmpty, dieOp_runs placed_FLW_QN_RCMD rfl rfl rfl (by decide) hd ht, hempty]
  case release => rw [exec_divRelease, execDivRelease, dieOp_runs placed_FLW_DIV_CMD rfl rfl rfl (by decide) hd ht, hrelease]
  case purge => rw [exec_divPurge, execDivPurge, dieOp_runs placed_FLW_DIV_CMD rfl rfl rfl (by decide) hd ht, hpurge]

end Sys2Proof.Machine
end

section
/-! SUPPORT. The HBM controllers (R499, R505–R514, R518, R520): where a bucket lies in a stack, what a command slot is given to, drains, refreshes and
readings. -/

namespace Sys2Proof.Machine

/-! ## The place of a bucket (R127, R497, R499) -/

section
variable {stack b o : Nat}

theorem bucketSa_lt (hb : b < 2 ^ 23) (ho : o < 512) : bucketSa b + o < 2 ^ 32 := by
  unfold bucketSa
  omega

/-- R499: the bytes of bucket b are those from 512·b. -/
theorem bucketSa_eq (b : Nat) : bucketSa b = 512 * b := by
  unfold bucketSa
  omega

theorem flowAt_bucketSa (hb : b < 2 ^ 23) (ho : o < 512) : flowAt stack (bucketSa b + o) = flowPart stack b o false := by
  have hlt := bucketSa_lt hb ho
  rw [bucketSa_eq] at hlt ⊢
  rw [flowAt, if_pos hlt, show (512 * b + o) / 512 = b by omega, show (512 * b + o) % 512 = o by omega]

/-- R141: the stack whose mirror copies a mirror stack holds. -/
theorem mirrored_mirrorStack (stack : Nat) : 3 * (mirrorStack stack / 3) + (mirrorStack stack % 3 + 2) % 3 = stack := by
  unfold mirrorStack
  omega

theorem flowAt_mirrorSa (hb : b < 2 ^ 23) (ho : o < 512) : flowAt (mirrorStack stack) (mirrorSa b + o) = flowPart stack b o true := by
  have hlt := bucketSa_lt hb ho
  rw [bucketSa_eq] at hlt
  rw [flowAt, mirrorSa, bucketSa_eq, if_neg (by omega), if_pos (by omega), mirrored_mirrorStack, show (2 ^ 32 + 512 * b + o - 2 ^ 32) / 512 = b by omega,
    show (2 ^ 32 + 512 * b + o) % 512 = o by omega]

/-- R497: addresses that differ in bits 9 to 0 alone lie in one row of one bank. -/
theorem saMap_col {x y : Nat} (h : x / 2 ^ 10 = y / 2 ^ 10) : { saMap x with col := 0 } = { saMap y with col := 0 } := by
  have hbits : ∀ {hi lo}, 10 ≤ lo → bitsOf x hi lo = bitsOf y hi lo := fun {hi lo} hlo => by
    rw [bitsOf_eq, bitsOf_eq, ← Nat.add_sub_cancel' hlo, pow_add, ← Nat.div_div_eq_div_mul, ← Nat.div_div_eq_div_mul, h]
  simp only [saMap, hbits (show 10 ≤ 10 by decide), hbits (show 10 ≤ 20 by decide), hbits (show 10 ≤ 11 by decide), hbits (show 10 ≤ 21 by decide),
    hbits (show 10 ≤ 15 by decide), hbits (show 10 ≤ 25 by decide)]

/-- R499: the mirror copy of an address of the lower 4 GiB lies 4,096 rows above it in the same bank. -/
theorem saMap_mirror {x : Nat} (h : x < 2 ^ 32) : saMap (2 ^ 32 + x) = { saMap x with row := (saMap x).row + 4096 } := by
  have hbits : ∀ {hi lo}, hi < 32 → bitsOf (2 ^ 32 + x) hi lo = bitsOf x hi lo := fun hhi => by
    rw [← bitsOf_mod _ hhi, Nat.add_mod_left, bitsOf_mod _ hhi]
  have hrow : bitsOf (2 ^ 32 + x) 33 20 = bitsOf x 33 20 + 4096 := by
    simp only [bitsOf_eq, Nat.reduceAdd, Nat.reduceSub]
    omega
  simp only [saMap, hrow, hbits (show 10 < 32 by decide), hbits (show 20 < 32 by decide), hbits (show 14 < 32 by decide), hbits (show 24 < 32 by decide),
    hbits (show 19 < 32 by decide), hbits (show 29 < 32 by decide), hbits (show 9 < 32 by decide)]

theorem saMap_bucketSa (ho : o < 512) : { saMap (bucketSa b + o) with col := 0 } = { saMap (bucketSa b) with col := 0 } := by
  refine saMap_col ?_
  unfold bucketSa
  omega

theorem saMap_mirrorSa (hb : b < 2 ^ 23) (ho : o < 512) :
    { saMap (mirrorSa b + o) with col := 0 } = { saMap (bucketSa b) with row := (saMap (bucketSa b)).row + 4096, col := 0 } := by
  have hplace := saMap_bucketSa (b := b) ho
  simp only [SaMap.mk.injEq, and_true] at hplace
  obtain ⟨hpc, hchan, hbank, hrow⟩ := hplace
  rw [mirrorSa, Nat.add_assoc, saMap_mirror (bucketSa_lt hb ho)]
  simp only [hpc, hchan, hbank, hrow]

end

/-! ## Order of service (R505, R506) -/

section
variable {d : Dev} {c u i : Nat}

/-- R505: rank 1, an overdue refresh. -/
theorem pick_overdue {bank : Nat} (ho : (d.pch c u).overdue = some bank) : (d.pick c u).1 = .refresh bank := by
  simp only [Dev.pick, ho]

/-- R505: rank 2, the oldest flow-path read past its panic age. -/
theorem pick_panicked (ho : (d.pch c u).overdue = none) (hr : (d.pch c u).rq.findIdx? (d.panicked c) = some i) : (d.pick c u).1 = .read i := by
  simp only [Dev.pick, ho, hr]

/-- R505: rank 3, the oldest read of a page while the spill reader raises panic. -/
theorem pick_page (ho : (d.pch c u).overdue = none) (hr : (d.pch c u).rq.findIdx? (d.panicked c) = none) (hp : d.srPanic (c / 48) (c % 48) u = true)
    (hpage : (d.pch c u).rq.findIdx? (fun w => w.req.req == 7) = some i) : (d.pick c u).1 = .read i := by
  simp only [Dev.pick, ho, hr, hp, hpage, if_true]

theorem drainState_drain : ((d.drainState c u).pch c u).drain =
    (decide (d.get R.MEM_WDRAIN [c / 48] "HI" ≤ (d.pch c u).wq.length) ||
      ((d.pch c u).drain && decide (d.get R.MEM_WDRAIN [c / 48] "LO" < (d.pch c u).wq.length))) := by
  rw [Dev.drainState, Dev.pch_updPch]

/-- R506: a drain begins at HI writes. -/
theorem drainState_begins (h : d.get R.MEM_WDRAIN [c / 48] "HI" ≤ (d.pch c u).wq.length) : ((d.drainState c u).pch c u).drain = true := by
  rw [drainState_drain, decide_eq_true h, Bool.true_or]

/-- R506: a drain ends at LO writes. -/
theorem drainState_ends (hl : d.get R.MEM_WDRAIN [c / 48] "LO" < d.get R.MEM_WDRAIN [c / 48] "HI")
    (h : (d.pch c u).wq.length ≤ d.get R.MEM_WDRAIN [c / 48] "LO") : ((d.drainState c u).pch c u).drain = false := by
  rw [drainState_drain, decide_eq_false (by omega), decide_eq_false (by omega), Bool.and_false, Bool.or_self]

end

/-! ## Refreshes (R511, R513, R514) -/

section
variable (d : Dev)

/-- R673: a record that reaches the trace changes the trace, the register file and the count of free values alone. -/
theorem trcArrive_rest (k : Nat) (x : TrcRec) : ∃ n m t, d.trcArrive k x = { d with free := n, regs := m, trc := t } := by
  unfold Dev.trcArrive
  dsimp only
  obtain ⟨m, hdrain⟩ := (Dev.trcDrain_frame k (2 * (d.fresh 49).1) (d.fresh 49).2).rest
  rw [hdrain]
  split
  · obtain ⟨m', hdrop⟩ := Dev.put_eq _ _ _ _ _
    exact ⟨_, m', _, hdrop⟩
  · exact ⟨_, _, _, rfl⟩

theorem trace_rest (k src typ : Nat) (pay : List Byte) (sel : Bool) (code : Option Nat) :
    ∃ n m t, d.trace k src typ pay sel code = { d with free := n, regs := m, trc := t } := by
  unfold Dev.trace
  dsimp only
  split
  · split
    · exact trcArrive_rest _ _ _
    · exact ⟨_, _, _, rfl⟩
  · exact ⟨_, _, _, rfl⟩

@[simp] theorem memTrace_pch (c u typ bank req row col : Nat) : (d.memTrace c u typ bank req row col).pch c u = d.pch c u := by
  unfold Dev.memTrace
  obtain ⟨n, m, t, htrace⟩ := trace_rest d _ _ _ _ _ _
  rw [htrace]
  rfl

@[simp] theorem bump_pch (r : RegSpec) (ix : List Nat) (f : String) (n c u : Nat) : (d.bump r ix f n).pch c u = d.pch c u := by
  rw [Dev.pch, Dev.pch, Dev.bump, Dev.put_hbm]

/-- R513: the draw of an activation leaves the refreshes owed. -/
theorem nrefDraw_owed (c u bank row : Nat) : ((d.nrefDraw c u bank row).pch c u).owed = (d.pch c u).owed := by
  unfold Dev.nrefDraw
  dsimp only
  repeat' split
  all_goals simp

theorem nrefRow_owed (c u bank row : Nat) : ((d.nrefRow c u bank row).pch c u).owed = (d.pch c u).owed := by
  simp only [Dev.nrefRow, bump_pch, memTrace_pch, nrefDraw_owed]

theorem precharge_owed (c u bank : Nat) : ((d.precharge c u bank).pch c u).owed = (d.pch c u).owed := by
  unfold Dev.precharge
  split
  · rw [Dev.pch_updPch, memTrace_pch]
  · rfl

/-- R505: a bank precharged has no open row. -/
theorem precharge_openRow (c u bank : Nat) : ((d.precharge c u bank).pch c u).openRow bank = none := by
  unfold Dev.precharge
  split
  · rw [Dev.pch_updPch, memTrace_pch]
    simp [PchS.openRow, List.find?_filter]
  · assumption

theorem nrefDo_owed (c u bank : Nat) : ((d.nrefDo c u bank).pch c u).owed = (d.pch c u).owed := by
  unfold Dev.nrefDo
  dsimp only
  split
  · rfl
  · refine List.foldlRecOn (motive := fun x : Dev => (x.pch c u).owed = (d.pch c u).owed) _ _ ?_ fun x hx row _ => (nrefRow_owed x c u bank row).trans hx
    rw [precharge_owed, Dev.pch_updPch]

/-- R511: a refresh of a bank takes it from those owed. -/
theorem refreshBank_owed (c u bank : Nat) : ((d.refreshBank c u bank).pch c u).owed = (d.pch c u).owed.erase bank := by
  rw [Dev.refreshBank, Dev.pch_updPch, memTrace_pch, precharge_owed, nrefDo_owed]

/-- R511: a refresh of a bank closes its row. -/
theorem refreshBank_openRow (c u bank : Nat) : ((d.refreshBank c u bank).pch c u).openRow bank = none := by
  rw [Dev.refreshBank, Dev.pch_updPch, memTrace_pch]
  exact precharge_openRow _ c u bank

/-- R511: a refresh that falls due where nothing waits is performed at once. -/
theorem refreshDue_idle {c u : Nat} (hs : d.asleep c = false) (hr : (d.pch c u).rq = []) (hw : (d.pch c u).wq = []) (bank : Nat) :
    d.refreshDue c u bank = (d.updPch c u (fun p => { p with owed := p.owed ++ [bank] })).refreshBank c u bank := by
  simp [Dev.refreshDue, hs, hr, hw]

end

/-! ## Readings (R511, R512, R518) -/

/-- R511: a reading that trips nothing. -/
theorem stackReading_below {d : Dev} {t : Int} (hm : d.glb.mode ≠ .cold) (ht : t < 105) (s : Nat) : d.stackReading s t = (d.stackTemp s t).alertPin := by
  have hcool : (decide (t ≥ 105) && !(d.stackTemp s t).bit R.MEM_STACK_STAT [s / 3, s % 3] "SREF") = false := by
    simp only [decide_eq_false (show ¬ t ≥ 105 by omega), Bool.false_and]
  simp only [Dev.stackReading, if_neg hm, hcool, Bool.false_eq_true, if_false]

/-- R518: the edge of a read eye's range is reported where the eyes are tracked. -/
theorem recentre_tracked {d : Dev} {s c : Nat} (h : d.tracks (s / 3) = true) : d.recentre s (some c) = d.trainEvent s 0 6 c := if_pos h

theorem recentre_untracked {d : Dev} {s c : Nat} (h : d.tracks (s / 3) = false) : d.recentre s (some c) = d := if_neg (by simp [h])

theorem below_and_below {m n x y : Nat} (hx : x < m) (hy : y < n) : (below m x && below n y) = true := by
  simp only [(below_iff _ _).mpr hx, (below_iff _ _).mpr hy, Bool.and_self]

/-- Settles O20, clause by clause from the lemmas above. -/
theorem hbmEventsComplete : Obligations.HbmEventsComplete := by
  intro s rd arr ch u bank stack c i b o t p page
  refine ⟨fun hok harr => ?read, fun hok harr => ?panic, fun hch hu hbank hs hr hw ho => ?refresh, pick_overdue, pick_panicked, pick_page,
    drainState_begins, drainState_ends, fun hst hb ho => ?place, fun hst hlo hhi hm => ?reading, fun hst hc htr => ?tracked,
    fun hst hc htr => ?untracked, fun hst => ?centred⟩
  case read => rw [exec_hbmReadComplete, execHbmReadComplete, within_pos (by simp only [hok, harr, Bool.and_self])]
  case panic => rw [exec_panicRaise, execPanicRaise, within_pos (by simp only [hok, harr, Bool.and_self])]
  case refresh =>
    have hbelow : (below 96 ch && below 2 u && below 32 bank) = true := by
      simp only [below_and_below hch hu, (below_iff _ _).mpr hbank, Bool.and_self]
    refine ⟨_, (exec_refreshDue ch u bank s).trans (within_pos hbelow s _), ?_, ?_⟩
    · rw [refreshDue_idle _ hs hr hw, refreshBank_owed, Dev.pch_updPch, ho]
      simp
    · rw [refreshDue_idle _ hs hr hw, refreshBank_openRow]
  case place => exact ⟨flowAt_bucketSa hb ho, flowAt_mirrorSa hb ho, saMap_bucketSa ho, saMap_mirrorSa hb ho⟩
  case reading =>
    have hok : (below 6 stack && decide (-128 ≤ t) && decide (t ≤ 127)) = true := by
      simp only [Bool.and_eq_true, below_iff, decide_eq_true_eq]
      omega
    rw [exec_stackTempReading, execStackTempReading, within_pos hok, stackReading_below hm hhi]
  case tracked => rw [exec_readEyeRecentre, execReadEyeRecentre, within_pos (below_and_below hst hc), recentre_tracked htr]
  case untracked => rw [exec_readEyeRecentre, execReadEyeRecentre, within_pos (below_and_below hst hc), recentre_untracked htr]
  case centred => rw [exec_readEyeRecentre, execReadEyeRecentre, within_pos (by simp only [(below_iff _ _).mpr hst, Bool.and_self]), Dev.recentre]

end Sys2Proof.Machine
end

section
/-! SUPPORT. Where the candidate buckets of a key lie (R139, R212), and what a lookup finds there (R145). -/

namespace Sys2Proof.Machine

/-! ## Places of slots -/

theorem candA_eq (h : Nat) : candA h = (3 * (h / 2 ^ 63 % 2) + h / 2 ^ 48 % 2 ^ 15 % 3, h / 2 ^ 24 % 2 ^ 23) := by
  simp only [candA, bitsOf_eq, Nat.reduceAdd, Nat.reduceSub, pow_one]

theorem candB_eq (h : Nat) : candB h = (3 * (h / 2 ^ 63 % 2) + (h / 2 ^ 48 % 2 ^ 15 % 3 + 1 + h / 2 ^ 47 % 2) % 3, h / 2 % 2 ^ 23) := by
  simp only [candB, bitsOf_eq, Nat.reduceAdd, Nat.reduceSub, pow_one]

/-- R139: the two candidates lie in different stacks. -/
theorem candA_stack_ne (h : Nat) : (candA h).1 ≠ (candB h).1 := by
  simp only [candA_eq, candB_eq]
  omega

/-- R139: candidate A or B of H. -/
def candOf (h : Nat) (alt : Bool) : Nat × Nat := if alt then candB h else candA h

theorem candSlot_eq (h : Nat) (alt : Bool) (i : Nat) : candSlot h alt i = raddrOf (candOf h alt).1 (candOf h alt).2 i := rfl

/-- R139: a candidate's stack is one of the home die's three, and its bucket one of the stack's. -/
theorem candOf_bounds (h : Nat) (alt : Bool) : (candOf h alt).1 / 3 = h / 2 ^ 63 % 2 ∧ (candOf h alt).1 < 6 ∧ (candOf h alt).2 < 2 ^ 23 := by
  cases alt <;> simp only [candOf, candA_eq, candB_eq, Bool.false_eq_true, if_false, if_true] <;> omega

section
variable {stack bucket slot : Nat}

/-- R212: an address has the fields that it is made of. -/
theorem raStack_raddrOf (hs : stack < 6) (hb : bucket < 2 ^ 23) (hi : slot < 8) : raStack (raddrOf stack bucket slot) = stack := by
  unfold raStack raddrOf
  omega

theorem raSlot_raddrOf (hi : slot < 8) : raSlot (raddrOf stack bucket slot) = slot := by
  unfold raSlot raddrOf
  omega

/-- R212: each slot of a bucket has an address. -/
theorem raOk_raddrOf (hs : stack < 6) (hb : bucket < 2 ^ 23) (hi : slot < 7) : raOk (raddrOf stack bucket slot) = true := by
  have hlt : raddrOf stack bucket slot < 2 ^ 29 := by
    unfold raddrOf
    omega
  simp only [raOk, raStack_raddrOf hs hb (by omega : slot < 8), raSlot_raddrOf (by omega : slot < 8), Bool.and_eq_true, decide_eq_true_eq]
  exact ⟨⟨hs, hi⟩, hlt⟩

end

/-- Settles O49, by the fields of H. -/
theorem candidatesLieOnTheHomeDieInDifferentStacks : Obligations.CandidatesLieOnTheHomeDieInDifferentStacks := by
  refine fun h => ⟨candA_eq h, candB_eq h, candA_stack_ne h, fun alt i hi => ?_⟩
  obtain ⟨hdie, hstack, hbucket⟩ := candOf_bounds h alt
  rw [candSlot_eq]
  refine ⟨?_, raSlot_raddrOf (by omega), raOk_raddrOf hstack hbucket hi⟩
  rw [raDie, raStack_raddrOf hstack hbucket (by omega), hdie]

/-! ## Lookups -/

section
variable {d : Dev} {key : List Byte} {h : Nat} {ra : Nat}

/-- R145: the matching slots of a candidate. -/
theorem mem_tagMatches {f : Nat} {alt : Bool} : ra ∈ tagMatches d h f alt ↔
    (∃ i, i < 7 ∧ ra = candSlot h alt i) ∧ (d.slot ra).st ≠ .empty ∧ (d.slot ra).form = f ∧ (d.slot ra).ktag = ktagOf h alt := by
  simp only [tagMatches, List.mem_filter, List.mem_map, List.mem_range, Bool.and_eq_true, bne_iff_ne, beq_iff_eq, and_assoc, eq_comm (a := candSlot h alt _)]

/-- R145: the slot found is one of those read, and holds the key. -/
theorem firstHit_some {l : List Nat} (hf : firstHit d key l = some ra) : ra ∈ l ∧ (d.slot ra).body.key = key := by
  induction l with
  | nil => cases hf
  | cons x l ih =>
    rw [firstHit] at hf
    split at hf
    · rename_i hx
      simp only [Bool.and_eq_true, beq_iff_eq] at hx
      cases hf
      exact ⟨List.mem_cons_self, hx.2⟩
    · exact ⟨List.mem_cons_of_mem _ (ih hf).1, (ih hf).2⟩

/-- R145: where no slot is found, none of those that can be read holds the key. -/
theorem firstHit_none {l : List Nat} (hf : firstHit d key l = none) (hm : ra ∈ l) (hr : (d.recRead ra).1 = true) : (d.slot ra).body.key ≠ key := by
  induction l with
  | nil => cases hm
  | cons x l ih =>
    rw [firstHit] at hf
    split at hf
    · cases hf
    · rename_i hx
      rcases List.mem_cons.mp hm with rfl | hm
      · simpa [hr] using hx
      · exact ih hf hm

/-- R145: a slot found by its hint is a matching slot of a candidate that holds the key. -/
theorem hintHit_some {hint : Option (Nat × Nat)} (hf : hintHit d key h hint = some ra) :
    (∃ alt, ra ∈ tagMatches d h (byteAt key 0) alt) ∧ (d.slot ra).body.key = key := by
  unfold hintHit at hf
  split at hf
  · cases hf
  · rw [Option.ite_none_right_eq_some] at hf
    obtain ⟨hmem, hkey⟩ := firstHit_some hf.2
    exact ⟨⟨_, (List.mem_filter.mp hmem).1⟩, hkey⟩

/-- R145: the matching slots of both candidates. -/
def Dev.matching (d : Dev) (key : List Byte) (h : Nat) : List Nat := tagMatches d h (byteAt key 0) false ++ tagMatches d h (byteAt key 0) true

theorem mem_matching : ra ∈ d.matching key h ↔ ∃ alt, ra ∈ tagMatches d h (byteAt key 0) alt := by
  simp only [Dev.matching, List.mem_append, Bool.exists_bool]

/-- R145: a hit is the hinted slot, or else the first matching slot that holds the key. -/
theorem lookup_hit {hint : Option (Nat × Nat)} (hl : d.lookup key h hint = .hit ra) :
    hintHit d key h hint = some ra ∨ firstHit d key (d.matching key h) = some ra := by
  unfold Dev.lookup at hl
  split at hl
  · rename_i hhint
    cases hl
    exact .inl hhint
  · dsimp only at hl
    split at hl
    · cases hl
    · split at hl
      · cases hl
      · split at hl
        · rename_i hfirst
          cases hl
          exact .inr hfirst
        · split at hl <;> cases hl

/-- R145, R128: a miss has read both tag blocks and every matching slot, and found no key. -/
theorem lookup_miss {hint : Option (Nat × Nat)} (hl : d.lookup key h hint = .miss) :
    (d.tagRead (candA h).1 (candA h).2).1 = true ∧ (d.tagRead (candB h).1 (candB h).2).1 = true ∧ firstHit d key (d.matching key h) = none ∧
      ∀ ra ∈ d.matching key h, (d.recRead ra).1 = true := by
  unfold Dev.lookup at hl
  split at hl
  · cases hl
  · dsimp only at hl
    split at hl
    · cases hl
    · rename_i htagA
      split at hl
      · cases hl
      · rename_i htagB
        split at hl
        · cases hl
        · rename_i hfirst
          split at hl
          · cases hl
          · rename_i hread
            exact ⟨by simpa using htagA, by simpa using htagB, hfirst, fun ra hra => by simpa using List.find?_eq_none.mp hread ra hra⟩

end

/-- Settles O50: a hit is a matching slot that holds the key (`lookup_hit`), and a miss has read every matching slot (`lookup_miss`). -/
theorem aLookupFindsTheSlotOfItsKey : Obligations.ALookupFindsTheSlotOfItsKey := by
  refine fun d key h hint => ⟨fun ra hl => ?hit, fun hl => ?miss⟩
  case hit =>
    have hfound : (∃ alt, ra ∈ tagMatches d h (byteAt key 0) alt) ∧ (d.slot ra).body.key = key := by
      rcases lookup_hit hl with hhint | hfirst
      · exact hintHit_some hhint
      · exact (firstHit_some hfirst).imp_left mem_matching.mp
    obtain ⟨⟨alt, hmem⟩, hkey⟩ := hfound
    obtain ⟨⟨i, hi, hra⟩, hst, hform, htag⟩ := mem_tagMatches.mp hmem
    exact ⟨⟨alt, i, hi, hra, htag⟩, hst, hform, hkey⟩
  case miss =>
    obtain ⟨htagA, htagB, hnone, hread⟩ := lookup_miss hl
    refine ⟨htagA, htagB, fun alt i hi hst hform htag => ?_⟩
    have hmem : candSlot h alt i ∈ d.matching key h := mem_matching.mpr ⟨alt, mem_tagMatches.mpr ⟨⟨i, hi, rfl⟩, hst, hform, htag⟩⟩
    exact firstHit_none hnone hmem (hread _ hmem)

end Sys2Proof.Machine
end

section
/-! SUPPORT. The updates of a flow record (R155–R165, R208–R211, R219, R230, R338): when an update unit applies an operation. -/

namespace Sys2Proof.Machine

section
variable {d : Dev} {ra : Nat} {o : AuuOp} {rest : List AuuOp} {is : AuuKind → Bool}

/-- R519: in REST the units take no operation. -/
theorem auuTake_rest (hm : d.glb.mode = .rest) : d.auuTake ra is = d := by
  rw [Dev.auuTake, if_pos (by rw [hm]; rfl)]

theorem auuTakeWb_rest (hm : d.glb.mode = .rest) : d.auuTakeWb ra = d := by
  rw [Dev.auuTakeWb, if_pos (by rw [hm]; rfl)]

/-- R210, R339: the oldest operation of a record is applied when it is of the kind asked for, and is no deletion that stalls. -/
theorem auuTake_applies (hm : d.glb.mode ≠ .rest) (hp : auuPop ra d.flw.auuq = some (o, rest)) (his : is o.kind = true)
    (hc : o.kind = .cdel → d.cdelStalls ra = false) : d.auuTake ra is = (d.setAuuq rest).auuApply ra o.kind := by
  have hstall : ¬ (o.kind == .cdel && d.cdelStalls ra) = true := by
    simp only [Bool.and_eq_true, beq_iff_eq]
    rintro ⟨hkind, hs⟩
    exact absurd hs (by simp [hc hkind])
  rw [Dev.auuTake, if_neg (by simpa using hm), hp]
  simp only [his, Bool.not_true, Bool.false_eq_true, if_false, if_neg hstall]

/-- R161, R165: the oldest write-back of a record goes ahead of the sweeper's compares. -/
theorem auuTakeWb_applies (hm : d.glb.mode ≠ .rest) (hp : auuPopWb ra d.flw.auuq = some (o, rest)) :
    d.auuTakeWb ra = (d.setAuuq rest).auuApply ra o.kind := by
  rw [Dev.auuTakeWb, if_neg (by simpa using hm), hp]

/-- R208: a flag of a slot in use whose reads pass. -/
theorem auuFlag_stores (hst : (d.slot ra).st ≠ .empty) (hr : (d.recUse ra).2 = true) (bit : Nat) (v : Bool) :
    d.auuFlag ra bit v = (d.recUse ra).1.auuStore ra { (d.slot ra).body with flags := withBit (d.slot ra).body.flags bit v } := by
  rw [Dev.auuFlag, if_neg hst]
  simp only [hr, if_true]

end

/-- Settles O12: each visit is within the part, and each operation is one that `auuTake_applies` or `auuTakeWb_applies` takes. -/
theorem recordUpdatesComplete : Obligations.RecordUpdatesComplete := by
  intro s ra e bit o rest w tok dp doct m bs hra popped
  refine ⟨(exec_sweepVisit ra s).trans (within_pos hra s _), (exec_exportWalkVisit ra s).trans (within_pos hra s _), fun hm => ?rest,
    fun hm hp hk => ?writeBack, fun hm hp => ?oldest, fun hbit hst hr => ?flags, (exec_quoinGrant ra s).trans (within_pos hra s _),
    fun he => (exec_quoinWaitTimeout e s).trans (within_pos ((below_iff _ _).mpr he) s _), (exec_quoinSweepVisit ra s).trans (within_pos hra s _)⟩
  case rest =>
    have hnone : ∀ is, within (raOk ra) s (fun d => d.auuTake ra is) = .next s := fun is => by rw [within_pos hra, auuTake_rest hm]
    simp only [List.forall_mem_cons]
    refine ⟨?_, hnone _, hnone _, hnone _, hnone _, hnone _, fun _ h => nomatch h⟩
    rw [exec_auuWb, execAuuWb, within_pos hra, auuTakeWb_rest hm]
  case writeBack =>
    rw [exec_auuWb, execAuuWb, within_pos hra, auuTakeWb_applies hm hp, hk]
    rfl
  case oldest =>
    have htake : ∀ {is : AuuKind → Bool}, is o.kind = true → (o.kind = .cdel → s.dev.cdelStalls ra = false) →
        within (raOk ra) s (fun d => d.auuTake ra is) = .next { s with dev := popped.auuApply ra o.kind } :=
      fun his hc => by rw [within_pos hra, auuTake_applies hm hp his hc]; rfl
    generalize o.kind = k at htake ⊢
    refine ⟨?add, ?stamp, ?cset, ?cdel, ?cwrite⟩
    case add | stamp | cset | cwrite => rintro rfl; exact htake rfl nofun
    case cdel => rintro rfl hstall; exact htake rfl fun _ => hstall
  case flags =>
    have hok : (raOk ra && below 8 bit) = true := by simp only [hra, (below_iff _ _).mpr hbit, Bool.and_self]
    rw [exec_auuFset, execAuuFset, exec_auuFclr, execAuuFclr, within_pos hok, within_pos hok]
    exact ⟨by rw [auuFlag_stores hst hr], by rw [auuFlag_stores hst hr]⟩

end Sys2Proof.Machine
end

section
/-! SUPPORT. The quoins that an engine has (R213, R215, R220), and the answer to a QACQ out of address order (R218). -/

namespace Sys2Proof.Machine

/-- An operation leaves the stores of the flow table and its quoins, and the owner epoch of engine e: what the quoins of engine e are read from. -/
structure QuoinsStand (e : Nat) (d d' : Dev) : Prop where
  flw : d'.flw = d.flw
  epoch : d'.epoch e = d.epoch e

section
variable {e : Nat} {d x : Dev}

theorem QuoinsStand.trans {y : Dev} (h : QuoinsStand e d x) (g : QuoinsStand e x y) : QuoinsStand e d y :=
  ⟨g.flw.trans h.flw, g.epoch.trans h.epoch⟩

/-- R229: whether a quoin of engine e is stale rests on the epoch of engine e alone. -/
theorem QuoinsStand.live_iff (h : QuoinsStand e d x) (q : Quoin) : (q.owner == e && !x.stale q) = (q.owner == e && !d.stale q) := by
  by_cases hq : q.owner = e
  · subst hq
    simp only [Dev.stale, h.epoch]
  · simp only [beq_false_of_ne hq, Bool.false_and]

theorem QuoinsStand.owned (h : QuoinsStand e d x) : x.owned e = d.owned e := by
  simp only [Dev.owned, h.flw, h.live_iff]

theorem QuoinsStand.heldQuoins (h : QuoinsStand e d x) : x.heldQuoins e = d.heldQuoins e := by
  simp only [Dev.heldQuoins, h.flw, h.live_iff]

theorem QuoinsStand.claims (h : QuoinsStand e d x) : x.claims e = d.claims e := by
  simp only [Dev.claims, h.flw, h.owned]

/-! ## The status of a request (R217) -/

/-- R390: an event counted leaves the quoins. -/
theorem pmc_quoinsStand (d : Dev) (he : e < 96) (ev n : Nat) : QuoinsStand e d (d.pmc e ev n) := by
  refine ⟨?_, ((Quiet.refl d).pmc he ev n).epochOf he⟩
  obtain ⟨m, hm⟩ := d.pmc_eq e ev n
  rw [hm]

/-- R217: the counters of the statuses that refuse a request. -/
def quoinCounters : List RegSpec := [R.FLW_QN_BUSY, R.FLW_QN_ORDER, R.FLW_QN_FULL]

theorem quoinCounters_clear : ∀ r ∈ quoinCounters, r.dims = R.FLW_QN_STATUS.dims ∧ r.clear R.FLW_QN_EPOCH = true := by decide +kernel

theorem quoinCounter_quoinsStand (d : Dev) (he : e < 96) {k : Nat} (hk : k < 2) {r : RegSpec} (hr : r ∈ quoinCounters) (n : Nat) :
    QuoinsStand e d (d.bump r [k] "COUNT" n) := by
  obtain ⟨hdims, hclear⟩ := quoinCounters_clear r hr
  exact ⟨d.put_flw _ _ _ _, d.get_put_ne _ _ _ (apart_of_clear hclear (hdims ▸ ixOk_die hk) (ixOk_epochIx he))⟩

/-- R217: a status returned is counted and completes the request; no quoin changes. -/
theorem qreturn_quoinsStand (d : Dev) (he : e < 96) {k : Nat} (hk : k < 2) (tok code : Nat) : QuoinsStand e d (d.qreturn e k tok code) := by
  have hcomplete : ∀ x : Dev, QuoinsStand e x (x.complete e tok [code]) := fun x => ⟨rfl, rfl⟩
  have hcount : ∀ r ∈ quoinCounters, QuoinsStand e d (d.bump r [k] "COUNT" 1) := fun r hr => quoinCounter_quoinsStand d he hk hr 1
  simp only [quoinCounters, List.forall_mem_cons] at hcount
  obtain ⟨hbusy, horder, hfull, -⟩ := hcount
  refine QuoinsStand.trans ?_ (hcomplete _)
  unfold Dev.qstatus
  extract_lets y
  have hy : QuoinsStand e d y := by
    unfold y
    split
    · exact hbusy
    · split
      · exact horder
      · split
        · exact hfull
        · exact ⟨rfl, rfl⟩
  split
  · exact hy.trans (pmc_quoinsStand _ he _ _)
  · exact hy

end

/-- R215, R218: an engine that has fewer than four quoins, and one at the address asked for or above it, is told ORDER. -/
theorem qacq_outOfOrder {d : Dev} {e ra : Nat} (he : e < 96) (hroom : d.claims e < 4) (horder : (d.owned e).any (fun r => decide (ra ≤ r)) = true)
    (tok : Nat) (wi : Bool) : d.qacq e ra tok wi false = (d.pmc e 0x09 1).qreturn e (e / 48) tok 2 := by
  have hpmc := pmc_quoinsStand d he 0x09 1
  simp only [Dev.qacq, hpmc.claims, hpmc.owned, if_neg (Nat.not_le.mpr hroom), Bool.not_false, Bool.true_and, horder, if_true]

/-- Settles O35: the request is counted and told ORDER, and neither changes a quoin. -/
theorem aQacqOutOfOrderIsRefused : Obligations.AQacqOutOfOrderIsRefused := by
  intro d e ra tok wi he hroom horder
  have hstand := (pmc_quoinsStand d he 0x09 1).trans (qreturn_quoinsStand _ he (by omega : e / 48 < 2) tok 2)
  rw [qacq_outOfOrder he hroom horder]
  exact ⟨rfl, hstand.heldQuoins, hstand.flw⟩

end Sys2Proof.Machine
end

section
/-! SUPPORT. What an error event changes (R604–R610, R678), and so what the reads of a slot leave (R125, R128). -/

namespace Sys2Proof.Machine

/-- The registers that an error event, a failing read that is remembered, and their trace records write. -/
def errRegs : List RegSpec :=
  [R.ERR_SRC_CNT, R.ERR_CNT, R.ERR_LOG, R.ERR_LOG_IDX, R.ERR_SEQ, R.ERR_INJ_LAST, R.ERR_RING_LOST, R.ERR_RING_TAIL, R.GAL_ALERT_LOST, R.TRC_SEQ, R.TRC_STAT,
    R.TRC_DROP, R.FLW_DIV_STAT]

/-- An operation reports, and does no more: of the stores it changes those of the host, the galley, the errors and the trace, and of the registers it leaves
every one that shares no word with one of `errRegs`. -/
structure ErrFrame (d d' : Dev) : Prop where
  rest : ∃ free regs hif gal err trc, d' = { d with free := free, regs := regs, hif := hif, gal := gal, err := err, trc := trc }
  regs : ∀ (q : RegSpec) (jx : List Nat), errRegs.all (fun r => r.clear q) = true → ixOk q.dims jx = true → d'.getW q jx = d.getW q jx

section
variable {d x : Dev} {ix : List Nat} {k : Nat}

theorem ErrFrame.refl (d : Dev) : ErrFrame d d := ⟨⟨_, _, _, _, _, _, rfl⟩, fun _ _ _ _ => rfl⟩

theorem ErrFrame.trans {y : Dev} (h : ErrFrame d x) (g : ErrFrame x y) : ErrFrame d y := by
  refine ⟨?_, fun q jx hq hj => (g.regs q jx hq hj).trans (h.regs q jx hq hj)⟩
  obtain ⟨_, _, _, _, _, _, rfl⟩ := h.rest
  obtain ⟨_, _, _, _, _, _, rfl⟩ := g.rest
  exact ⟨_, _, _, _, _, _, rfl⟩

theorem ErrFrame.flw (h : ErrFrame d x) : x.flw = d.flw := by
  obtain ⟨_, _, _, _, _, _, rfl⟩ := h.rest
  rfl

/-- A field of a register that a report leaves. -/
theorem ErrFrame.get (h : ErrFrame d x) {q : RegSpec} {jx : List Nat} (hq : errRegs.all (fun r => r.clear q) = true) (hj : ixOk q.dims jx = true) (f : String) :
    x.get q jx f = d.get q jx f := by
  simp only [Dev.get, h.regs q jx hq hj]

/-! ## The steps of a report -/

theorem ErrFrame.stores (h : ErrFrame d x) {free : Nat} {hif : HifS} {gal : GalS} {err : Two ErrS} {trc : Two TrcS} :
    ErrFrame d { x with free := free, hif := hif, gal := gal, err := err, trc := trc } :=
  h.trans ⟨⟨_, _, _, _, _, _, rfl⟩, fun _ _ _ _ => rfl⟩

theorem ErrFrame.setW (h : ErrFrame d x) (r : RegSpec) (hi : ixOk r.dims ix = true) (v : Nat) (hr : r ∈ errRegs := by simp [errRegs]) :
    ErrFrame d (x.setW r ix v) :=
  h.trans ⟨⟨_, _, _, _, _, _, rfl⟩, fun _ _ hq hj => x.getW_setW_ne v (apart_of_clear (List.all_eq_true.mp hq r hr) hi hj)⟩

theorem ErrFrame.put (h : ErrFrame d x) (r : RegSpec) (hi : ixOk r.dims ix = true) (f : String) (v : Nat) (hr : r ∈ errRegs := by simp [errRegs]) :
    ErrFrame d (x.put r ix f v) := by
  unfold Dev.put
  split
  · exact h.setW r hi _ hr
  · exact h

theorem ErrFrame.bump (h : ErrFrame d x) (r : RegSpec) (hi : ixOk r.dims ix = true) (f : String) (n : Nat) (hr : r ∈ errRegs := by simp [errRegs]) :
    ErrFrame d (x.bump r ix f n) := h.put r hi f _ hr

theorem TrcFrame.errFrame (h : TrcFrame k d x) (hk : k < 2) : ErrFrame d x := by
  obtain ⟨m, hm⟩ := h.rest
  refine ⟨⟨_, _, _, _, _, _, hm⟩, fun q jx hq hj => ?_⟩
  have hclear := List.all_eq_true.mp hq
  exact h.regs q jx (apart_of_clear (hclear _ (by simp [errRegs])) (ixOk_die hk) hj) (apart_of_clear (hclear _ (by simp [errRegs])) (ixOk_die hk) hj)

/-- R673: a record reaches its source's FIFO, or is dropped. -/
theorem ErrFrame.trcArrive (h : ErrFrame d x) (hk : k < 2) {r : TrcRec} (h1 : 1 ≤ r.src) (h6 : r.src ≤ 6) : ErrFrame d (x.trcArrive k r) := by
  have hdrain : ∀ n y, ErrFrame y (Dev.trcDrain k n y) := fun n y => (Dev.trcDrain_frame k n y).errFrame hk
  have hfresh : ErrFrame d (x.fresh 49).2 := h.stores
  unfold Dev.trcArrive
  dsimp only
  split
  · exact (hfresh.trans (hdrain _ _)).stores.bump R.TRC_DROP (ixOk_drop hk h1 h6) _ _
  · exact (hfresh.trans (hdrain _ _)).stores

/-- R679: a trace record is captured, or not. -/
theorem ErrFrame.trace (h : ErrFrame d x) (hk : k < 2) {src : Nat} (h1 : 1 ≤ src) (h6 : src ≤ 6) (typ : Nat) (pay : List Byte) (sel : Bool)
    (code : Option Nat) : ErrFrame d (x.trace k src typ pay sel code) := by
  unfold Dev.trace
  dsimp only
  split
  · split
    · exact h.stores.trcArrive hk h1 h6
    · exact h.stores
  · exact h

/-- R606: the record of an event stands in the log. -/
theorem ErrFrame.putLog (h : ErrFrame d x) (hk : k < 2) {i : Nat} (hi : i < 16) (bs : List Byte) : ErrFrame d (x.putBytes R.ERR_LOG [k, i] bs 8) := by
  unfold Dev.putBytes
  refine List.foldlRecOn (motive := ErrFrame d) (List.range 8) _ h fun y hy w hw => hy.setW R.ERR_LOG ?_ _
  have hw8 := List.mem_range.mp hw
  simp only [R.ERR_LOG, List.cons_append, List.nil_append, ixOk, Bool.and_eq_true, Bool.and_true, decide_eq_true_eq]
  omega

/-- R609: the record reaches the host ring, or is lost. -/
theorem ErrFrame.errRing (h : ErrFrame d x) (hk : k < 2) (bs : List Byte) : ErrFrame d (x.errRing k bs) := by
  have hdie : ixOk R.ERR_RING_LOST.dims [k] = true := ixOk_die hk
  have htail : ixOk R.ERR_RING_TAIL.dims [k] = true := ixOk_die hk
  unfold Dev.errRing
  dsimp only
  split
  · exact h
  · split
    · exact (h.bump R.ERR_RING_LOST hdie _ _).stores
    · refine ErrFrame.stores (ErrFrame.put ?_ R.ERR_RING_TAIL htail _ _)
      exact h.stores

/-- R608: a galley alert waits, or is lost. -/
theorem ErrFrame.alert (h : ErrFrame d x) (bs : List Byte) : ErrFrame d (x.alert bs) := by
  unfold Dev.alert
  split
  · exact h.stores
  · exact h.bump R.GAL_ALERT_LOST rfl _ _

/-- R608: the record of an event, to the log, to the ring, and signalled. -/
theorem ErrFrame.errWrite (h : ErrFrame d x) {ev : ErrEvent} (hk : ev.d < 2) (inj : Bool) (r : Resp) : ErrFrame d (x.errWrite ev inj r) := by
  have hidx : x.get R.ERR_LOG_IDX [ev.d] "IDX" < 16 := Nat.mod_lt _ (by decide)
  unfold Dev.errWrite
  extract_lets k l rec_ seq i a b c y ring sent
  have ha : ErrFrame d a := h.stores
  have hc : ErrFrame d c := ((ha.putLog hk hidx rec_).put R.ERR_LOG_IDX (ixOk_die hk) _ _).put R.ERR_SEQ (ixOk_die hk) _ _
  have hy : ErrFrame d y := by
    unfold y
    split
    · exact (hc.put R.ERR_INJ_LAST (ixOk_die hk) _ _).put R.ERR_INJ_LAST (ixOk_die hk) _ _
    · exact hc
  have hring : ErrFrame d ring := hy.errRing hk rec_
  have hsent : ErrFrame d sent := by
    unfold sent
    split
    · exact hring.stores
    · exact hring
  split
  · exact hsent.alert rec_
  · exact hsent

/-- R608: an event is counted, recorded unless withheld, and traced. -/
theorem ErrFrame.errEvent (h : ErrFrame d x) {ev : ErrEvent} (hk : ev.d < 2) (hcode : ev.code < 128) (hcls : ev.cls ≤ 3) (inj : Bool) (r : Resp) (hide : Bool) :
    ErrFrame d (x.errEvent ev inj r hide) := by
  have hsrc : ixOk R.ERR_SRC_CNT.dims [ev.d, ev.code] = true := by
    simp only [R.ERR_SRC_CNT, ixOk, Bool.and_eq_true, Bool.and_true, decide_eq_true_eq]
    omega
  have hcnt : ixOk R.ERR_CNT.dims [ev.d, ev.cls - 1] = true := by
    simp only [R.ERR_CNT, ixOk, Bool.and_eq_true, Bool.and_true, decide_eq_true_eq]
    omega
  have hcounted : ErrFrame d ((x.bump R.ERR_SRC_CNT [ev.d, ev.code] "COUNT" 1).bump R.ERR_CNT [ev.d, ev.cls - 1] "COUNT" 1) :=
    (h.bump R.ERR_SRC_CNT hsrc _ _).bump R.ERR_CNT hcnt _ _
  unfold Dev.errEvent
  dsimp only
  refine ErrFrame.trace ?_ hk (by decide) (by decide) _ _ _ _
  split
  · exact hcounted.stores
  · exact hcounted.errWrite hk inj r

end

/-! ## The reads of a slot (R125, R128, R520) -/

theorem raDie_lt {ra : Nat} (hra : raOk ra = true) : raDie ra < 2 := by
  simp only [raOk, Bool.and_eq_true, decide_eq_true_eq] at hra
  obtain ⟨⟨hstack, -⟩, -⟩ := hra
  unfold raDie
  omega

section
variable {d x : Dev} {ra : Nat}

/-- R607, R613: a record or tag block that fails, or that its mirror copy gave, is reported. -/
theorem flwCheck_frame (d : Dev) (hra : raOk ra = true) (h typ : Nat) {cls : Nat} (hcls : cls ≤ 3) : ErrFrame d (d.flwCheck h ra typ cls) := by
  have hk := raDie_lt hra
  unfold Dev.flwCheck
  extract_lets k r hide wrote y z
  have hy : ErrFrame d y := (ErrFrame.refl d).errEvent hk (by decide : 0x10 < 128) hcls _ noResp hide
  split
  · exact hy.stores.put R.FLW_DIV_STAT (ixOk_die hk) _ _
  · exact hy

/-- R125, R128: a read of a record (`typ` 1) or of a tag block (`typ` 2), with its report: `r` says whether some copy gave it, and whether the mirror had to. -/
def Dev.readChecked (d : Dev) (h ra typ : Nat) (r : Bool × Bool) : Dev × Bool :=
  if !r.1 then (d.flwCheck h ra typ 2, false) else (if r.2 then d.flwCheck h ra typ 1 else d, true)

theorem tagUse_eq (d : Dev) (ra : Nat) :
    d.tagUse ra = d.readChecked (d.hashKey (raDie ra) (d.slot ra).body.key) ra 2 (d.tagRead (raStack ra) (raBucket ra)) := rfl

theorem bodyUse_eq (d : Dev) (ra : Nat) : d.bodyUse ra = d.readChecked (d.hashKey (raDie ra) (d.slot ra).body.key) ra 1 (d.recRead ra) := rfl

theorem readChecked_snd (d : Dev) (h ra typ : Nat) (r : Bool × Bool) : (d.readChecked h ra typ r).2 = r.1 := by
  unfold Dev.readChecked
  cases r.1 <;> rfl

theorem readChecked_frame (d : Dev) (hra : raOk ra = true) (h typ : Nat) (r : Bool × Bool) : ErrFrame d (d.readChecked h ra typ r).1 := by
  unfold Dev.readChecked
  split
  · exact flwCheck_frame d hra h typ (by decide)
  · dsimp only
    split
    · exact flwCheck_frame d hra h typ (by decide)
    · exact .refl d

/-- R125, R128: the record is read when the tag block passes. -/
theorem recUse_eq (d : Dev) (ra : Nat) :
    d.recUse ra = if (d.tagRead (raStack ra) (raBucket ra)).1 then (d.tagUse ra).1.bodyUse ra else ((d.tagUse ra).1, false) := by
  have htag : (d.tagUse ra).2 = (d.tagRead (raStack ra) (raBucket ra)).1 := by rw [tagUse_eq, readChecked_snd]
  rw [← htag, Dev.recUse]
  split <;> simp only [*, Bool.false_eq_true, if_false, if_true]

/-- A read of a slot changes nothing but what reports do. -/
theorem recUse_frame (d : Dev) (hra : raOk ra = true) : ErrFrame d (d.recUse ra).1 := by
  rw [recUse_eq]
  split
  · exact (readChecked_frame d hra _ _ _).trans (readChecked_frame _ hra _ _ _)
  · exact readChecked_frame d hra _ _ _

theorem slot_of_flw (h : x.flw = d.flw) (q : Nat) : x.slot q = d.slot q := by
  rw [Dev.slot, h, Dev.slot]

theorem ErrFrame.slot (h : ErrFrame d x) (q : Nat) : x.slot q = d.slot q := slot_of_flw h.flw q

theorem slotControls_clear : errRegs.all (fun r => r.clear R.FLW_CTL) = true ∧ errRegs.all (fun r => r.clear R.MEM_STACK_CTL) = true := by decide +kernel

/-- R125, R522: which copy of a record is read, and how it reads, stand. -/
theorem ErrFrame.recRead (h : ErrFrame d x) (hra : raOk ra = true) : x.recRead ra = d.recRead ra := by
  have hstack : ixOk R.MEM_STACK_CTL.dims [raStack ra / 3, raStack ra % 3] = true := by
    have hdie : raStack ra / 3 < 2 := raDie_lt hra
    simp only [R.MEM_STACK_CTL, ixOk, Bool.and_eq_true, Bool.and_true, decide_eq_true_eq]
    omega
  obtain ⟨hctl, hstackCtl⟩ := slotControls_clear
  simp only [Dev.recRead, Dev.mirrorRd, Dev.mirrored, Dev.bit, h.get hctl (jx := [0]) rfl, h.get hstackCtl hstack, h.slot]

/-- R520: a slot can be read when its tag block and its record pass. -/
theorem recUse_snd (d : Dev) (hra : raOk ra = true) : (d.recUse ra).2 = d.auuReadable ra := by
  rw [recUse_eq, Dev.auuReadable]
  split
  · rename_i htag
    have htagUse : ErrFrame d (d.tagUse ra).1 := readChecked_frame d hra _ _ _
    rw [bodyUse_eq, readChecked_snd, htagUse.recRead hra, htag, Bool.true_and]
  · rename_i htag
    rw [eq_false_of_ne_true htag, Bool.false_and]

end

end Sys2Proof.Machine
end

section
/-! SUPPORT. The store of a record (R124, R208), and the operation ADD (R208, R209). -/

namespace Sys2Proof.Machine

section
variable {d : Dev} {ra q : Nat}

theorem slot_updSlot_same (d : Dev) (ra : Nat) (f : Slot → Slot) : (d.updSlot ra f).slot ra = f (d.slot ra) :=
  SMap.get_set_same _ _ _ _

theorem slot_updSlot_ne (d : Dev) (f : Slot → Slot) (h : q ≠ ra) : (d.updSlot ra f).slot q = d.slot q :=
  SMap.get_set_ne _ _ _ _ h

theorem Dev.markInj_flw (d : Dev) (k code a : Nat) : (d.markInj k code a).flw = d.flw := rfl
theorem Dev.unmarkInj_flw (d : Dev) (k code a : Nat) : (d.unmarkInj k code a).flw = d.flw := rfl

theorem Dev.injPlanted_flw (d : Dev) (k : Nat) : (d.injPlanted k).flw = d.flw := by
  simp only [Dev.injPlanted, Dev.bump, Dev.put_flw]

/-- R616: a slot written gets the bad CHECK of an armed injection, or leaves the stores of the flow table. -/
theorem slotWritten_flw (d : Dev) (ra : Nat) : (∃ badM, (d.slotWritten ra).flw = (d.updSlot ra (fun s => { s with badP := true, badM := badM })).flw) ∨
    (d.slotWritten ra).flw = d.flw := by
  unfold Dev.slotWritten
  extract_lets k two
  split
  · exact .inl ⟨two, (Dev.markInj_flw _ _ _ _).trans (Dev.injPlanted_flw _ _)⟩
  · exact .inr (Dev.unmarkInj_flw _ _ _ _)

/-- R616: a slot written keeps its contents but for what its CHECK says, and every other slot stands. -/
theorem slotWritten_slot (d : Dev) (ra : Nat) :
    (∃ badP badM, (d.slotWritten ra).slot ra = { d.slot ra with badP := badP, badM := badM }) ∧ ∀ q, q ≠ ra → (d.slotWritten ra).slot q = d.slot q := by
  rcases slotWritten_flw d ra with ⟨badM, hflw⟩ | hflw
  · exact ⟨⟨true, badM, (slot_of_flw hflw ra).trans (slot_updSlot_same d ra _)⟩, fun q hq => (slot_of_flw hflw q).trans (slot_updSlot_ne d _ hq)⟩
  · exact ⟨⟨(d.slot ra).badP, (d.slot ra).badM, slot_of_flw hflw ra⟩, fun q _ => slot_of_flw hflw q⟩

/-- R124, R208: a record stored stands in its slot, and every other slot stands. -/
theorem auuStore_slot (d : Dev) (ra : Nat) (r : Rec) :
    (∃ badP badM, (d.auuStore ra r).slot ra = { d.slot ra with body := r, badP := badP, badM := badM }) ∧
      ∀ q, q ≠ ra → (d.auuStore ra r).slot q = d.slot q := by
  obtain ⟨⟨badP, badM, hsame⟩, hother⟩ := slotWritten_slot (d.updSlot ra (fun s => { s with body := r, badP := false, badM := false })) ra
  refine ⟨⟨badP, badM, ?_⟩, fun q hq => (hother q hq).trans (slot_updSlot_ne d _ hq)⟩
  rw [Dev.auuStore, hsame, slot_updSlot_same]

/-! ## ADD (R208, R209) -/

/-- R209: ADD of a slot that is not VALID returns NOREC. -/
theorem auuApply_add_norec (hst : (d.slot ra).st ≠ .valid) (e tok dp doct : Nat) : d.auuApply ra (.add e tok dp doct) = d.complete e tok [6] := by
  simp only [Dev.auuApply, beq_false_of_ne hst, Bool.not_false, if_true]

/-- R208, R520: ADD of a VALID record that can be read stores the sums and returns OK. -/
theorem auuApply_add_stores (hra : raOk ra = true) (hst : (d.slot ra).st = .valid) (hread : d.auuReadable ra = true) (e tok dp doct : Nat) :
    d.auuApply ra (.add e tok dp doct) = ((d.recUse ra).1.auuStore ra (recAdd (d.slot ra).body dp doct)).complete e tok [0] := by
  have hok : (d.recUse ra).2 = true := (recUse_snd d hra).trans hread
  simp only [Dev.auuApply, hst, beq_self_eq_true, Bool.not_true, Bool.false_eq_true, if_false]
  split
  · rename_i y hy
    simp [hy] at hok
  · rename_i y hy
    rw [hy]

/-- R208: after ADD of a VALID record that can be read its slot differs in the sums, and perhaps in how its CHECK reads; no other slot differs. -/
theorem auuApply_add_slot (hra : raOk ra = true) (hst : (d.slot ra).st = .valid) (hread : d.auuReadable ra = true) (e tok dp doct : Nat) :
    (∃ badP badM, (d.auuApply ra (.add e tok dp doct)).slot ra = { d.slot ra with body := recAdd (d.slot ra).body dp doct, badP := badP, badM := badM }) ∧
      ∀ q, q ≠ ra → (d.auuApply ra (.add e tok dp doct)).slot q = d.slot q := by
  have huse := recUse_frame d hra
  obtain ⟨⟨badP, badM, hsame⟩, hother⟩ := auuStore_slot (d.recUse ra).1 ra (recAdd (d.slot ra).body dp doct)
  rw [auuApply_add_stores hra hst hread]
  exact ⟨⟨badP, badM, hsame.trans (by rw [huse.slot])⟩, fun q hq => (hother q hq).trans (huse.slot q)⟩

end

/-- Settles O51: the ADD at the head of its record's queue is applied (`auuTake_applies`), as `auuApply_add_norec` and `auuApply_add_slot` say. -/
theorem addNeedsAValidRecordAndNoQuoin : Obligations.AddNeedsAValidRecordAndNoQuoin := by
  intro s ra e tok dp doct o rest hra hpop hkind hmode d
  have happly : exec (.auuAdd ra) s = .next { s with dev := d.auuApply ra (.add e tok dp doct) } := by
    rw [exec_auuAdd, execAuuAdd, within_pos hra, auuTake_applies hmode hpop (by rw [hkind]) (by rw [hkind]; exact nofun), hkind]
    rfl
  refine ⟨fun hst => ?norec, fun hst hread => ?sums⟩
  case norec => rw [happly, auuApply_add_norec (d := d) hst]
  case sums =>
    obtain ⟨⟨badP, badM, hsame⟩, hother⟩ := auuApply_add_slot (d := d) hra hst hread e tok dp doct
    refine ⟨_, happly, ?_⟩
    dsimp only
    rw [hsame]
    exact ⟨rfl, rfl, hst, rfl, hother⟩

end Sys2Proof.Machine
end

section
/-! SUPPORT. The host's commands on the search tables (R276–R281, R288–R290, R305): the word of a command carries its OP and operands, and its register, where
it takes the word, does what that OP says. -/

namespace Sys2Proof.Machine

/-! ## Words of command registers -/

section
variable {r : RegSpec} {f f' f'' : String} {hi lo hi' lo' hi'' lo'' : Nat}

theorem fv_of_field (hf : r.field f = some (fl f hi lo .wo)) (v : Nat) : fv r f v = bitsOf v hi lo := by
  rw [fv, hf]
  rfl

theorem pack_one (hf : r.field f = some (fl f hi lo .wo)) (v : Nat) : pack r [(f, v)] = setBits 0 hi lo v := by
  simp only [pack, List.foldl_cons, List.foldl_nil, hf, fl]

theorem pack_two (hf : r.field f = some (fl f hi lo .wo)) (hf' : r.field f' = some (fl f' hi' lo' .wo)) (v v' : Nat) :
    pack r [(f, v), (f', v')] = setBits (setBits 0 hi lo v) hi' lo' v' := by
  simp only [pack, List.foldl_cons, List.foldl_nil, hf, hf', fl]

theorem pack_three (hf : r.field f = some (fl f hi lo .wo)) (hf' : r.field f' = some (fl f' hi' lo' .wo)) (hf'' : r.field f'' = some (fl f'' hi'' lo'' .wo))
    (v v' v'' : Nat) : pack r [(f, v), (f', v'), (f'', v'')] = setBits (setBits (setBits 0 hi lo v) hi' lo' v') hi'' lo'' v'' := by
  simp only [pack, List.foldl_cons, List.foldl_nil, hf, hf', hf'', fl]

end

section
variable {d : Dev} {p : Path} {g : Nat}

/-! ## The regions' registers -/

theorem rgOfIx_region (g : Nat) : rgOfIx [g / 2, g % 2] = g := Nat.div_add_mod g 2

theorem ixOk_region (hg : g < 4) : ixOk R.MAT_TCAM_CMD.dims [g / 2, g % 2] = true := by
  simp only [R.MAT_TCAM_CMD, ixOk, Bool.and_eq_true, Bool.and_true, decide_eq_true_eq]
  omega

/-! ## TCAM commands (R280) -/

/-- R280: what an OP of MAT_TCAM_CMD does. -/
def Dev.tcamOp (d : Dev) (op g prof i : Nat) : Dev :=
  match op with
  | 1 => d.tcamWrite g prof i
  | 2 => d.tcamInvalidate g prof i
  | 3 => d.tcamRead g prof i
  | _ => d.tcamReadArray g prof i

theorem performWrite_tcamCmd (ix : List Nat) (v : Nat) : d.performWrite p ⟨R.MAT_TCAM_CMD, ix, false⟩ v =
    d.tcamOp (fv R.MAT_TCAM_CMD "OP" v) (rgOfIx ix) (fv R.MAT_TCAM_CMD "PROF" v) (fv R.MAT_TCAM_CMD "INDEX" v) := rfl

theorem tcamCmd_fields : R.MAT_TCAM_CMD.field "OP" = some (fl "OP" 31 28 .wo) ∧ R.MAT_TCAM_CMD.field "PROF" = some (fl "PROF" 27 24 .wo) ∧
    R.MAT_TCAM_CMD.field "INDEX" = some (fl "INDEX" 14 0 .wo) := ⟨rfl, rfl, rfl⟩

section
variable {op prof i : Nat} (hop : op < 16) (hp : prof < 16) (hi : i < 32768)
include hop hp hi

theorem pack_tcamCmd : pack R.MAT_TCAM_CMD [("OP", op), ("PROF", prof), ("INDEX", i)] = op * 2 ^ 28 + prof * 2 ^ 24 + i := by
  obtain ⟨hfop, hfprof, hfi⟩ := tcamCmd_fields
  rw [pack_three hfop hfprof hfi]
  simp only [setBits_eq, Nat.reduceAdd, Nat.reduceSub, Nat.reducePow]
  omega

theorem fv_tcamCmd : fv R.MAT_TCAM_CMD "OP" (op * 2 ^ 28 + prof * 2 ^ 24 + i) = op ∧
    fv R.MAT_TCAM_CMD "PROF" (op * 2 ^ 28 + prof * 2 ^ 24 + i) = prof ∧ fv R.MAT_TCAM_CMD "INDEX" (op * 2 ^ 28 + prof * 2 ^ 24 + i) = i := by
  obtain ⟨hfop, hfprof, hfi⟩ := tcamCmd_fields
  simp only [fv_of_field hfop, fv_of_field hfprof, fv_of_field hfi, bitsOf_eq]
  omega

theorem hostOp_tcamCmd (hg : g < 4) (ht : d.takes p R.MAT_TCAM_CMD [g / 2, g % 2] (op * 2 ^ 28 + prof * 2 ^ 24 + i) = true) :
    d.hostOp p R.MAT_TCAM_CMD [g / 2, g % 2] [("OP", op), ("PROF", prof), ("INDEX", i)] = d.tcamOp op g prof i := by
  obtain ⟨hfop, hfprof, hfi⟩ := fv_tcamCmd hop hp hi
  rw [Dev.hostOp_takes (pack_tcamCmd hop hp hi) ht placed_MAT_TCAM_CMD (ixOk_region hg) rfl (by omega), performWrite_tcamCmd, hfop, hfprof, hfi,
    rgOfIx_region]

end

/-- No test of a write looks at the bits that the rows of the array take wrong. -/
theorem takes_flip (ix : List Nat) (v n : Nat) :
    ({ d with mat := { d.mat with flip := n } }).takes p R.MAT_TCAM_CMD ix v = d.takes p R.MAT_TCAM_CMD ix v := rfl

/-- R276–R278: WRITE meets the bits that the rows take wrong, and none is left after it. -/
theorem tcamWriteCmd_takes {prof i : Nat} (hp : prof < 16) (hi : i < 32768) (hg : g < 4) (flip : Nat)
    (ht : d.takes p R.MAT_TCAM_CMD [g / 2, g % 2] (2 ^ 28 + prof * 2 ^ 24 + i) = true) :
    let x := { d with mat := { d.mat with flip := flip } }.tcamWrite g prof i
    d.tcamWriteCmd p g prof i flip = { x with mat := { x.mat with flip := 0 } } := by
  rw [← takes_flip (n := flip)] at ht
  simp only [Dev.tcamWriteCmd, hostOp_tcamCmd (op := 1) (by decide) hp hi hg ht, Dev.tcamOp]

/-! ## Commands of the exact and direct tables (R288–R290) -/

/-- R290: what an OP of MAT_EX_CMD does. -/
def Dev.exOp (d : Dev) (op g table i : Nat) : Dev :=
  match op with
  | 1 => d.exLookup g table
  | 2 => d.exInsert g table
  | 3 => d.exDelete g table
  | 4 => d.exReplace g table
  | 5 => d.dirWrite g table i
  | _ => d.dirRead g table i

theorem performWrite_exCmd (ix : List Nat) (v : Nat) : d.performWrite p ⟨R.MAT_EX_CMD, ix, false⟩ v =
    d.exOp (fv R.MAT_EX_CMD "OP" v) (rgOfIx ix) (fv R.MAT_EX_CMD "TABLE" v) (fv R.MAT_EX_CMD "INDEX" v) := rfl

theorem exCmd_fields : R.MAT_EX_CMD.field "OP" = some (fl "OP" 31 28 .wo) ∧ R.MAT_EX_CMD.field "TABLE" = some (fl "TABLE" 27 20 .wo) ∧
    R.MAT_EX_CMD.field "INDEX" = some (fl "INDEX" 19 0 .wo) := ⟨rfl, rfl, rfl⟩

section
variable {op table i : Nat} (hop : op < 16) (htab : table < 256)
include hop htab

theorem pack_exCmd (hi : i < 2 ^ 20) : pack R.MAT_EX_CMD [("OP", op), ("TABLE", table), ("INDEX", i)] = op * 2 ^ 28 + table * 2 ^ 20 + i := by
  obtain ⟨hfop, hftab, hfi⟩ := exCmd_fields
  rw [pack_three hfop hftab hfi]
  simp only [setBits_eq, Nat.reduceAdd, Nat.reduceSub, Nat.reducePow]
  omega

theorem pack_exCmd_noIndex : pack R.MAT_EX_CMD [("OP", op), ("TABLE", table)] = op * 2 ^ 28 + table * 2 ^ 20 := by
  obtain ⟨hfop, hftab, -⟩ := exCmd_fields
  rw [pack_two hfop hftab]
  simp only [setBits_eq, Nat.reduceAdd, Nat.reduceSub, Nat.reducePow]
  omega

theorem fv_exCmd (hi : i < 2 ^ 20) : fv R.MAT_EX_CMD "OP" (op * 2 ^ 28 + table * 2 ^ 20 + i) = op ∧
    fv R.MAT_EX_CMD "TABLE" (op * 2 ^ 28 + table * 2 ^ 20 + i) = table ∧ fv R.MAT_EX_CMD "INDEX" (op * 2 ^ 28 + table * 2 ^ 20 + i) = i := by
  obtain ⟨hfop, hftab, hfi⟩ := exCmd_fields
  simp only [fv_of_field hfop, fv_of_field hftab, fv_of_field hfi, bitsOf_eq]
  omega

theorem hostOp_exCmd (hi : i < 2 ^ 20) (hg : g < 4) {fs : List (String × Nat)} (hfs : pack R.MAT_EX_CMD fs = op * 2 ^ 28 + table * 2 ^ 20 + i)
    (ht : d.takes p R.MAT_EX_CMD [g / 2, g % 2] (op * 2 ^ 28 + table * 2 ^ 20 + i) = true) :
    d.hostOp p R.MAT_EX_CMD [g / 2, g % 2] fs = d.exOp op g table i := by
  obtain ⟨hfop, hftab, hfi⟩ := fv_exCmd hop htab hi
  rw [Dev.hostOp_takes hfs ht placed_MAT_EX_CMD (ixOk_region hg) rfl (by omega), performWrite_exCmd, hfop, hftab, hfi, rgOfIx_region]

end

/-! ## Counters (R305) -/

theorem hostWrite_cntSel (hg : g < 4) {v : Word} (ht : d.takes p R.MAT_CNT_SEL [g / 2, g % 2] v.toNat = true) :
    d.hostWrite p (R.MAT_CNT_SEL.addr [g / 2, g % 2]) v = d.cntSnapshot g v.toNat := by
  rw [hostWrite_word ht placed_MAT_CNT_SEL (ixOk_region hg) rfl]
  exact congrArg (d.cntSnapshot · v.toNat) (rgOfIx_region g)

end

/-! ## The commands run -/

section
variable {s : State} {p : Path} {g op : Nat}

/-- R280: a command of MAT_TCAM_CMD runs as its OP says. -/
theorem tcamOp_runs {prof i : Nat} (hop : op < 16) (hg : g < 4) (hp : prof < 16) (hi : i < 32768)
    (ht : s.dev.takes p R.MAT_TCAM_CMD [g / 2, g % 2] (op * 2 ^ 28 + prof * 2 ^ 24 + i) = true) :
    within (below 4 g && below 16 prof && below 32768 i) s
      (fun d => d.hostOp p R.MAT_TCAM_CMD [g / 2, g % 2] [("OP", op), ("PROF", prof), ("INDEX", i)]) = .next { s with dev := s.dev.tcamOp op g prof i } := by
  rw [within_pos (by simp [below, hg, hp, hi]), hostOp_tcamCmd hop hp hi hg ht]

/-- R290: a command of MAT_EX_CMD on an exact table runs as its OP says. -/
theorem exOp_runs {table : Nat} (hop : op < 16) (hg : g < 4) (htab : table < 256)
    (ht : s.dev.takes p R.MAT_EX_CMD [g / 2, g % 2] (op * 2 ^ 28 + table * 2 ^ 20) = true) :
    within (below 4 g && below 256 table) s (fun d => d.hostOp p R.MAT_EX_CMD [g / 2, g % 2] [("OP", op), ("TABLE", table)]) =
      .next { s with dev := s.dev.exOp op g table 0 } := by
  rw [← Nat.add_zero (op * 2 ^ 28 + table * 2 ^ 20)] at ht
  rw [within_pos (below_and_below hg htab), hostOp_exCmd hop htab (Nat.two_pow_pos 20) hg ((pack_exCmd_noIndex hop htab).trans (Nat.add_zero _).symm) ht]

/-- R290: a command of MAT_EX_CMD on an entry of a direct table runs as its OP says. -/
theorem dirOp_runs {table i : Nat} (hop : op < 16) (hg : g < 4) (htab : table < 256) (hi : i < 2 ^ 20)
    (ht : s.dev.takes p R.MAT_EX_CMD [g / 2, g % 2] (op * 2 ^ 28 + table * 2 ^ 20 + i) = true) :
    within (below 4 g && below 256 table && below (2 ^ 20) i) s
      (fun d => d.hostOp p R.MAT_EX_CMD [g / 2, g % 2] [("OP", op), ("TABLE", table), ("INDEX", i)]) =
      .next { s with dev := s.dev.exOp op g table i } := by
  rw [within_pos (by simp only [below, hg, htab, hi, decide_true, Bool.and_true]), hostOp_exCmd hop htab hi hg (pack_exCmd hop htab hi) ht]

end

/-- Settles O24: each command's word has its OP and operands in their fields, and its register does what the OP says. -/
theorem matchCommandsComplete : Obligations.MatchCommandsComplete := by
  intro s p g prof index table di block row flip v hg hprof hindex htable hdi hblock hrow ix
  refine ⟨fun ht => ?write, fun ht => ?invalidate, fun ht => ?read, fun ht => ?readArray, ?scrub, fun ht => ?lookup, fun ht => ?insert, fun ht => ?delete,
    fun ht => ?replace, fun ht => ?dirWrite, fun ht => ?dirRead, fun ht => ?snapshot⟩
  case write =>
    have hunits : (below 4 g && below 16 prof && below 32768 index) = true := by simp [below, hg, hprof, hindex]
    rw [exec_tcamWrite, execTcamWrite, within_pos hunits, tcamWriteCmd_takes hprof hindex hg flip ht]
  case invalidate => exact tcamOp_runs (op := 2) (by decide) hg hprof hindex ht
  case read => exact tcamOp_runs (op := 3) (by decide) hg hprof hindex ht
  case readArray => exact tcamOp_runs (op := 4) (by decide) hg hprof hindex ht
  case scrub =>
    have hunits : (below 4 g && below 16 block && below 2048 row) = true := by simp [below, hg, hblock, hrow]
    rw [exec_tcamScrubVisit, execTcamScrubVisit, within_pos hunits]
  case lookup => exact exOp_runs (op := 1) (by decide) hg htable ht
  case insert => exact exOp_runs (op := 2) (by decide) hg htable ht
  case delete => exact exOp_runs (op := 3) (by decide) hg htable ht
  case replace => exact exOp_runs (op := 4) (by decide) hg htable ht
  case dirWrite => exact dirOp_runs (op := 5) (by decide) hg htable hdi ht
  case dirRead => exact dirOp_runs (op := 6) (by decide) hg htable hdi ht
  case snapshot => rw [exec_counterSnapshot, execCounterSnapshot, within_pos ((below_iff _ _).mpr hg), hostWrite_cntSel hg ht]

end Sys2Proof.Machine
end

section
/-! SUPPORT. The host's commands on the L2 tables (R295, R296, R302) and on the action, cell-plan and balancer stores (R309, R323, R331, R340). -/

namespace Sys2Proof.Machine

/-- R13: a command register of a die that takes a command's word has the effect of that word. -/
theorem dieWord_runs {s : State} {p : Path} {r : RegSpec} {k v : Nat} {fs : List (String × Nat)} (h : r.placed = true)
    (hdims : r.dims = R.FLW_QN_STATUS.dims) (hw : r.wide = false) (hfs : pack r fs = v) (hlt : v < 2 ^ 32) (hk : k < 2) (ht : s.dev.takes p r [k] v = true) :
    within (below 2 k) s (fun d => d.hostOp p r [k] fs) = .next { s with dev := s.dev.performWrite p ⟨r, [k], false⟩ v } := by
  rw [within_pos ((below_iff _ _).mpr hk), Dev.hostOp_takes hfs ht h (by rw [hdims, ixOk_die hk]) hw hlt]

section
variable {d : Dev} {p : Path} {k : Nat}

/-! ## The L2 tables (R302) -/

/-- R302: what each OP of L2_HCMD does. -/
theorem performWrite_l2Cmd : d.performWrite p ⟨R.L2_HCMD, [k], false⟩ 1 = d.l2Lookup k ∧
    d.performWrite p ⟨R.L2_HCMD, [k], false⟩ 2 = d.l2Insert k ∧ d.performWrite p ⟨R.L2_HCMD, [k], false⟩ 3 = d.l2Delete k ∧
    ∀ fidm, d.performWrite p ⟨R.L2_HCMD, [k], false⟩ (4 + 256 * b2n fidm) = d.l2Flush k fidm :=
  ⟨rfl, rfl, rfl, fun fidm => by cases fidm <;> rfl⟩

theorem pack_l2Flush (fidm : Bool) : pack R.L2_HCMD [("OP", 4), ("FIDM", b2n fidm)] = 4 + 256 * b2n fidm := by cases fidm <;> rfl

/-! ## The action store (R340) -/

/-- R340: what an OP of ACT_CMD does. -/
def Dev.actOp (d : Dev) (op k i : Nat) : Dev := if op = 1 then d.actWrite k i else d.actRead k i

theorem performWrite_actCmd (v : Nat) : d.performWrite p ⟨R.ACT_CMD, [k], false⟩ v = d.actOp (fv R.ACT_CMD "OP" v) k (fv R.ACT_CMD "INDEX" v) := rfl

theorem actCmd_fields : R.ACT_CMD.field "OP" = some (fl "OP" 31 28 .wo) ∧ R.ACT_CMD.field "INDEX" = some (fl "INDEX" 17 0 .wo) := ⟨rfl, rfl⟩

theorem pack_actCmd {op i : Nat} (hop : op < 16) (hi : i < 2 ^ 18) : pack R.ACT_CMD [("OP", op), ("INDEX", i)] = op * 2 ^ 28 + i := by
  obtain ⟨hfop, hfi⟩ := actCmd_fields
  rw [pack_two hfop hfi]
  simp only [setBits_eq, Nat.reduceAdd, Nat.reduceSub, Nat.reducePow]
  omega

theorem fv_actCmd {op i : Nat} (hop : op < 16) (hi : i < 2 ^ 18) :
    fv R.ACT_CMD "OP" (op * 2 ^ 28 + i) = op ∧ fv R.ACT_CMD "INDEX" (op * 2 ^ 28 + i) = i := by
  obtain ⟨hfop, hfi⟩ := actCmd_fields
  simp only [fv_of_field hfop, fv_of_field hfi, bitsOf_eq]
  omega

/-- R340: a command of ACT_CMD runs as its OP says. -/
theorem actOp_runs {s : State} {op i : Nat} (hop : op < 16) (hk : k < 2) (hi : i < 2 ^ 18)
    (ht : s.dev.takes p R.ACT_CMD [k] (op * 2 ^ 28 + i) = true) :
    within (below 2 k && below (2 ^ 18) i) s (fun d => d.hostOp p R.ACT_CMD [k] [("OP", op), ("INDEX", i)]) =
      .next { s with dev := s.dev.actOp op k i } := by
  obtain ⟨hfop, hfi⟩ := fv_actCmd hop hi
  rw [within_pos (below_and_below hk hi), Dev.hostOp_takes (pack_actCmd hop hi) ht placed_ACT_CMD (ixOk_die hk) rfl (by omega), performWrite_actCmd, hfop, hfi]

/-! ## The cell plan (R323) -/

theorem ixOk_cpEnt {z : Nat} (hk : k < 2) (hz : z < 65536) : ixOk R.CP_ENT_W0.dims [k, z] = true := by
  simp only [R.CP_ENT_W0, ixOk, Bool.and_eq_true, Bool.and_true, decide_eq_true_eq]
  omega

/-- R323: what a write of each word of an entry does. -/
theorem performWrite_cpEnt (z v : Nat) : d.performWrite p ⟨R.CP_ENT_W0, [k, z], false⟩ v = d.cpWrite k z 0 v ∧
    d.performWrite p ⟨R.CP_ENT_W1, [k, z], false⟩ v = d.cpWrite k z 1 v := ⟨rfl, rfl⟩

theorem below_cpEnt {z w : Nat} (hk : k < 2) (hz : z < 65536) (hw : w < 2) : (below 2 k && below 65536 z && below 2 w) = true := by
  simp [below, hk, hz, hw]

/-! ## The balancer (R331) -/

/-- R331: what an OP of BAL_CMD does. -/
def Dev.balOp (d : Dev) (op k : Nat) : Dev :=
  match op with
  | 1 => d.balGwrite k
  | 2 => d.balGread k
  | 3 => d.balMwrite k
  | 4 => d.balMread k
  | 5 => d.balLwrite k
  | _ => d.balLread k

theorem performWrite_balCmd (v : Nat) : d.performWrite p ⟨R.BAL_CMD, [k], false⟩ v = d.balOp (fv R.BAL_CMD "OP" v) k := rfl

theorem balCmd_op : R.BAL_CMD.field "OP" = some (fl "OP" 31 28 .wo) := rfl

theorem pack_balCmd {op : Nat} (hop : op < 16) : pack R.BAL_CMD [("OP", op)] = op * 2 ^ 28 := by
  rw [pack_one balCmd_op]
  simp only [setBits_eq, Nat.reduceAdd, Nat.reduceSub, Nat.reducePow]
  omega

theorem fv_balCmd {op : Nat} (hop : op < 16) : fv R.BAL_CMD "OP" (op * 2 ^ 28) = op := by
  simp only [fv_of_field balCmd_op, bitsOf_eq]
  omega

/-- R331: a command of BAL_CMD runs as its OP says. -/
theorem balOp_runs {s : State} {op : Nat} (hop : op < 16) (hk : k < 2) (ht : s.dev.takes p R.BAL_CMD [k] (op * 2 ^ 28) = true) :
    within (below 2 k) s (fun d => d.hostOp p R.BAL_CMD [k] [("OP", op)]) = .next { s with dev := s.dev.balOp op k } := by
  rw [dieWord_runs placed_BAL_CMD rfl rfl (pack_balCmd hop) (by omega) hk ht, performWrite_balCmd, fv_balCmd hop]

end

/-- Settles O25: each command's register takes its word, and does what the OP in it says. -/
theorem l2AndActionCommandsComplete : Obligations.L2AndActionCommandsComplete := by
  intro s p d i index z fidm v hd hi hindex hz
  obtain ⟨hlookup, hinsert, hdelete, hflush⟩ := performWrite_l2Cmd (d := s.dev) (p := p) (k := d)
  obtain ⟨hword0, hword1⟩ := performWrite_cpEnt (d := s.dev) (p := p) (k := d) z v.toNat
  refine ⟨?learn, ?sweep, fun ht => ?lookup, fun ht => ?insert, fun ht => ?delete, fun ht => ?flush, fun ht => ?actWrite, fun ht => ?actRead,
    fun ht => ?cpWord0, fun ht => ?cpWord1, fun ht => ?gwrite, fun ht => ?gread, fun ht => ?mwrite, fun ht => ?mread, fun ht => ?lwrite, fun ht => ?lread⟩
  case learn => rw [exec_l2LearnApply, execL2LearnApply, within_pos ((below_iff _ _).mpr hd)]
  case sweep => rw [exec_l2SweepVisit, execL2SweepVisit, within_pos (below_and_below hd hi)]
  case lookup => rw [exec_l2Lookup, execL2Lookup, dieOp_runs placed_L2_HCMD rfl rfl rfl (by decide) hd ht, hlookup]
  case insert => rw [exec_l2Insert, execL2Insert, dieOp_runs placed_L2_HCMD rfl rfl rfl (by decide) hd ht, hinsert]
  case delete => rw [exec_l2Delete, execL2Delete, dieOp_runs placed_L2_HCMD rfl rfl rfl (by decide) hd ht, hdelete]
  case flush =>
    have hlt : 4 + 256 * b2n fidm < 2 ^ 32 := by cases fidm <;> decide
    rw [exec_l2Flush, execL2Flush, dieWord_runs placed_L2_HCMD rfl rfl (pack_l2Flush fidm) hlt hd ht, hflush]
  case actWrite =>
    rw [← Nat.one_mul (2 ^ 28)] at ht
    rw [exec_actWrite, execActWrite, actOp_runs (by decide) hd hindex ht, Dev.actOp, if_pos rfl]
  case actRead => rw [exec_actRead, execActRead, actOp_runs (by decide) hd hindex ht, Dev.actOp, if_neg (by decide)]
  case cpWord0 =>
    rw [exec_cpEntWrite, execCpEntWrite, within_pos (below_cpEnt hd hz (by decide)), if_pos rfl, hostWrite_word ht placed_CP_ENT_W0 (ixOk_cpEnt hd hz) rfl,
      hword0]
  case cpWord1 =>
    rw [exec_cpEntWrite, execCpEntWrite, within_pos (below_cpEnt hd hz (by decide)), if_neg (by decide),
      hostWrite_word ht placed_CP_ENT_W1 (ixOk_cpEnt hd hz) rfl, hword1]
  case gwrite => exact balOp_runs (op := 1) (by decide) hd ht
  case gread => exact balOp_runs (op := 2) (by decide) hd ht
  case mwrite => exact balOp_runs (op := 3) (by decide) hd ht
  case mread => exact balOp_runs (op := 4) (by decide) hd ht
  case lwrite => exact balOp_runs (op := 5) (by decide) hd ht
  case lread => exact balOp_runs (op := 6) (by decide) hd ht

end Sys2Proof.Machine
end

section
/-! SUPPORT. The commands of the microwords (R342–R350): each issues the engine's next word when that word names the command's row. -/

namespace Sys2Proof.Machine

section
variable {d : Dev} {e : Nat} {u : UW} {is : UW → Bool}

/-- The next word of an engine, when some row names it, issues by a command that names it, and no word issues before it. -/
theorem kIssue_named (hi : d.canIssue e = true) (hu : d.nextWord e = u) (hn : u.unnamed = false) (his : is u = true) : d.kIssue e is = d.issueWord e := by
  have hnone : Dev.runUnnamed e 16384 d = d := by
    rw [Dev.runUnnamed, hu, hn, Bool.and_false, if_neg Bool.false_ne_true]
  simp only [Dev.kIssue, hnone, hi, hu, his, Bool.and_self, if_true]

/-- R343, R347, R375: a word that passes parity, waits for no register and raises no machine check has its effects. -/
theorem issueWord_issues (h : d.issues e u = true) : d.issueWord e = d.issued e u := by
  simp only [Dev.issues, Bool.and_eq_true, Bool.not_eq_true', beq_iff_eq, List.isEmpty_iff] at h
  obtain ⟨⟨⟨⟨-, rfl⟩, hpar⟩, hstall⟩, hcauses⟩ := h
  simp only [Dev.nextWord] at hstall hcauses
  simp only [Dev.issueWord, hpar, hstall, hcauses, Bool.not_true, Bool.false_eq_true, if_false, Dev.issued, Dev.nextWord]

/-- R375: a word that passes parity, waits for no register and raises a cause other than a dispatch entry's raises that machine check. -/
theorem issueWord_mcheck {c : Nat} {cs : List Nat} (hu : d.nextWord e = u) (hpar : d.csGood (e / 8) (d.engOf e).ctx.upc = true)
    (hstall : (d.engOf e).stalled u = false) (hcauses : d.causes e (d.engOf e) u = c :: cs) (hc : c ≠ 0x0A) :
    d.issueWord e = d.mcheck e c (d.engOf e).ctx.upc false := by
  subst hu
  simp only [Dev.nextWord] at hstall hcauses
  simp only [Dev.issueWord, hpar, hstall, hcauses, Bool.not_true, Bool.false_eq_true, if_false, beq_eq_false_iff_ne.mpr hc, Bool.false_and]

end

/-- A row of the command table that names a slot of a microword: its command and its opcode in that slot. -/
abbrev WordRow : Type := (Nat → Instr) × Nat

/-- The row's command issues the words whose slot `op` holds the row's opcode, and every such word is one that a command names. -/
def WordRow.Names (op : UW → Nat) (x : WordRow) : Prop :=
  (∀ (e : Nat) (s : State), exec (x.1 e) s = within (below 96 e) s (fun d => d.kIssue e (fun u => op u == x.2))) ∧
    ∀ u : UW, op u = x.2 → u.unnamed = false

theorem UW.named_of_aop {u : UW} {c : Nat} (h0 : c ≠ 0) (hc : c ≤ 0x19) (h : u.aop = c) : u.unnamed = false := by
  simp [UW.unnamed, h, h0, hc]

theorem UW.named_of_mop {u : UW} {c : Nat} (h0 : c ≠ 0) (hc : c ≤ 0x16) (h : u.mop = c) : u.unnamed = false := by
  simp [UW.unnamed, h, h0, hc]

theorem UW.named_of_bop {u : UW} {c : Nat} (h0 : c ≠ 0) (hc : c ≤ 0x0F) (h : u.bop = c) : u.unnamed = false := by
  simp [UW.unnamed, h, h0, hc]

section
variable {op : UW → Nat} {x : WordRow} {e : Nat} {u : UW} {s : State}

/-- A row's command issues the engine's next word when that word names the row. -/
theorem WordRow.Names.runs (h : x.Names op) (he : e < 96) (hi : s.dev.canIssue e = true) (hu : s.dev.nextWord e = u) (hop : op u = x.2) :
    exec (x.1 e) s = .next { s with dev := s.dev.issueWord e } := by
  obtain ⟨hexec, hnamed⟩ := h
  rw [hexec, within_pos ((below_iff _ _).mpr he), kIssue_named (is := fun u => op u == x.2) hi hu (hnamed u hop) (beq_iff_eq.mpr hop)]

/-- R342: a word that the engine issues runs whole by the command of a row that it names. -/
theorem WordRow.Names.completes (h : x.Names op) (he : e < 96) (hi : s.dev.issues e u = true) (hop : op u = x.2) :
    exec (x.1 e) s = .next { s with dev := s.dev.issued e u } := by
  have hcan : s.dev.canIssue e = true ∧ s.dev.nextWord e = u := by
    simp only [Dev.issues, Bool.and_eq_true, beq_iff_eq] at hi
    obtain ⟨⟨⟨hcan, -⟩, -⟩, -⟩ := hi
    exact hcan
  rw [h.runs he hcan.1 hcan.2 hop, issueWord_issues hi]

end

/-- R348: the rows of the ALU slot. -/
def aluRows : List WordRow :=
  [(Instr.kAdd, 0x01), (Instr.kSub, 0x02), (Instr.kAnd, 0x03), (Instr.kOr, 0x04), (Instr.kXor, 0x05), (Instr.kShl, 0x06), (Instr.kShr, 0x07),
      (Instr.kSar, 0x08), (Instr.kRor, 0x09), (Instr.kMov, 0x0A), (Instr.kMovhi, 0x0B), (Instr.kExtr, 0x0C), (Instr.kInsr, 0x0D)]
    ++ [(Instr.kCmpeq, 0x0E), (Instr.kCmpltu, 0x0F), (Instr.kCmplts, 0x10), (Instr.kMinu, 0x11), (Instr.kMaxu, 0x12), (Instr.kMul, 0x13),
      (Instr.kMulhu, 0x14), (Instr.kPopc, 0x15), (Instr.kClz, 0x16), (Instr.kBswap, 0x17), (Instr.kCrc64, 0x18), (Instr.kCrc32c, 0x19)]

theorem aluRows_names : ∀ x ∈ aluRows, x.Names UW.aop := by
  have named : ∀ x ∈ aluRows, x.2 ≠ 0 ∧ x.2 ≤ 0x19 := by simp [aluRows]
  have runs : ∀ x ∈ aluRows, ∀ (e : Nat) (s : State), exec (x.1 e) s = within (below 96 e) s (fun d => d.kIssue e (fun u => u.aop == x.2)) := by
    simp only [aluRows, List.cons_append, List.nil_append, List.forall_mem_cons]
    exact ⟨exec_kAdd, exec_kSub, exec_kAnd, exec_kOr, exec_kXor, exec_kShl, exec_kShr, exec_kSar, exec_kRor, exec_kMov, exec_kMovhi, exec_kExtr, exec_kInsr,
      exec_kCmpeq, exec_kCmpltu, exec_kCmplts, exec_kMinu, exec_kMaxu, exec_kMul, exec_kMulhu, exec_kPopc, exec_kClz, exec_kBswap, exec_kCrc64, exec_kCrc32c,
      List.forall_mem_nil _⟩
  exact fun x hx => ⟨runs x hx, fun u => UW.named_of_aop (named x hx).1 (named x hx).2⟩

/-- Settles O14: each row's command issues the words of its row. -/
theorem aluWordsComplete : Obligations.AluWordsComplete :=
  fun x hx _ _ _ he hi hop => (aluRows_names x hx).completes he hi hop

/-- R349: the rows of the memory slot. -/
def memRows : List WordRow :=
  [(Instr.kLdl, 0x01), (Instr.kStl, 0x02), (Instr.kLds, 0x03), (Instr.kSts, 0x04), (Instr.kCass, 0x05), (Instr.kFadds, 0x06), (Instr.kLdh, 0x07),
      (Instr.kSth, 0x08), (Instr.kQacq, 0x09), (Instr.kQtry, 0x0A), (Instr.kQread, 0x0B)]
    ++ [(Instr.kQwrite, 0x0C), (Instr.kQrel, 0x0D), (Instr.kRadd, 0x0E), (Instr.kRstamp, 0x0F), (Instr.kRlook, 0x10), (Instr.kRins, 0x11),
      (Instr.kRdel, 0x12), (Instr.kLdt, 0x13), (Instr.kLdpkt, 0x14), (Instr.kPktsend, 0x15), (Instr.kPmcrd, 0x16)]

theorem memRows_names : ∀ x ∈ memRows, x.Names UW.mop := by
  have named : ∀ x ∈ memRows, x.2 ≠ 0 ∧ x.2 ≤ 0x16 := by simp [memRows]
  have runs : ∀ x ∈ memRows, ∀ (e : Nat) (s : State), exec (x.1 e) s = within (below 96 e) s (fun d => d.kIssue e (fun u => u.mop == x.2)) := by
    simp only [memRows, List.cons_append, List.nil_append, List.forall_mem_cons]
    exact ⟨exec_kLdl, exec_kStl, exec_kLds, exec_kSts, exec_kCass, exec_kFadds, exec_kLdh, exec_kSth, exec_kQacq, exec_kQtry, exec_kQread, exec_kQwrite,
      exec_kQrel, exec_kRadd, exec_kRstamp, exec_kRlook, exec_kRins, exec_kRdel, exec_kLdt, exec_kLdpkt, exec_kPktsend, exec_kPmcrd, List.forall_mem_nil _⟩
  exact fun x hx => ⟨runs x hx, fun u => UW.named_of_mop (named x hx).1 (named x hx).2⟩

/-- R350: the rows of the branch slot whose words have effects. -/
def branchRows : List WordRow :=
  [(Instr.kJmp, 0x01), (Instr.kBr, 0x02), (Instr.kBbs, 0x03), (Instr.kBbc, 0x04), (Instr.kCall, 0x05), (Instr.kRet, 0x06), (Instr.kJmpr, 0x07),
      (Instr.kDcall, 0x08), (Instr.kAtom, 0x09), (Instr.kEndatom, 0x0A), (Instr.kWait, 0x0B), (Instr.kYield, 0x0C), (Instr.kDone, 0x0D),
      (Instr.kIret, 0x0E)]

theorem branchRows_names : ∀ x ∈ branchRows, x.Names UW.bop := by
  have named : ∀ x ∈ branchRows, x.2 ≠ 0 ∧ x.2 ≤ 0x0F := by simp [branchRows]
  have runs : ∀ x ∈ branchRows, ∀ (e : Nat) (s : State), exec (x.1 e) s = within (below 96 e) s (fun d => d.kIssue e (fun u => u.bop == x.2)) := by
    simp only [branchRows, List.forall_mem_cons]
    exact ⟨exec_kJmp, exec_kBr, exec_kBbs, exec_kBbc, exec_kCall, exec_kRet, exec_kJmpr, exec_kDcall, exec_kAtom, exec_kEndatom, exec_kWait, exec_kYield,
      exec_kDone, exec_kIret, List.forall_mem_nil _⟩
  exact fun x hx => ⟨runs x hx, fun u => UW.named_of_bop (named x hx).1 (named x hx).2⟩

/-- R350: the row of the branch slot whose words raise a machine check. -/
theorem faultRow_names : WordRow.Names UW.bop (Instr.kFault, 0x0F) :=
  ⟨exec_kFault, fun _ => UW.named_of_bop (by decide) (by decide)⟩

/-- Settles O15: each row's command issues the words of its row. -/
theorem memoryWordsComplete : Obligations.MemoryWordsComplete :=
  fun x hx _ _ _ he hi hop => (memRows_names x hx).completes he hi hop

/-- Settles O16: each row's command issues the words of its row, and a word of FAULT raises cause 9. -/
theorem branchWordsComplete : Obligations.BranchWordsComplete := by
  refine ⟨fun x hx _ _ _ he hi hop => (branchRows_names x hx).completes he hi hop, fun e u s he hi hu hpar hstall hcauses hop => ?_⟩
  have hrun : exec (.kFault e) s = .next { s with dev := s.dev.issueWord e } := faultRow_names.runs he hi hu hop
  rw [hrun, issueWord_mcheck hu hpar hstall hcauses (by decide)]

end Sys2Proof.Machine
end

section
/-! SUPPORT. What the rows of the ALU slot compute (R346, R348), in the arithmetic of bit vectors of the word's width. -/

namespace Sys2Proof

/-! ## Values of n bits -/

theorem sgn_toNat {n : Nat} (hn : 0 < n) (x : BitVec n) : sgn n x.toNat = x.toInt := by
  have hpow : 2 ^ n = 2 * 2 ^ (n - 1) := by rw [← Nat.pow_succ', Nat.succ_eq_add_one, Nat.sub_add_cancel hn]
  rw [BitVec.toInt_eq_toNat_cond, sgn]
  simp only [Nat.mod_eq_of_lt x.isLt]
  exact if_congr (by omega) rfl rfl

/-- Of the low m bits of an integer, the low n. -/
theorem unsgn_mod {m n : Nat} (h : n ≤ m) (i : Int) : unsgn m i % 2 ^ n = (BitVec.ofInt n i).toNat := by
  have hdvd : ((2 ^ n : Nat) : Int) ∣ ((2 ^ m : Nat) : Int) := Int.natCast_dvd_natCast.mpr (Nat.pow_dvd_pow 2 h)
  have hpos : 0 ≤ i % ((2 ^ m : Nat) : Int) := Int.emod_nonneg _ (by positivity)
  rw [BitVec.toNat_ofInt, unsgn, ← Int.emod_emod_of_dvd i hdvd, Int.toNat_emod hpos (by positivity), Int.toNat_natCast]

theorem b2n_mod {n : Nat} (hn : 0 < n) (b : Bool) : b2n b % 2 ^ n = b2n b := by
  refine Nat.mod_eq_of_lt ?_
  have hpow : 2 ^ 1 ≤ 2 ^ n := Nat.pow_le_pow_right (by decide) hn
  cases b <;> simp only [b2n_true, b2n_false] <;> omega

/-- A rotation to the right brings the low bits to the top. -/
theorem toNat_rotateRight_sum {n : Nat} (hn : 0 < n) (x : BitVec n) (s : Nat) :
    (x.rotateRight s).toNat = (x.toNat / 2 ^ (s % n) + x.toNat * 2 ^ (n - s % n)) % 2 ^ n := by
  rw [BitVec.toNat_rotateRight, Nat.shiftRight_eq_div_pow, Nat.shiftLeft_eq]
  have hr : s % n < n := Nat.mod_lt s hn
  generalize s % n = r at *
  have hpow : 2 ^ (n - r) * 2 ^ r = 2 ^ n := by rw [← Nat.pow_add, Nat.sub_add_cancel hr.le]
  have hlow : x.toNat / 2 ^ r < 2 ^ (n - r) := Nat.div_lt_of_lt_mul (by rw [Nat.mul_comm, hpow]; exact x.isLt)
  have htop : x.toNat * 2 ^ (n - r) % 2 ^ n = 2 ^ (n - r) * (x.toNat % 2 ^ r) := by rw [← hpow, Nat.mul_comm, Nat.mul_mod_mul_left]
  have hlt : x.toNat / 2 ^ r < 2 ^ n := (Nat.div_le_self _ _).trans_lt x.isLt
  calc x.toNat / 2 ^ r ||| x.toNat * 2 ^ (n - r) % 2 ^ n
      = x.toNat * 2 ^ (n - r) % 2 ^ n + x.toNat / 2 ^ r := by rw [htop, Nat.two_pow_add_eq_or_of_lt hlow, Nat.lor_comm]
    _ = (x.toNat * 2 ^ (n - r) % 2 ^ n + x.toNat / 2 ^ r) % 2 ^ n := by
      refine (Nat.mod_eq_of_lt ?_).symm
      have hle : 2 ^ (n - r) * (x.toNat % 2 ^ r + 1) ≤ 2 ^ (n - r) * 2 ^ r := Nat.mul_le_mul_left _ (Nat.mod_lt _ (by positivity))
      rw [htop, ← hpow]
      linarith
    _ = (x.toNat / 2 ^ r + x.toNat * 2 ^ (n - r)) % 2 ^ n := by rw [Nat.mod_add_mod, Nat.add_comm]

/-! ## Bytes in reverse order -/

theorem leBytes_eq_map (k v : Nat) : leBytes k v = (List.range k).map (fun i => BitVec.ofNat 8 (v / 256 ^ i)) := by
  induction k generalizing v with
  | zero => rfl
  | succ k ih =>
    rw [leBytes, ih, List.range_succ_eq_map, List.map_cons, List.map_map, pow_zero, Nat.div_one]
    refine congrArg _ (List.map_congr_left fun i _ => ?_)
    rw [Function.comp_apply, Nat.succ_eq_add_one, Nat.pow_succ', Nat.div_div_eq_div_mul]

@[simp] theorem length_leBytes (k v : Nat) : (leBytes k v).length = k := by rw [leBytes_eq_map, List.length_map, List.length_range]

theorem beBytes_eq_map (k v : Nat) : beBytes k v = (List.range k).map (fun i => BitVec.ofNat 8 (v / 256 ^ (k - 1 - i))) := by
  refine List.ext_getElem (by simp [beBytes]) fun i hi _ => ?_
  simp [beBytes, leBytes_eq_map, List.getElem_reverse]

/-- Bytes that follow a value shift it by their number. -/
theorem foldl_beNat (bs : List Byte) (a : Nat) : bs.foldl (fun a b => 256 * a + b.toNat) a = 256 ^ bs.length * a + beNat bs := by
  induction bs generalizing a with
  | nil => simp [beNat]
  | cons c bs ih =>
    rw [beNat, List.foldl_cons, List.foldl_cons, ih, ih (256 * 0 + c.toNat), List.length_cons]
    ring

theorem beNat_cons (b : Byte) (bs : List Byte) : beNat (b :: bs) = 256 ^ bs.length * b.toNat + beNat bs := by
  rw [beNat, List.foldl_cons, foldl_beNat, Nat.mul_zero, Nat.zero_add]

theorem beNat_lt (bs : List Byte) : beNat bs < 256 ^ bs.length := by
  induction bs with
  | nil => decide
  | cons b bs ih =>
    have hle : 256 ^ bs.length * (b.toNat + 1) ≤ 256 ^ bs.length * 256 := Nat.mul_le_mul_left _ b.isLt
    rw [beNat_cons, List.length_cons, Nat.pow_succ]
    linarith

/-- R348: the bytes of a value whose byte order is reversed. -/
theorem byte_beNat_leBytes {k j : Nat} (v : Nat) (hj : j < k) : beNat (leBytes k v) / 256 ^ j % 256 = v / 256 ^ (k - 1 - j) % 256 := by
  induction k generalizing v with
  | zero => omega
  | succ k ih =>
    rw [leBytes, beNat_cons, length_leBytes, BitVec.toNat_ofNat]
    have hlt : beNat (leBytes k (v / 256)) < 256 ^ k := by simpa using beNat_lt (leBytes k (v / 256))
    rcases Nat.lt_succ_iff_lt_or_eq.mp hj with hlow | rfl
    · have hpow : 256 ^ k = 256 ^ j * (256 * 256 ^ (k - 1 - j)) := by rw [← Nat.pow_succ', ← Nat.pow_add]; congr 1; omega
      have hexp : k + 1 - 1 - j = k - 1 - j + 1 := by omega
      rw [hpow, Nat.mul_assoc, Nat.mul_add_div (by positivity), Nat.mul_assoc, Nat.mul_add_mod, ih _ hlow, Nat.div_div_eq_div_mul, hexp, Nat.pow_succ']
    · rw [Nat.mul_add_div (by positivity), Nat.div_eq_of_lt hlt, Nat.add_zero, Nat.add_sub_cancel, Nat.sub_self, pow_zero, Nat.div_one]
      exact Nat.mod_mod _ _

end Sys2Proof

namespace Sys2Proof.Machine

/-! ## Counts of bits -/

theorem popc_le (n v : Nat) : popc n v ≤ n := (List.length_filter_le _ _).trans (List.length_range ..).le

/-- The leading zeros of a value end at its highest bit. -/
theorem clz_eq_findIdx (n v : Nat) : clz n v = (List.range n).findIdx (fun i => v.testBit (n - 1 - i)) := by
  have hle : (List.range n).findIdx (fun i => v.testBit (n - 1 - i)) ≤ n := by simpa using List.findIdx_le_length (xs := List.range n)
  rw [clz, List.takeWhile_eq_take_findIdx_not, List.length_take, List.length_range]
  simpa only [Bool.not_not, hasBit_eq_testBit] using Nat.min_eq_left hle

theorem clz_le (n v : Nat) : clz n v ≤ n := by
  rw [clz_eq_findIdx]
  simpa using List.findIdx_le_length (xs := List.range n) (p := fun i => v.testBit (n - 1 - i))

/-- R348: no bit above the leading zeros' end is set. -/
theorem lt_of_clz {n v : Nat} (hv : v < 2 ^ n) : v < 2 ^ (n - clz n v) := by
  refine Nat.lt_pow_two_of_testBit _ fun i hi => ?_
  by_cases hn : n ≤ i
  · exact Nat.testBit_lt_two_pow (hv.trans_le (Nat.pow_le_pow_right (by decide) hn))
  · rw [clz_eq_findIdx] at hi
    have hzero := List.not_of_lt_findIdx (xs := List.range n) (p := fun i => v.testBit (n - 1 - i)) (i := n - 1 - i) (by omega)
    rw [List.getElem_range] at hzero
    rwa [show n - 1 - (n - 1 - i) = i by omega] at hzero

/-- R348: the bit below the leading zeros is set. -/
theorem le_of_clz {n v : Nat} (h : clz n v < n) : 2 ^ (n - clz n v - 1) ≤ v := by
  rw [clz_eq_findIdx] at h ⊢
  have hbit := List.findIdx_getElem (xs := List.range n) (p := fun i => v.testBit (n - 1 - i)) (w := by simpa using h)
  rw [List.getElem_range, Nat.sub_right_comm] at hbit
  exact Nat.ge_two_pow_of_testBit hbit

/-! ## The rows (R348) -/

/-- R346: operand A at the word's width. -/
def UW.opA (u : UW) (rd : Nat → Nat) : BitVec (uwBits u) := BitVec.ofNat _ (rd u.srca)

/-- R346: operand B at the word's width. -/
def UW.opB (u : UW) (rd : Nat → Nat) : BitVec (uwBits u) := BitVec.ofNat _ (if u.immEn then sext32 u.imm else rd u.srcb)

/-- R348: the amount of a shift. -/
def UW.amount (u : UW) (rd : Nat → Nat) : Nat := if u.sh = 0 then (u.opB rd).toNat % 64 else u.sh

/-- R346: a width is a number of whole bytes, eight at most. -/
theorem uwBits_bytes {u : UW} (h : u.width < 4) : 0 < uwBits u ∧ uwBits u ≤ 64 ∧ uwBits u = 8 * (uwBits u / 8) := by
  have hall : ∀ w < 4, 0 < 64 / 2 ^ w ∧ 64 / 2 ^ w ≤ 64 ∧ 64 / 2 ^ w = 8 * (64 / 2 ^ w / 8) := by decide
  exact hall u.width h

section
variable {u : UW} {rd : Nat → Nat}

theorem aluResult_add (h : u.aop = 0x01) : aluResult u rd = (u.opA rd + u.opB rd).toNat := by
  simp only [aluResult, h]
  rfl

theorem aluResult_sub (h : u.aop = 0x02) : aluResult u rd = (u.opA rd - u.opB rd).toNat := by
  rw [BitVec.toNat_sub', ← Nat.add_sub_assoc (u.opB rd).isLt.le]
  simp only [aluResult, h]
  rfl

theorem aluResult_and (h : u.aop = 0x03) : aluResult u rd = (u.opA rd &&& u.opB rd).toNat := by
  rw [← Nat.mod_eq_of_lt (u.opA rd &&& u.opB rd).isLt, BitVec.toNat_and]
  simp only [aluResult, h]
  rfl

theorem aluResult_or (h : u.aop = 0x04) : aluResult u rd = (u.opA rd ||| u.opB rd).toNat := by
  rw [← Nat.mod_eq_of_lt (u.opA rd ||| u.opB rd).isLt, BitVec.toNat_or]
  simp only [aluResult, h]
  rfl

theorem aluResult_xor (h : u.aop = 0x05) : aluResult u rd = (u.opA rd ^^^ u.opB rd).toNat := by
  rw [← Nat.mod_eq_of_lt (u.opA rd ^^^ u.opB rd).isLt, BitVec.toNat_xor]
  simp only [aluResult, h]
  rfl

theorem aluResult_shl (h : u.aop = 0x06) : aluResult u rd = (u.opA rd <<< u.amount rd).toNat := by
  rw [BitVec.toNat_shiftLeft, Nat.shiftLeft_eq]
  simp only [aluResult, h]
  rfl

theorem aluResult_shr (h : u.aop = 0x07) : aluResult u rd = (u.opA rd >>> u.amount rd).toNat := by
  rw [← Nat.mod_eq_of_lt (u.opA rd >>> u.amount rd).isLt, BitVec.toNat_ushiftRight, Nat.shiftRight_eq_div_pow]
  simp only [aluResult, h]
  rfl

theorem aluResult_sar (hw : u.width < 4) (h : u.aop = 0x08) : aluResult u rd = ((u.opA rd).sshiftRight (u.amount rd)).toNat := by
  obtain ⟨hpos, hle, -⟩ := uwBits_bytes hw
  rw [BitVec.sshiftRight, ← unsgn_mod hle, Int.shiftRight_eq_div_pow, ← sgn_toNat hpos]
  simp only [aluResult, h]
  rfl

theorem aluResult_ror (hw : u.width < 4) (h : u.aop = 0x09) : aluResult u rd = ((u.opA rd).rotateRight (u.amount rd)).toNat := by
  rw [toNat_rotateRight_sum (uwBits_bytes hw).1]
  simp only [aluResult, h]
  rfl

theorem aluResult_mov (h : u.aop = 0x0A) : aluResult u rd = (u.opB rd).toNat := by
  rw [← Nat.mod_eq_of_lt (u.opB rd).isLt]
  simp only [aluResult, h]
  rfl

/-- R348: MOVHI places the immediate above the low half of A. -/
theorem aluResult_movhi (hw : u.width < 4) (h : u.aop = 0x0B) :
    aluResult u rd = (BitVec.ofNat 32 u.imm ++ BitVec.ofNat 32 (rd u.srca)).toNat % 2 ^ uwBits u := by
  have happend : (BitVec.ofNat 32 u.imm ++ BitVec.ofNat 32 (rd u.srca)).toNat = (rd u.srca % 2 ^ 32 + u.imm * 2 ^ 32) % 2 ^ 64 := by
    rw [BitVec.toNat_append, ← Nat.shiftLeft_add_eq_or_of_lt (BitVec.isLt _), Nat.shiftLeft_eq, BitVec.toNat_ofNat, BitVec.toNat_ofNat]
    omega
  rw [happend, Nat.mod_mod_of_dvd _ (Nat.pow_dvd_pow 2 (uwBits_bytes hw).2.1)]
  simp only [aluResult, h, Nat.reduceEqDiff, decide_false, Bool.or_self, Bool.false_eq_true, if_false]

/-- R348: EXTR takes a field of A. -/
theorem aluResult_extr (h : u.aop = 0x0C) :
    aluResult u rd = ((u.opA rd >>> u.sh) &&& BitVec.ofNat (uwBits u) (2 ^ (u.imm % 64 + 1) - 1)).toNat := by
  have hshift : u.opA rd >>> u.sh = BitVec.ofNat (uwBits u) ((u.opA rd).toNat / 2 ^ u.sh) := by
    rw [← Nat.shiftRight_eq_div_pow, ← BitVec.toNat_ushiftRight, BitVec.ofNat_toNat, BitVec.setWidth_eq]
  rw [hshift, ← BitVec.ofNat_and, Nat.and_two_pow_sub_one_eq_mod]
  simp only [aluResult, h]
  rfl

/-- R348: INSR sets a field of the destination register's value. -/
theorem aluResult_insr (h : u.aop = 0x0D) : aluResult u rd =
    setBits (rd u.dst % 2 ^ uwBits u) (u.sh + (u.imm % 64 + 1) - 1) u.sh (u.opA rd).toNat % 2 ^ uwBits u := by
  simp only [aluResult, h]
  rfl

theorem hasBit_insr (h : u.aop = 0x0D) {i : Nat} (hi : i < uwBits u) : hasBit (aluResult u rd) i =
    if u.sh ≤ i ∧ i ≤ u.sh + u.imm % 64 then (u.opA rd).getLsbD (i - u.sh) else (BitVec.ofNat (uwBits u) (rd u.dst)).getLsbD i := by
  rw [aluResult_insr h, hasBit_eq_testBit, Nat.testBit_mod_two_pow, decide_eq_true hi, Bool.true_and, testBit_setBits _ _ _ _ _ (by omega)]
  rfl

theorem aluResult_cmpeq (hw : u.width < 4) (h : u.aop = 0x0E) : aluResult u rd = b2n (u.opA rd == u.opB rd) := by
  have heq : (u.opA rd == u.opB rd) = ((u.opA rd).toNat == (u.opB rd).toNat) := by
    rw [Bool.eq_iff_iff, beq_iff_eq, beq_iff_eq, BitVec.toNat_inj]
  rw [heq, ← b2n_mod (uwBits_bytes hw).1]
  simp only [aluResult, h]
  rfl

theorem aluResult_cmpltu (hw : u.width < 4) (h : u.aop = 0x0F) : aluResult u rd = b2n ((u.opA rd).ult (u.opB rd)) := by
  rw [BitVec.ult_eq_decide, ← b2n_mod (uwBits_bytes hw).1]
  simp only [aluResult, h]
  rfl

theorem aluResult_cmplts (hw : u.width < 4) (h : u.aop = 0x10) : aluResult u rd = b2n ((u.opA rd).slt (u.opB rd)) := by
  obtain ⟨hpos, -, -⟩ := uwBits_bytes hw
  rw [BitVec.slt_eq_decide, ← sgn_toNat hpos, ← sgn_toNat hpos, ← b2n_mod hpos]
  simp only [aluResult, h]
  rfl

theorem aluResult_minu (h : u.aop = 0x11) : aluResult u rd = min (u.opA rd).toNat (u.opB rd).toNat := by
  rw [← Nat.mod_eq_of_lt ((Nat.min_le_left _ _).trans_lt (u.opA rd).isLt)]
  simp only [aluResult, h]
  rfl

theorem aluResult_maxu (h : u.aop = 0x12) : aluResult u rd = max (u.opA rd).toNat (u.opB rd).toNat := by
  rw [← Nat.mod_eq_of_lt (Nat.max_lt.mpr ⟨(u.opA rd).isLt, (u.opB rd).isLt⟩)]
  simp only [aluResult, h]
  rfl

theorem aluResult_mul (h : u.aop = 0x13) : aluResult u rd = (u.opA rd * u.opB rd).toNat := by
  simp only [aluResult, h]
  rfl

theorem aluResult_mulhu (h : u.aop = 0x14) : aluResult u rd = (u.opA rd).toNat * (u.opB rd).toNat / 2 ^ 64 % 2 ^ uwBits u := by
  simp only [aluResult, h]
  rfl

theorem aluResult_popc (h : u.aop = 0x15) : aluResult u rd = ((List.range (uwBits u)).filter (fun i => (u.opA rd).getLsbD i)).length := by
  have hcount : popc (uwBits u) (u.opA rd).toNat = ((List.range (uwBits u)).filter (fun i => (u.opA rd).getLsbD i)).length := by
    simp only [popc, hasBit_eq_testBit, BitVec.testBit_toNat]
  rw [← hcount, ← Nat.mod_eq_of_lt ((popc_le _ _).trans_lt Nat.lt_two_pow_self)]
  simp only [aluResult, h]
  rfl

theorem aluResult_clz (h : u.aop = 0x16) : aluResult u rd = clz (uwBits u) (u.opA rd).toNat := by
  rw [← Nat.mod_eq_of_lt ((clz_le (uwBits u) (u.opA rd).toNat).trans_lt Nat.lt_two_pow_self)]
  simp only [aluResult, h]
  rfl

theorem aluResult_bswap (hw : u.width < 4) (h : u.aop = 0x17) : aluResult u rd = beNat (leBytes (uwBits u / 8) (u.opA rd).toNat) := by
  have hlt := beNat_lt (leBytes (uwBits u / 8) (u.opA rd).toNat)
  rw [length_leBytes, show 256 = 2 ^ 8 from rfl, ← Nat.pow_mul, ← (uwBits_bytes hw).2.2] at hlt
  rw [← Nat.mod_eq_of_lt hlt]
  simp only [aluResult, h]
  rfl

/-- R348, R136: CRC64 goes on from A untruncated at every width (log entry 72). -/
theorem aluResult_crc64 (h : u.aop = 0x18) : aluResult u rd = crc64 (rd u.srca) (beBytes (uwBits u / 8) (u.opB rd).toNat) := by
  simp only [aluResult, h]
  rfl

/-- R348, R287: CRC32C goes on from the low 32 bits of A at every width (log entry 72). -/
theorem aluResult_crc32c (h : u.aop = 0x19) : aluResult u rd = crc32cT (rd u.srca % 2 ^ 32) (beBytes (uwBits u / 8) (u.opB rd).toNat) := by
  simp only [aluResult, h]
  rfl

/-- R348: no row but the CRC rows gives more than the word's width holds. -/
theorem aluResult_lt (h64 : u.aop ≠ 0x18) (h32 : u.aop ≠ 0x19) : aluResult u rd < 2 ^ uwBits u := by
  simp only [aluResult, h64, h32, decide_false, Bool.or_self, Bool.false_eq_true, if_false]
  exact Nat.mod_lt _ (Nat.two_pow_pos _)

end

/-- Settles O31: each row by its lemma. -/
theorem aluRowsComputeTheTable : Obligations.AluRowsComputeTheTable := by
  intro u rd hw
  refine ⟨aluResult_add, aluResult_sub, aluResult_and, aluResult_or, aluResult_xor, aluResult_shl, aluResult_shr, aluResult_sar hw, aluResult_ror hw,
    aluResult_mov, aluResult_movhi hw, aluResult_extr, fun h => ⟨?insr, fun i hi => hasBit_insr h hi⟩, aluResult_mulhu, fun h => ⟨?bswap, fun j hj => ?byte⟩,
    fun h => ?crc64, fun h => ?crc32c, aluResult_cmpeq hw, aluResult_cmpltu hw, aluResult_cmplts hw, aluResult_minu, aluResult_maxu, aluResult_mul,
    aluResult_popc, fun h => ?clz⟩
  case insr => exact aluResult_lt (by omega) (by omega)
  case bswap => exact aluResult_lt (by omega) (by omega)
  case byte => rw [aluResult_bswap hw h, byte_beNat_leBytes _ hj]; rfl
  case crc64 => rw [aluResult_crc64 h, beBytes_eq_map]; rfl
  case crc32c => rw [aluResult_crc32c h, beBytes_eq_map]; rfl
  case clz =>
    rw [aluResult_clz h]
    exact ⟨clz_le _ _, lt_of_clz (u.opA rd).isLt, le_of_clz⟩

end Sys2Proof.Machine
end

section
/-! SUPPORT. The grant of a cluster's bus (R387, R388): the rank of its requesters and the registers that show the grant. -/

namespace Sys2Proof.Machine

/-- R390: counting an event leaves every register that shares no word with a cluster's counters and their selectors. -/
theorem Dev.getW_pmc {d : Dev} {e : Nat} (he : e < 96) (ev n : Nat) {q : RegSpec} {jx : List Nat} (hj : ixOk q.dims jx = true)
    (hsel : R.PMC_EVSEL.clear q = true) (hctr : R.PMC_CTR.clear q = true) : (d.pmc e ev n).getW q jx = d.getW q jx := by
  unfold Dev.pmc
  refine List.foldlRecOn (motive := fun x : Dev => x.getW q jx = d.getW q jx) (List.range 8) _ rfl fun x hx c hc => ?_
  have hi : ixOk R.PMC_EVSEL.dims (clIx (e / 8) ++ [c]) = true := ixOk_evsel (by omega) (List.mem_range.mp hc)
  have hi' : ixOk R.PMC_CTR.dims (clIx (e / 8) ++ [c]) = true := hi
  have hsel' := apart_of_clear hsel hi hj
  have hctr' := apart_of_clear hctr hi' hj
  dsimp only
  split
  · split
    · rw [Dev.getW_put_ne _ _ _ hsel', Dev.getW_put_ne _ _ _ hctr', hx]
    · rw [Dev.getW_put_ne _ _ _ hctr', hx]
  · exact hx

/-- The fields of KSN_BUS_STAT. -/
theorem busStat_fields : R.KSN_BUS_STAT.field "BUSY" = some (fl "BUSY" 31 31 .ro) ∧ R.KSN_BUS_STAT.field "OWNER" = some (fl "OWNER" 30 27 .ro) ∧
    R.KSN_BUS_STAT.field "BEATS" = some (fl "BEATS" 15 0 .ro) := ⟨rfl, rfl, rfl⟩

theorem busStat_clear : R.PMC_EVSEL.clear R.KSN_BUS_STAT = true ∧ R.PMC_CTR.clear R.KSN_BUS_STAT = true := by decide +kernel

/-- R388: what the registers of a cluster's bus show of a transfer of some beats granted to a requester. -/
def Dev.busShown (d : Dev) (k r beats : Nat) : Dev :=
  ((d.put R.KSN_BUS_STAT (clIx k) "BUSY" 1).put R.KSN_BUS_STAT (clIx k) "OWNER" r).put R.KSN_BUS_STAT (clIx k) "BEATS" (min beats 65535)

/-- R387: a requester of a cluster's bus drops to the lowest rank. -/
def Dev.busLower (d : Dev) (k r : Nat) : Dev :=
  { d with eng := { d.eng with rank := SMap.set d.eng.rank k ((d.busRank k).filter (· != r) ++ [r]) (List.range 9) } }

section
variable {d : Dev} {k r beats : Nat}

/-- R387: the requester of highest rank is granted the bus. -/
theorem busGrant_of_find {req : List Nat} (hf : (d.busRank k).find? (fun r => req.contains r) = some r) : d.busGrant k req beats =
    if r < 8 then ((d.busLower k r).busShown k r beats).pmc (8 * k + r) 4 1 else (d.busLower k r).busShown k r beats := by
  simp only [Dev.busGrant, hf]
  rfl

theorem busShown_eng : (d.busShown k r beats).eng = d.eng := by
  simp only [Dev.busShown, Dev.put_eng]

theorem busShown_busy : (d.busShown k r beats).get R.KSN_BUS_STAT (clIx k) "BUSY" = 1 := by
  obtain ⟨hbusy, howner, hbeats⟩ := busStat_fields
  rw [Dev.busShown, Dev.get_put_field _ _ _ hbeats hbusy (by decide) (by decide) (by decide),
    Dev.get_put_field _ _ _ howner hbusy (by decide) (by decide) (by decide), Dev.get_put_same _ _ _ hbusy (by decide) (by decide)]
  rfl

theorem busShown_owner : (d.busShown k r beats).get R.KSN_BUS_STAT (clIx k) "OWNER" = r % 16 := by
  obtain ⟨-, howner, hbeats⟩ := busStat_fields
  rw [Dev.busShown, Dev.get_put_field _ _ _ hbeats howner (by decide) (by decide) (by decide), Dev.get_put_same _ _ _ howner (by decide) (by decide)]
  rfl

/-- R387: a grant changes the rank of its cluster alone: the requester stands last and the others in their order. -/
theorem busRank_busLower : (d.busLower k r).busRank k = (d.busRank k).filter (· != r) ++ [r] := by
  simp only [Dev.busRank, Dev.busLower, SMap.get_set_same]

theorem busRank_busLower_ne {j : Nat} (h : j ≠ k) : (d.busLower k r).busRank j = d.busRank j := SMap.get_set_ne _ _ _ _ h

/-- R387: what a grant leaves of the engines, and what the bus's registers show. The counting of it (R392) touches neither. -/
theorem busGrant_granted {req : List Nat} (hk : k < 12) (hf : (d.busRank k).find? (fun r => req.contains r) = some r) :
    (d.busGrant k req beats).eng = (d.busLower k r).eng ∧
      (d.busGrant k req beats).getW R.KSN_BUS_STAT (clIx k) = ((d.busLower k r).busShown k r beats).getW R.KSN_BUS_STAT (clIx k) := by
  rw [busGrant_of_find hf]
  split
  · obtain ⟨hsel, hctr⟩ := busStat_clear
    exact ⟨by rw [Dev.pmc_eng, busShown_eng], Dev.getW_pmc (by omega) _ _ (ixOk_clIx hk) hsel hctr⟩
  · exact ⟨busShown_eng, rfl⟩

end

/-- Settles O36: the rank is that of the drop, and KSN_BUS_STAT shows the grant. -/
theorem theBusWinnerDropsToTheLowestRank : Obligations.TheBusWinnerDropsToTheLowestRank := by
  intro s k beats w req hk hreq h1 h64 hf
  obtain ⟨heng, hstat⟩ := busGrant_granted (beats := beats) hk hf
  refine ⟨{ s with dev := s.dev.busGrant k req beats }, ?runs, ?rank, ?busy, ?owner, fun j hj => ?others⟩
  case runs => rw [exec_clusterBusGrant, execClusterBusGrant, within_pos (by simp [(below_iff _ _).mpr hk, hreq, h1, h64])]
  case rank => simpa only [Dev.busRank, heng] using busRank_busLower
  case busy => simpa only [Dev.bit, Dev.get, hstat, decide_eq_true_eq] using busShown_busy
  case owner => simpa only [Dev.get, hstat] using busShown_owner
  case others => simpa only [Dev.busRank, heng] using busRank_busLower_ne hj

end Sys2Proof.Machine
end

section
/-! SUPPORT. The host's commands and the events of the task schedulers (R406–R409, R416–R418): the words of TSK_CMD, and what event bits set in a slot do. -/

namespace Sys2Proof.Machine

/-! ## The words of TSK_CMD (R417) -/

/-- R417: what an OP of TSK_CMD does. -/
def Dev.tskOp (d : Dev) (op k s : Nat) : Dev :=
  match op with
  | 1 => d.tskCreate k s
  | 2 => d.tskKill k s
  | 3 => d.tskRequeue k s
  | _ => d.tskSetprio k s

theorem tskCmd_fields : R.TSK_CMD.field "OP" = some (fl "OP" 31 28 .wo) ∧ R.TSK_CMD.field "SLOT" = some (fl "SLOT" 8 0 .wo) := ⟨rfl, rfl⟩

theorem performWrite_tskCmd (d : Dev) (p : Path) (k v : Nat) :
    d.performWrite p ⟨R.TSK_CMD, [k], false⟩ v = d.tskOp (fv R.TSK_CMD "OP" v) k (fv R.TSK_CMD "SLOT" v) := rfl

section
variable {op slot : Nat} (hop : op < 16) (hs : slot < 512)
include hop hs

theorem pack_tskCmd : pack R.TSK_CMD [("OP", op), ("SLOT", slot)] = op * 2 ^ 28 + slot := by
  obtain ⟨hfop, hfslot⟩ := tskCmd_fields
  rw [pack_two hfop hfslot]
  simp only [setBits_eq, Nat.reduceAdd, Nat.reduceSub, Nat.reducePow]
  omega

theorem fv_tskCmd : fv R.TSK_CMD "OP" (op * 2 ^ 28 + slot) = op ∧ fv R.TSK_CMD "SLOT" (op * 2 ^ 28 + slot) = slot := by
  obtain ⟨hfop, hfslot⟩ := tskCmd_fields
  simp only [fv_of_field hfop, fv_of_field hfslot, bitsOf_eq]
  omega

/-- R417: a command of TSK_CMD runs as its OP says. -/
theorem tskOp_runs {s : State} {p : Path} {k : Nat} (hk : k < 2) (ht : s.dev.takes p R.TSK_CMD [k] (op * 2 ^ 28 + slot) = true) :
    within (below 2 k && below 512 slot) s (fun d => d.hostOp p R.TSK_CMD [k] [("OP", op), ("SLOT", slot)]) =
      .next { s with dev := s.dev.tskOp op k slot } := by
  obtain ⟨hfop, hfslot⟩ := fv_tskCmd hop hs
  rw [within_pos (below_and_below hk hs), Dev.hostOp_takes (pack_tskCmd hop hs) ht placed_TSK_CMD (ixOk_die hk) rfl (by omega), performWrite_tskCmd, hfop,
    hfslot]

end

/-! ## Event lines and event writes (R406, R407) -/

/-- R407: the rising edge of a line that is bound sets its bit in the slot that the line names, and that edge is gone. -/
theorem eventLine_bound {d : Dev} {k n : Nat} (hedge : (d.tsk.edges.get k).contains n = true) (hen : d.bit R.TSK_LINE [k, n] "EN" = true) :
    d.eventLine k n = { d with tsk := { d.tsk with edges := d.tsk.edges.upd k (·.erase n) } }.setEvents k (d.get R.TSK_LINE [k, n] "SLOT")
      (2 ^ d.get R.TSK_LINE [k, n] "BIT") := by
  rw [Dev.eventLine, if_pos hedge]
  exact if_pos hen

/-- R406: a host write of a slot's event word that is taken sets the bits below TIMER that it names. -/
theorem slotEventWrite_runs {s : State} {p : Path} {k slot : Nat} {v : Word} (hk : k < 2) (hs : slot < 512)
    (ht : s.dev.takes p R.TSK_SLOT_EVT [k, slot] v.toNat = true) :
    exec (.slotEventWrite p k slot v) s = .next { s with dev := s.dev.setEvents k slot (v.toNat % 2 ^ 31) } := by
  rw [exec_slotEventWrite, execSlotEventWrite, within_pos (below_and_below hk hs), hostWrite_word ht placed_TSK_SLOT_EVT (ixOk_slot hk hs) rfl]
  rfl

/-- Settles O18: TSK_CMD does what the OP of each command's word says, and the events name units that the part has. -/
theorem taskCommandsComplete : Obligations.TaskCommandsComplete := by
  intro s p d slot line e v hd hslot
  refine ⟨fun ht => ?create, fun ht => ?kill, fun ht => ?requeue, fun ht => ?setprio, ?timer, fun hline hedge hen => ?line, fun ht => ?write,
    fun he => ?bite⟩
  case create => exact tskOp_runs (op := 1) (by decide) hslot hd ht
  case kill => exact tskOp_runs (op := 2) (by decide) hslot hd ht
  case requeue => exact tskOp_runs (op := 3) (by decide) hslot hd ht
  case setprio => exact tskOp_runs (op := 4) (by decide) hslot hd ht
  case timer => rw [exec_slotTimerExpire, execSlotTimerExpire, within_pos (below_and_below hd hslot)]
  case line =>
    rw [exec_eventLine, execEventLine, within_pos (below_and_below hd hline), eventLine_bound hedge hen]
    rfl
  case write => exact slotEventWrite_runs hd hslot ht
  case bite => rw [exec_watchdogBite, execWatchdogBite, within_pos ((below_iff _ _).mpr he)]

/-! ## Event bits set in a slot (R401, R406, R409) -/

/-- R406: the event word of a slot once bits are set in it. -/
def Dev.eventsWith (d : Dev) (k s bits : Nat) : Nat := Nat.lor (d.tevt k s) bits

/-- R406: bits set in a slot's event word, and nothing else. -/
def Dev.orEvents (d : Dev) (k s bits : Nat) : Dev := d.setW R.TSK_SLOT_EVT [k, s] (d.eventsWith k s bits)

theorem slotEvt_clear : R.TSK_SLOT_EVT.clear R.TSK_SLOT_ST = true := by decide +kernel

/-- R365: a source that is raised on an engine is among its sources. -/
theorem mem_irqs_raiseIrq (d : Dev) (e n : Nat) : n ∈ ((d.raiseIrq e n).engOf e).irqs := by
  rw [Dev.raiseIrq, Dev.engOf_updEng]
  split
  case isTrue h => simpa using h
  case isFalse => simp

/-- An interrupt source raised leaves every event word. -/
@[simp] theorem tevt_raiseIrq (d : Dev) (e n k s : Nat) : (d.raiseIrq e n).tevt k s = d.tevt k s := rfl

section
variable {d : Dev} {k s bits : Nat}

theorem tevt_orEvents (hb : bits < 2 ^ 32) : (d.orEvents k s bits).tevt k s = d.eventsWith k s bits := by
  have hlt : d.eventsWith k s bits < 2 ^ 32 := Nat.or_lt_two_pow (d.getW_lt R.TSK_SLOT_EVT [k, s]) hb
  rw [Dev.tevt, Dev.orEvents, Dev.getW_setW_same]
  exact Nat.mod_eq_of_lt hlt

section
variable (hk : k < 2) (hs : s < 512)
include hk hs

theorem slotSt_orEvents (f : String) : (d.orEvents k s bits).get R.TSK_SLOT_ST [k, s] f = d.get R.TSK_SLOT_ST [k, s] f := by
  have hapart := apart_of_clear slotEvt_clear (ixOk_slot hk hs) (ixOk_slot hk hs)
  rw [Dev.get, Dev.get, Dev.orEvents, Dev.getW_setW_ne _ _ hapart]

/-- R401, R406, R409: what event bits set in a slot do, by the STATE of its thread before. -/
theorem setEvents_eq : d.setEvents k s bits =
    if d.tst k s = 2 then
      if Nat.land (Nat.xor (d.eventsWith k s bits) (d.tevt k s)) (d.tslot k s).intm != 0 then
        (d.orEvents k s bits).raiseIrq (d.get R.TSK_SLOT_ST [k, s] "ENGINE") 2
      else d.orEvents k s bits
    else if d.tst k s = 3 && Nat.land (d.eventsWith k s bits) (d.tslot k s).mask != 0 then
      ((d.orEvents k s bits).setTslot k s { d.tslot k s with how := 1, timed := false }).becomeReady k s
    else d.orEvents k s bits := by
  have hst : (d.orEvents k s bits).tst k s = d.tst k s := slotSt_orEvents hk hs "STATE"
  rw [← hst, ← slotSt_orEvents (bits := bits) hk hs "ENGINE"]
  rfl

/-- R409: a bit of INTMASK that becomes set raises MSG on the engine of a running thread. -/
theorem setEvents_msg (hst : d.tst k s = 2) (hm : Nat.land (Nat.xor (d.eventsWith k s bits) (d.tevt k s)) (d.tslot k s).intm ≠ 0) :
    d.setEvents k s bits = (d.orEvents k s bits).raiseIrq (d.get R.TSK_SLOT_ST [k, s] "ENGINE") 2 := by
  rw [setEvents_eq hk hs, if_pos hst, if_pos (by simpa using hm)]

/-- R409: no other bits do. -/
theorem setEvents_noMsg (hst : d.tst k s = 2) (hm : Nat.land (Nat.xor (d.eventsWith k s bits) (d.tevt k s)) (d.tslot k s).intm = 0) :
    d.setEvents k s bits = d.orEvents k s bits := by
  rw [setEvents_eq hk hs, if_pos hst, if_neg (by simpa using hm)]

/-- R401: a bit that a waiting thread waits for makes it READY. -/
theorem setEvents_wakes (hst : d.tst k s = 3) (hm : Nat.land (d.eventsWith k s bits) (d.tslot k s).mask ≠ 0) :
    d.setEvents k s bits = ((d.orEvents k s bits).setTslot k s { d.tslot k s with how := 1, timed := false }).becomeReady k s := by
  rw [setEvents_eq hk hs, if_neg (by omega), if_pos (by simpa [hst] using hm)]

/-- R401: a thread that does not run is left as it is unless it waits for one of the bits. -/
theorem setEvents_quiet (hst : d.tst k s ≠ 2) (hm : d.tst k s ≠ 3 ∨ Nat.land (d.eventsWith k s bits) (d.tslot k s).mask = 0) :
    d.setEvents k s bits = d.orEvents k s bits := by
  rw [setEvents_eq hk hs, if_neg hst, if_neg (by simpa [imp_iff_not_or] using hm)]

end

end

/-- Settles O52: the write sets event bits, and the STATE of the slot's thread says what follows. -/
theorem eventBitsAreOnlySet : Obligations.EventBitsAreOnlySet := by
  intro s p d slot v hd hslot ht new x
  have hruns := slotEventWrite_runs hd hslot ht
  refine ⟨fun hst hmask => ?quiet, fun hst hmask => ?wakes, fun hst hmask => ?noMsg, fun hst hmask => ?msg⟩
  case quiet => exact hruns.trans (by rw [setEvents_quiet hd hslot hst hmask]; rfl)
  case wakes => exact hruns.trans (by rw [setEvents_wakes hd hslot hst hmask]; rfl)
  case noMsg => exact hruns.trans (by rw [setEvents_noMsg hd hslot hst hmask]; rfl)
  case msg =>
    rw [setEvents_msg hd hslot hst hmask] at hruns
    exact ⟨_, hruns, tevt_orEvents (by omega), mem_irqs_raiseIrq _ _ _⟩

end Sys2Proof.Machine
end

section
/-! SUPPORT. The events of the region fabric, the wadi, egress scheduling and streams (R426, R441–R453, R471–R475, R487, R489, R547, R551): what each does
where it describes an event of the part. -/

namespace Sys2Proof.Machine

/-! ## The fabric (R441, R443, R447) -/

section
variable {d : Dev}

/-- R60, R441, R447: a slot of the fabric is the next of the fabric in use, and nothing while no packet moves. -/
theorem fabricSlot_eq : d.fabricSlot =
    let b := if d.compat then d.slotCompat else d.slotNative
    if d.running then { b with buf := { b.buf with slot := b.buf.slot + 1 } } else d := by
  unfold Dev.fabricSlot
  cases d.running <;> rfl

/-- R443: a transfer whose cells have all come is finished. -/
theorem fabricDone_of_xferDone {g j : Nat} {x : Nat × Xfer} (h : d.xferDone g j = some x) (err : Bool) :
    d.fabricDone g j err = d.finishXfer g j x.1 x.2 err false := by
  rw [Dev.fabricDone, h]

/-! ## Ports and streams (R474, R475, R487, R547) -/

/-- R547: the pause of a port that is paused runs out. -/
theorem pauseExpire_port {p : Nat} (h : (d.egrOf p).pause ≠ 0) :
    d.pauseExpire p none = (d.updEgr p (fun g => { g with pause := 0 })).select p :=
  if_neg h

/-- R547: the pause of a class that is paused runs out. -/
theorem pauseExpire_class {p c : Nat} (h : (d.egrOf p).pfc.getD c 0 ≠ 0) :
    d.pauseExpire p (some c) = (d.updEgr p (fun g => { g with pfc := setAt g.pfc c 0 })).select p :=
  if_neg h

/-- R487: a VALID instance with a RESET_MS becomes FRESH, and counts it. -/
theorem recoveryReset_valid {g r : Nat} (hms : d.get R.TSN_RCV_W0 (rw g ++ [r]) "RESET_MS" ≠ 0)
    (hvalid : d.bit R.TSN_RCV_W0 (rw g ++ [r]) "VALID" = true) :
    d.recoveryReset g r = (d.put R.TSN_RCV_ST (rw g ++ [r]) "FRESH" 1).bump R.TSN_RCV_CNT (rw g ++ [r] ++ [6]) "COUNT" 1 :=
  if_neg (by simp [hms, hvalid])

theorem ixOk_gateCtl {port : Nat} (h : port < 64) : ixOk R.SCH_GATE_CTL.dims (schP port) = true := by
  simp only [R.SCH_GATE_CTL, schP, ixOk, Bool.and_eq_true, Bool.and_true, decide_eq_true_eq]
  omega

/-- The SCH block's indices of a front port name it. -/
theorem portOfIx_schP (port : Nat) : 32 * (schP port).getD 0 0 + (schP port).getD 1 0 = port :=
  Nat.div_add_mod port 32

/-- R475: a word that SCH_GATE_CTL takes asks for the change of its port's gates. -/
theorem hostWrite_gateCtl {p : Path} {port : Nat} {v : Word} (hport : port < 64) (ht : d.takes p R.SCH_GATE_CTL (schP port) v.toNat = true) :
    d.hostWrite p (R.SCH_GATE_CTL.addr (schP port)) v = d.gateCtlWrite p port v.toNat := by
  rw [hostWrite_word ht placed_SCH_GATE_CTL (ixOk_gateCtl hport) rfl]
  exact congrArg (d.gateCtlWrite p · v.toNat) (portOfIx_schP port)

end

/-! ## The events run -/

/-- Settles O19: each event names units that the part has, and does what its condition makes of the lemmas above. -/
theorem fabricAndEgressEventsComplete : Obligations.FabricAndEgressEventsComplete := by
  intro s p g eg voq port c r x err v hg heg hvoq hport hc hr
  have hportOk : below 64 port = true := (below_iff _ _).mpr hport
  have hclassOk : (below 64 port && below 8 c) = true := below_and_below hport hc
  have hinstOk : (below 4 g && below 512 r) = true := below_and_below hg hr
  have hvoqOk : (below 4 g && below 520 voq) = true := below_and_below hg hvoq
  refine ⟨?slot, fun hdone => ?transfer, ?gap, ?spill, ?refill, ?pageReturn, ?transmit, ⟨?portTokens, ?classTokens⟩, fun hpause => ?portPause,
    fun hpause => ?classPause, ?renew, fun ht => ?gateRequest, fun _ => ?gateConfig, fun _ _ => ?gateEntry, fun hms hvalid => ?recovery, ?led⟩
  case slot => rw [exec_fabricSlotMatch, execFabricSlotMatch, within_pos rfl, Dev.fabricTick, fabricSlot_eq]
  case transfer =>
    rw [exec_fabricTransferComplete, execFabricTransferComplete, within_pos (below_and_below hg heg), fabricDone_of_xferDone hdone]
  case gap => rw [exec_reseqTimeout, execReseqTimeout, within_pos ((below_iff _ _).mpr heg)]
  case spill => rw [exec_spillPageWrite, execSpillPageWrite, within_pos hvoqOk]
  case refill => rw [exec_wadiRefill, execWadiRefill, within_pos hvoqOk]
  case pageReturn => rw [exec_wadiPageReturn, execWadiPageReturn, within_pos hvoqOk]
  case transmit => rw [exec_frameTransmitComplete, execFrameTransmitComplete, within_pos hportOk]
  case portTokens => rw [exec_shaperRefill, execShaperRefill, within_pos (by rw [hportOk, Bool.and_true])]
  case classTokens => rw [exec_shaperRefill, execShaperRefill, within_pos hclassOk]
  case portPause => rw [exec_pauseExpire, execPauseExpire, within_pos (by rw [hportOk, Bool.and_true]), pauseExpire_port hpause]
  case classPause => rw [exec_pauseExpire, execPauseExpire, within_pos hclassOk, pauseExpire_class hpause]
  case renew => rw [exec_pfcRenew, execPfcRenew, within_pos hportOk]
  case gateRequest => rw [exec_gateChangeRequest, execGateChangeRequest, within_pos hportOk, hostWrite_gateCtl hport ht]
  case gateConfig => rw [exec_gateConfigChange, execGateConfigChange, within_pos hportOk]
  case gateEntry => rw [exec_gateEntryChange, execGateEntryChange, within_pos hportOk]
  case recovery => rw [exec_recoveryResetTimeout, execRecoveryResetTimeout, within_pos hinstOk, recoveryReset_valid hms hvalid]
  case led => rw [exec_ledPeriodEnd, execLedPeriodEnd, within_pos hinstOk]

end Sys2Proof.Machine
end

section
/-! SUPPORT. The commands and events of ports, links, protection groups and lanes (R533–R537, R553–R567): what each does where it describes an event of the
part, or where its register takes the write. -/

namespace Sys2Proof.Machine

section
variable {d : Dev} {p : Path}

/-! ## Words that set one field -/

/-- R13: the word that sets one field of a register of one word fits the word. -/
theorem setWord_lt {r : RegSpec} (hr : r ∈ R.all) (hw : r.wide = false) (ix : List Nat) (f : String) : d.setWord r ix f < 2 ^ 32 := by
  have hfield : ∀ g ∈ r.fields, ∀ w v, w < 2 ^ 32 → setBits w g.hi g.lo v < 2 ^ 32 := by
    intro g hg w v hlt
    obtain ⟨hle, hhi⟩ := field_bounds hr hg
    exact setBits_lt hle (by simpa [RegSpec.bits, hw] using hhi) hlt
  unfold Dev.setWord
  split
  next g hg =>
    refine hfield g (List.mem_of_find?_eq_some hg) _ _ ?_
    exact List.foldlRecOn (motive := (· < 2 ^ 32)) _ _ (Nat.two_pow_pos 32) fun w hlt x hx => hfield x (List.mem_filter.mp hx).1 w _ hlt
  next => exact Nat.two_pow_pos 32

/-- R13: a register of one word that takes the word that sets one field of it has its effect. -/
theorem hostSet_takes {r : RegSpec} {ix : List Nat} {f : String} (ht : d.takes p r ix (d.setWord r ix f) = true) (h : r.placed = true)
    (hi : ixOk r.dims ix = true) (hw : r.wide = false) : d.hostSet p r ix f = d.performWrite p ⟨r, ix, false⟩ (d.setWord r ix f) :=
  hostWrite_takes ht h hi hw (setWord_lt (placed_mem h) hw ix f)

/-! ## Ports and links (R533–R537, R555) -/

/-- The indices of a port's or lane's registers name it. -/
theorem laneOf_macIx (n : Nat) : laneOf (macIx n) = n := by
  simp only [laneOf, macIx, List.getD_cons_zero, List.getD_cons_succ]
  omega

/-- R533: a word that MAC_PORT_CTL takes sets ADMIN, and the port starts or stops as it says. -/
theorem hostOp_portCtl {port : Nat} {admin : Bool} (hport : port < 64) (ht : d.takes p R.MAC_PORT_CTL (macIx port) (b2n admin) = true) :
    d.hostOp p R.MAC_PORT_CTL (macIx port) [("ADMIN", b2n admin)] = d.adminWrite port admin := by
  have hpack : pack R.MAC_PORT_CTL [("ADMIN", b2n admin)] = b2n admin := by cases admin <;> rfl
  have hadmin : hasBit (b2n admin) 0 = admin := by cases admin <;> rfl
  have hlt : b2n admin < 2 ^ 32 := by cases admin <;> decide
  rw [Dev.hostOp_takes hpack ht placed_MAC_PORT_CTL (ixOk_macIx hport) rfl hlt]
  exact congrArg₂ d.adminWrite (laneOf_macIx port) hadmin

/-- R537: the lanes of a port are those from its own number on, as many as its MODE has. -/
theorem lossCondition_ok {port lane lanes : Nat} (hport : port < 64) (hfirst : port ≤ lane) (hlast : lane < port + lanes) :
    (below 64 port && decide (port ≤ lane) && below (port + lanes) lane) = true := by
  simp only [(below_iff _ _).mpr hport, (below_iff _ _).mpr hlast, decide_eq_true hfirst, Bool.and_self]

section
variable {port : Nat} (hhold : d.bit R.MAC_LINK (macIx port) "HOLD" = true)
include hhold

/-- R555: a hold in progress ends. -/
theorem holdExpire_held : d.holdExpire port =
    (if d.activePort port = port then d.flushPort port else d.put R.MAC_LINK (macIx port) "HOLD" 0).linkChg port := by
  rw [Dev.holdExpire, Dev.holdEnd, if_neg (by simp [hhold])]

/-- R555: the end of a hold flushes a port that is the active port of its group, or in no group. -/
theorem holdExpire_active (hactive : d.activePort port = port) : d.holdExpire port = (d.flushPort port).linkChg port := by
  rw [holdExpire_held hhold, if_pos hactive]

/-- R555, R558: where the other port of its group is the active one, the end of a hold flushes nothing. -/
theorem holdExpire_inactive (hactive : d.activePort port ≠ port) : d.holdExpire port = (d.put R.MAC_LINK (macIx port) "HOLD" 0).linkChg port := by
  rw [holdExpire_held hhold, if_neg hactive]

end

/-! ## Protection groups (R557, R561) -/

section
variable {g n : Nat}

theorem ixOk_prot (hg : g < 4) (hn : n < 8) : ixOk R.MAC_PROT.dims [g / 2, g % 2, n] = true := by
  simp only [R.MAC_PROT, ixOk, Bool.and_eq_true, Bool.and_true, decide_eq_true_eq]
  omega

/-- R557: a word that MAC_PROT takes is a write of its group. -/
theorem hostWrite_prot {v : Word} (hg : g < 4) (hn : n < 8) (ht : d.takes p R.MAC_PROT [g / 2, g % 2, n] v.toNat = true) :
    d.hostWrite p (R.MAC_PROT.addr [g / 2, g % 2, n]) v = d.protWrite p g n v.toNat := by
  rw [hostWrite_word ht placed_MAC_PROT (ixOk_prot hg hn) rfl]
  exact congrArg (d.protWrite p · n v.toNat) (rgOfIx_region g)

/-- R561: the group in use whose working port has been UP for its WTR_MS waits for the frame boundary of its protection port. -/
theorem wtrExpire_schedules (hen : d.bit R.MAC_PROT [g / 2, g % 2, n] "EN" = true) (hrev : d.bit R.MAC_PROT [g / 2, g % 2, n] "REVERT" = true)
    (hact : d.bit R.MAC_PROT [g / 2, g % 2, n] "ACTIVE" = true) (hup : d.linkUp (16 * g + d.get R.MAC_PROT [g / 2, g % 2, n] "WORK") = true)
    (hnew : d.egr.revert.contains (8 * g + n) = false) :
    d.wtrExpire g n = { d with egr := { d.egr with revert := d.egr.revert ++ [8 * g + n] } } :=
  if_pos (by simp only [hen, hrev, hact, hup, hnew, Bool.not_false, Bool.and_self])

/-- R561: at that boundary the group moves to its working port. -/
theorem protRevert_switches (hrev : d.bit R.MAC_PROT [g / 2, g % 2, n] "REVERT" = true) (hwaits : d.egr.revert.contains (8 * g + n) = true)
    (hidle : (d.egrOf (16 * g + d.get R.MAC_PROT [g / 2, g % 2, n] "PROT")).tx = none) : d.protRevert g n = d.switchOver g n :=
  if_pos (by simp only [hrev, hwaits, hidle, Option.isNone_none, Bool.and_self])

end

/-! ## Lanes (R563–R565) -/

section
variable {lane : Nat}

/-- R565: a word that SDS_PRBS_CTL takes, an injection among its fields, is a write of its lane. -/
theorem hostSet_prbsCtl {f : String} (hlane : lane < 64) (ht : d.takes p R.SDS_PRBS_CTL (macIx lane) (d.setWord R.SDS_PRBS_CTL (macIx lane) f) = true) :
    d.hostSet p R.SDS_PRBS_CTL (macIx lane) f = d.prbsWrite (macIx lane) (d.setWord R.SDS_PRBS_CTL (macIx lane) f) :=
  hostSet_takes ht placed_SDS_PRBS_CTL (ixOk_macIx hlane) rfl

/-- R564: the checker of a lane locks, and the lane's receiver is then locked too. -/
theorem prbsLock_locks (hchk : d.bit R.SDS_PRBS_CTL (macIx lane) "CHK_EN" = true) (hon : d.lanesOn = true) :
    d.prbsLock lane = (if d.bit R.SDS_RX_STAT (macIx lane) "CDR_LOCK" then d else d.laneLocked lane).put R.SDS_PRBS_STAT (macIx lane) "CHK_LOCK" 1 :=
  if_neg (by simp [hchk, hon])

end

end

/-! ## The events run -/

/-- Settles O21: each command names units that the part has, and each effect is the lemma's above. -/
theorem portAndLinkEventsComplete : Obligations.PortAndLinkEventsComplete := by
  intro s p port lane skew g n admin tx l v hport hlane hg hn ix
  have hportOk : below 64 port = true := (below_iff _ _).mpr hport
  have hlaneOk : below 64 lane = true := (below_iff _ _).mpr hlane
  have hgroupOk : (below 4 g && below 8 n) = true := below_and_below hg hn
  refine ⟨fun ht => ?admin, ?locked, fun hst => ?up, fun hfirst hlast => ?loss, fun hst => ?down,
    fun hhold => ⟨fun hactive => ?holdFlushes, fun hactive => ?holdEnds⟩, fun hen hrev hact hup hnew => ?revertWaits, fun hrev hwaits hidle => ?reverts,
    fun ht => ?group, fun ht => ?injBit, fun ht => ?injBurst, fun hchk hon => ?checkerLock, ?checkerLoss, ?pllLoss⟩
  case admin => rw [exec_portAdminWrite, execPortAdminWrite, within_pos hportOk, hostOp_portCtl hport ht]
  case locked => rw [exec_linkLockAcquired, execLinkLockAcquired, within_pos hportOk]
  case up => rw [exec_linkUpDebounceExpire, execLinkUpDebounceExpire, within_pos hportOk, if_pos hst]
  case loss => rw [exec_lossCondition, execLossCondition, within_pos (lossCondition_ok hport hfirst hlast)]
  case down => rw [exec_linkDownDeclare, execLinkDownDeclare, within_pos hportOk, if_pos hst]
  case holdFlushes => rw [exec_holdExpire, execHoldExpire, within_pos hportOk, holdExpire_active hhold hactive]
  case holdEnds => rw [exec_holdExpire, execHoldExpire, within_pos hportOk, holdExpire_inactive hhold hactive]
  case revertWaits => rw [exec_wtrExpire, execWtrExpire, within_pos hgroupOk, wtrExpire_schedules hen hrev hact hup hnew]
  case reverts => rw [exec_protectionRevert, execProtectionRevert, within_pos hgroupOk, protRevert_switches hrev hwaits hidle]
  case group => rw [exec_protectionGroupWrite, execProtectionGroupWrite, within_pos hgroupOk, hostWrite_prot hg hn ht]
  case injBit => rw [exec_injBit, execInjBit, within_pos hlaneOk, hostSet_prbsCtl hlane ht]
  case injBurst => rw [exec_injBurst, execInjBurst, within_pos hlaneOk, hostSet_prbsCtl hlane ht]
  case checkerLock => rw [exec_prbsCheckerLock, execPrbsCheckerLock, within_pos hlaneOk, prbsLock_locks hchk hon]
  case checkerLoss => rw [exec_prbsCheckerLoss, execPrbsCheckerLoss, within_pos hlaneOk]
  case pllLoss => rw [exec_sdsPllLossOfLock, execSdsPllLossOfLock, within_pos hlaneOk]

end Sys2Proof.Machine
end

section
/-! SUPPORT. The steps of a packet (R144–R153, R189–R203, R235–R262): what each does where the packet, the die link or the pending table stands ready for
it. -/

namespace Sys2Proof.Machine

section
variable {d : Dev} {n : Nat} {p : Pkt}

/-! ## The die link (R202) -/

/-- R202: a descriptor at the head of the link to die k arrives. -/
theorem linkReceive_desc {k : Nat} {ls : List Link} (h : d.pk.link.get k = .desc n :: ls) : d.linkReceive k true = (d.linkTake k).pump := by
  simp only [Dev.linkReceive, h]

/-- R202: a verdict at the head of the link to die k arrives. -/
theorem linkReceive_verd {k : Nat} {v : Verdict} {ls : List Link} (h : d.pk.link.get k = .verd v :: ls) :
    d.linkReceive k false = (d.linkTake k).pump := by
  simp only [Dev.linkReceive, h]

/-! ## Record return and replays (R189, R193) -/

/-- R189, R193: a packet whose record read is under way: in its window, at its home die, or replayed and without a record. -/
theorem recordReturn_returns (hp : d.pkt n = some p) (hret : p.ret = false)
    (hst : p.stage = .window ∨ p.stage = .remote ∨ (p.stage = .replay ∧ p.img = none)) :
    d.recordReturn n =
      let x := if (d.pendOf (homeDie (p.h.getD 0)) p).isSome then (d, none) else d.readFor p
      (x.1.setPkt n { p with rd := x.2, ret := true }).pump := by
  have hreads : (!p.ret && (p.stage == .window || p.stage == .remote || (p.stage == .replay && p.img.isNone))) = true := by
    obtain hwin | hrem | ⟨hrep, himg⟩ := hst
    · simp [hret, hwin]
    · simp [hret, hrem]
    · simp [hret, hrep, himg]
  rw [Dev.recordReturn, hp]
  exact if_pos hreads

/-- R193, R194: the replay of a region that started first ends. -/
theorem replayEnd_first {rest : List Nat} (hp : d.pkt n = some p) (hrun : d.pk.run.getD p.g [] = n :: rest) (hret : p.ret = false) :
    d.replayEnd n = (d.setPkt n { p with ret := true }).pump := by
  simp only [Dev.replayEnd, hp, hrun, Option.map_some, Option.getD_some, List.find?_cons, hret, Bool.not_false, if_true]

end

/-! ## The steps run -/

/-- Settles O11: each step names units that the part has, and does what its condition makes of the lemmas above. -/
theorem packetStepsComplete : Obligations.PacketStepsComplete := by
  intro s port n g d i left fr slot full p rest ls v e
  refine ⟨fun hport => ?receive, fun _ _ => ?parse, fun hd hlink => ?descriptor, fun _ _ => ?pattern, fun hp hret hst => ?record,
    fun hp hrun hret => ?replay, fun hd hlink => ?verdict, fun hg _ => ?recirculate, fun _ _ => ?fastInsert, fun hd _ _ => ?timeout⟩
  case receive => rw [exec_frameReceive, execFrameReceive, within_pos ((below_iff _ _).mpr hport)]
  case parse => rw [exec_parseComplete, execParseComplete, within_pos rfl]
  case descriptor => rw [exec_descriptorReceive, execDescriptorReceive, within_pos ((below_iff _ _).mpr hd), linkReceive_desc hlink]
  case pattern => rw [exec_patternResultReady, execPatternResultReady, within_pos rfl]
  case record => rw [exec_recordReturn, execRecordReturn, within_pos rfl, recordReturn_returns hp hret hst]
  case replay => rw [exec_replayEnd, execReplayEnd, within_pos rfl, replayEnd_first hp hrun hret]
  case verdict => rw [exec_verdictReceive, execVerdictReceive, within_pos ((below_iff _ _).mpr hd), linkReceive_verd hlink]
  case recirculate => rw [exec_recirculate, execRecirculate, within_pos ((below_iff _ _).mpr hg)]
  case fastInsert => rw [exec_fastInsertComplete, execFastInsertComplete, within_pos rfl]
  case timeout => rw [exec_setupTimeout, execSetupTimeout, within_pos ((below_iff _ _).mpr hd)]

end Sys2Proof.Machine
end

section
/-! SUPPORT. Every instance of every register of the map is found at its BAR0 offset (R625): no two rows share a byte. -/

namespace Sys2Proof.Machine

/-! ## Two rows that share no byte -/

/-- The offset after the last byte of a register's instances. -/
def RegSpec.top (r : RegSpec) : Nat := r.off + ixSpan r.dims + r.size

/-- R625: all instances of one register lie below those of the other. -/
def RegSpec.far (r q : RegSpec) : Bool := Nat.ble r.top q.off || Nat.ble q.top r.off

/-- The stride of a register's first index: of the die for most registers. -/
def RegSpec.stride (r : RegSpec) : Nat :=
  match r.dims with
  | (_, _, s) :: _ => s
  | [] => 0

/-- The instances of a register whose first index is 0. -/
def RegSpec.bare (r : RegSpec) : RegSpec := { r with dims := r.dims.tail }

/-- The window of one stride in which those instances lie. -/
def RegSpec.window (r : RegSpec) : Nat := r.off / r.stride

/-- Those instances all lie in one window. -/
def RegSpec.fits (r : RegSpec) : Bool := Nat.ble r.bare.top ((r.window + 1) * r.stride)

/-- A test of `RegSpec.clear` that is cheap to evaluate, for registers laid out alike in windows of the first n indices. -/
def RegSpec.near : Nat → RegSpec → RegSpec → Bool
  | 0, r, q => r.far q
  | n + 1, r, q =>
    (Nat.beq r.stride q.stride && Nat.beq r.window q.window && r.fits && q.fits && near n r.bare q.bare) || r.far q

theorem disjoint_of_far {ds es : List (Nat × Nat × Nat)} {a b la lb : Nat} (h : a + ixSpan ds + la ≤ b ∨ b + ixSpan es + lb ≤ a) :
    disjoint ds a es b la lb = true := by
  cases ds with
  | nil =>
    cases es with
    | nil => simpa [disjoint, clearOf, ixSpan, ixOff] using h
    | cons e es =>
      simp only [disjoint, clearOf, Bool.or_eq_true, decide_eq_true_eq]
      exact .inl h
  | cons x ds => simp only [disjoint, Bool.or_eq_true, decide_eq_true_eq]; exact .inl (.inl h)

theorem sameBlock_of_window {s a b ea eb : Nat} (hw : a / s = b / s) (ha : ea ≤ (a / s + 1) * s) (hb : eb ≤ (b / s + 1) * s) :
    sameBlock s a ea b eb = true := by
  have hstart : min a b - min a b % s = min a b / s * s := by
    have := Nat.div_add_mod' (min a b) s
    omega
  have hmin : min a b / s = a / s := by
    rcases min_choice a b with h | h <;> rw [h, hw]
  rw [Nat.succ_mul] at ha hb
  simp only [sameBlock, Bool.or_eq_true, decide_eq_true_eq, hstart, hmin]
  rw [← hw] at hb
  exact .inr (max_le ha hb)

/-- A register that fits a window has a first index. -/
theorem dims_of_fits {r : RegSpec} (h : r.fits = true) : ∃ lo hi ds, r.dims = (lo, hi, r.stride) :: ds := by
  have hsize : 0 < r.bare.size := by unfold RegSpec.size; split <;> omega
  simp only [RegSpec.fits, RegSpec.top, Nat.ble_eq] at h
  obtain ⟨i, a, ds, w, fs⟩ := r
  cases ds with
  | nil => simp only [RegSpec.stride, Nat.mul_zero] at h; omega
  | cons x ds => exact ⟨_, _, _, rfl⟩

theorem near_disjoint {n : Nat} {r q : RegSpec} (h : RegSpec.near n r q = true) : disjoint r.dims r.off q.dims q.off r.size q.size = true := by
  have hfar : ∀ {r q : RegSpec}, r.far q = true → disjoint r.dims r.off q.dims q.off r.size q.size = true := fun h => by
    simp only [RegSpec.far, RegSpec.top, Bool.or_eq_true, Nat.ble_eq] at h
    exact disjoint_of_far h
  induction n generalizing r q with
  | zero => exact hfar h
  | succ n ih =>
    simp only [RegSpec.near, Bool.or_eq_true, Bool.and_eq_true, Nat.beq_eq] at h
    rcases h with ⟨⟨⟨⟨hs, hw⟩, hr⟩, hq⟩, hn⟩ | h
    · obtain ⟨lo, hi, ds, hds⟩ := dims_of_fits hr
      obtain ⟨lo', hi', es, hes⟩ := dims_of_fits hq
      have hrest := ih hn
      simp only [RegSpec.fits, RegSpec.top, RegSpec.window, RegSpec.bare, Nat.ble_eq, hds, hes, List.tail_cons, ← hs] at hr hq hw hrest
      simp only [hds, hes, ← hs, disjoint, Bool.or_eq_true, Bool.and_eq_true]
      exact .inl (.inr ⟨⟨beq_self_eq_true _, sameBlock_of_window hw hr hq⟩, hrest⟩)
    · exact hfar h

/-! ## The rows of the map -/

/-- Each row of a list shares no byte with a later one. -/
def pairsClear : List RegSpec → Bool
  | [] => true
  | r :: l => l.all (fun q => RegSpec.near 2 r q || r.clear q) && pairsClear l

theorem pairwise_clear {l : List RegSpec} (h : pairsClear l = true) : l.Pairwise (fun r q => r.clear q = true) := by
  induction l with
  | nil => exact .nil
  | cons r l ih =>
    simp only [pairsClear, Bool.and_eq_true, List.all_eq_true, Bool.or_eq_true] at h
    refine .cons (fun q hq => ?_) (ih h.2)
    rcases h.1 q hq with hnear | hclear
    · rw [RegSpec.clear, near_disjoint hnear, Bool.true_or]
    · exact hclear
theorem regs_pairsClear : pairsClear R.all = true := by decide +kernel

/-! ## What an offset finds -/

/-- A register that an offset finds has an instance there, or 4 below. -/
theorem addr_of_hit {q : RegSpec} {off : Nat} {h : Hit} (hh : q.hit off = some h) :
    ixOk q.dims h.ix = true ∧ ∃ b < q.size, off = q.addr h.ix + b := by
  unfold RegSpec.hit at hh
  split at hh
  · cases hh
  · next hoff =>
    split at hh
    · next ix rem hd =>
      obtain ⟨hix, hok⟩ := decodeIx_sound hd
      rw [RegSpec.size]
      split at hh
      · cases hh
        exact ⟨hok, 0, by split <;> omega, by rw [addr_eq]; dsimp only; omega⟩
      · split at hh
        · next hwide =>
          simp only [Bool.and_eq_true, decide_eq_true_eq] at hwide
          cases hh
          exact ⟨hok, 4, by rw [if_pos hwide.2]; omega, by rw [addr_eq]; dsimp only; omega⟩
        · cases hh
    · cases hh

section
variable {r : RegSpec} {ix : List Nat} (hr : r ∈ R.all) (hi : ixOk r.dims ix = true)
include hr hi

/-- R625: no other row of the map has a word within the bytes of an instance. -/
theorem hit_other {q : RegSpec} (hq : q ∈ R.all) (hne : q ≠ r) {b : Nat} (hb : b < r.size) : q.hit (r.addr ix + b) = none := by
  cases hh : q.hit (r.addr ix + b) with
  | none => rfl
  | some h =>
    obtain ⟨hj, c, hc, heq⟩ := addr_of_hit hh
    rw [addr_eq, addr_eq] at heq
    have hsymm : Std.Symm (fun r q : RegSpec => r.clear q = true ∨ q.clear r = true) := ⟨fun _ _ => Or.symm⟩
    rcases ((pairwise_clear regs_pairsClear).imp (S := fun r q => r.clear q = true ∨ q.clear r = true) Or.inl).forall hr hq (Ne.symm hne) with hclear | hclear
    · exact absurd heq (clear_sound hclear hi hj hb hc)
    · exact absurd heq.symm (clear_sound hclear hj hi hc hb)

/-- R625: a word within the bytes of an instance is that instance's. -/
theorem findReg_within {b : Nat} (hb : b < r.size) {h : Hit} (hh : r.hit (r.addr ix + b) = some h) : findReg (r.addr ix + b) = some h := by
  have hfirst : ∀ {l : List RegSpec}, l ⊆ R.all → r ∈ l → l.findSome? (fun q => q.hit (r.addr ix + b)) = some h := by
    intro l hl hm
    induction l with
    | nil => cases hm
    | cons q l ih =>
      rw [List.findSome?_cons]
      by_cases hq : q = r
      · rw [hq, hh]
      · rw [hit_other hr hi (hl List.mem_cons_self) hq hb]
        exact ih (List.subset_of_cons_subset hl) (List.mem_of_ne_of_mem (Ne.symm hq) hm)
  exact hfirst (List.Subset.refl _) hr

end

theorem hit_high {r : RegSpec} (hn : nested r.size r.dims = true) (hw : r.wide = true) {ix : List Nat} (hi : ixOk r.dims ix = true) :
    r.hit (r.addr ix + 4) = some ⟨r, ix, true⟩ := by
  have hsize : 4 < r.size := by rw [RegSpec.size, if_pos hw]; omega
  rw [addr_eq, RegSpec.hit, if_neg (by omega), show r.off + ixOff r.dims ix + 4 - r.off = ixOff r.dims ix + 4 by omega, decodeIx_complete hn hi hsize]
  simp [hw]

theorem regs_nested : ∀ r ∈ R.all, nested r.size r.dims = true :=
  List.all_eq_true.mp (show R.all.all (fun r => nested r.size r.dims) = true by decide +kernel)

/-- Settles O42: no other row has a word where an instance of a register stands, and the register finds its own. -/
theorem everyRegisterIsFoundAtItsOffset : Obligations.EveryRegisterIsFoundAtItsOffset := by
  intro r ix hr hi
  have hn := regs_nested r hr
  have hlow : 0 < r.size := by unfold RegSpec.size; split <;> omega
  refine ⟨findReg_within (b := 0) hr hi hlow (hit_self hn hi), fun hw => ?_⟩
  have hhigh : 4 < r.size := by rw [RegSpec.size, if_pos hw]; omega
  exact findReg_within hr hi hhigh (hit_high hn hw hi)

end Sys2Proof.Machine
end

section
/-! SUPPORT. The queue, and the commands that run (log entries 1 to 3). -/

namespace Sys2Proof.Machine

open Sys2Proof

/-! ## One step -/

/-- Settles O1. -/
theorem stepRunsTheFrontCommand : Obligations.StepRunsTheFrontCommand := fun _ _ _ h => step_cons h

/-- Every meaning acts on the part alone, where the operands name units of the part. -/
theorem exec_within (c : Instr) (s : State) : ∃ ok f, exec c s = within ok s f := by
  cases c
  all_goals simp only [exec]
  all_goals exact ⟨_, _, rfl⟩

theorem exec_pending {c : Instr} {s t : State} (h : exec c s = .next t) : t.pending = s.pending := by
  obtain ⟨ok, f, hwithin⟩ := exec_within c s
  rw [hwithin] at h
  exact within_pending h

theorem step_pending {s t : State} (h : step s = .next t) : t.pending = s.pending.drop 1 := by
  cases hp : s.pending with
  | nil =>
    rw [step_nil hp] at h
    cases h
    exact hp
  | cons c cs =>
    rw [step_cons hp] at h
    exact exec_pending h

/-- A run of one step more is a step that goes on, and a run from there. -/
theorem run_succ {M : Host.Core} {n : Nat} {s t : M.State} (h : M.run (n + 1) s = .next t) : ∃ u, M.step s = .next u ∧ M.run n u = .next t := by
  unfold Host.Core.run at h
  split at h
  next u hs => exact ⟨u, hs, h⟩
  next => cases h
  next => cases h

/-- Settles O4, by induction on the number of steps. -/
theorem stepsTakeCommandsFirstInFirstOut : Obligations.StepsTakeCommandsFirstInFirstOut := by
  intro n
  induction n with
  | zero =>
    intro s t h
    cases h
    rfl
  | succ n ih =>
    intro s t h
    obtain ⟨u, hstep, hrun⟩ := run_succ h
    rw [ih u t hrun, step_pending hstep, List.drop_drop, Nat.add_comm]

/-! ## Commands of units that the part has, and of none -/

/-- Settles O5: the meaning of each command asks of its operands what `wf` and `fits` ask. -/
theorem everyWellFormedCommandRuns : Obligations.EveryWellFormedCommandRuns := by
  intro c s hwf hfits
  cases c
  case formeFetchComplete img => exact ⟨_, (exec_formeFetchComplete img s).trans (within_pos (by cases img; exacts [rfl, hfits]) _ _)⟩
  case patchLoadComplete img => exact ⟨_, (exec_patchLoadComplete img s).trans (within_pos (by cases img; exacts [rfl, hfits]) _ _)⟩
  case hbmReadComplete rd => exact ⟨_, (exec_hbmReadComplete rd s).trans (within_pos (Bool.and_eq_true_iff.mpr ⟨hwf, hfits⟩) _ _)⟩
  case panicRaise pc arr => exact ⟨_, (exec_panicRaise pc arr s).trans (within_pos (Bool.and_eq_true_iff.mpr ⟨hwf, hfits⟩) _ _)⟩
  case lossCondition port lane loss =>
    obtain ⟨hfirst, hlast⟩ := Bool.and_eq_true_iff.mp hfits
    have hport : below 64 port = true := (Bool.and_eq_true_iff.mp hwf).1
    exact ⟨_, (exec_lossCondition port lane loss s).trans
      (within_pos (Bool.and_eq_true_iff.mpr ⟨Bool.and_eq_true_iff.mpr ⟨hport, hfirst⟩, hlast⟩) _ _)⟩
  all_goals simp only [exec]
  all_goals exact ⟨_, within_pos hwf _ _⟩

/-- Settles O6. -/
theorem aCommandOfNoUnitStops : Obligations.ACommandOfNoUnitStops := by
  intro s b full fr n rest
  have hbelow : ∀ {m}, m ≤ n → below m n = false := fun h => decide_eq_false (Nat.not_lt.mpr h)
  refine ⟨fun h => ⟨?frame, ?debounce⟩, fun h => ⟨?watchdog, ?add⟩, fun h => ⟨?verdict, ?link⟩⟩
  case frame => rw [exec_frameReceive, execFrameReceive, within_neg (hbelow h)]
  case debounce => rw [exec_linkUpDebounceExpire, execLinkUpDebounceExpire, within_neg (hbelow h)]
  case watchdog => rw [exec_watchdogBite, execWatchdogBite, within_neg (hbelow h)]
  case add => rw [exec_kAdd, execKAdd, within_neg (hbelow h)]
  case verdict => rw [exec_verdictReceive, execVerdictReceive, within_neg (hbelow h)]
  case link => rw [exec_pcieLinkDown, execPcieLinkDown, within_neg (hbelow h)]

end Sys2Proof.Machine
end

section
/-! SUPPORT. The commands and events of the time base (R575–R593): what each does where its register takes the write, or shows the read, or where it describes an
event of the part. -/

namespace Sys2Proof.Machine

/-! ## Reads of registers with a reader of their own -/

section
variable {d : Dev} {p : Path}

/-- R13: a register that a reader of its own answers, and that counts nothing of a port or lane up to the read, shows what its reader says. -/
theorem hostRead_reader {r : RegSpec} {ix : List Nat} {f : Dev → Path → List Nat → Nat → Dev} (hs : d.shows p r ix = true) (h : r.placed = true)
    (hi : ixOk r.dims ix = true) (hoff : 0x500 ≤ r.off) (hm : (r.is R.SEC_MREG || r.is R.TRC_RD_DATA) = false)
    (ht : d.tally ⟨r, ix, false⟩ = d) (hf : readers.find? (fun x => x.1.is r) = some (r, f)) : d.hostRead p (r.addr ix) = f d p ix 0 := by
  obtain ⟨hmreg, htrc⟩ := Bool.or_eq_false_iff.mp hm
  rw [hostRead_shows hs h hi (Nat.le_add_right_of_le hoff), Dev.regRead, ht]
  simp only [hmreg, htrc, hf, Bool.false_and, Bool.false_eq_true, if_false]

theorem hostRead_now {k : Nat} (hk : k < 2) (hs : d.shows p R.TIM_NOW_NS [k] = true) : d.hostRead p (R.TIM_NOW_NS.addr [k]) = d.nowRead p k :=
  hostRead_reader hs placed_TIM_NOW_NS (ixOk_die hk) (by decide) rfl rfl rfl

theorem ixOk_pin {k : Nat} (hk : k < 4) : ixOk R.TIM_TRIG_NS.dims [k] = true := by
  simp only [R.TIM_TRIG_NS, ixOk, Bool.and_eq_true, Bool.and_true, decide_eq_true_eq]
  omega

theorem hostRead_trig {k : Nat} (hk : k < 4) (hs : d.shows p R.TIM_TRIG_NS [k] = true) : d.hostRead p (R.TIM_TRIG_NS.addr [k]) = d.trigRead p k :=
  hostRead_reader hs placed_TIM_TRIG_NS (ixOk_pin hk) (by decide) rfl rfl rfl

theorem ixOk_tsq {g : Nat} (hg : g < 4) : ixOk R.TIM_TSQ_W0.dims [g / 2, g % 2] = true := by
  simp only [R.TIM_TSQ_W0, ixOk, Bool.and_eq_true, Bool.and_true, decide_eq_true_eq]
  omega

theorem hostRead_tsq {g : Nat} (hg : g < 4) (hs : d.shows p R.TIM_TSQ_W0 [g / 2, g % 2] = true) :
    d.hostRead p (R.TIM_TSQ_W0.addr [g / 2, g % 2]) = d.stampPop p g := by
  rw [hostRead_reader hs placed_TIM_TSQ_W0 (ixOk_tsq hg) (by decide) rfl rfl rfl, rgOfIx_region]

/-! ## The words of TIM_CMD (R576) -/

/-- R576: what each OP of TIM_CMD does. -/
theorem performWrite_timCmd : d.performWrite p ⟨R.TIM_CMD, [], false⟩ 0x10000000 = d.timCommand p 1 ∧
    d.performWrite p ⟨R.TIM_CMD, [], false⟩ 0x20000000 = d.timCommand p 2 ∧ d.performWrite p ⟨R.TIM_CMD, [], false⟩ 0x30000000 = d.timCommand p 3 ∧
    d.performWrite p ⟨R.TIM_CMD, [], false⟩ 0x40000000 = d.timCancel := by
  have hop : ∀ v, d.performWrite p ⟨R.TIM_CMD, [], false⟩ v =
      if fv R.TIM_CMD "OP" v = 4 then d.timCancel else d.timCommand p (fv R.TIM_CMD "OP" v) := fun _ => rfl
  exact ⟨(hop _).trans (if_neg (by decide)), (hop _).trans (if_neg (by decide)), (hop _).trans (if_neg (by decide)), (hop _).trans (if_pos rfl)⟩

theorem hostOp_timCmd {op v : Nat} (hv : pack R.TIM_CMD [("OP", op)] = v) (hlt : v < 2 ^ 32) (ht : d.takes p R.TIM_CMD [] v = true) :
    d.hostOp p R.TIM_CMD [] [("OP", op)] = d.performWrite p ⟨R.TIM_CMD, [], false⟩ v :=
  Dev.hostOp_takes hv ht placed_TIM_CMD rfl rfl hlt

/-- R577: a command that passes both tests has arrived. -/
theorem timArrive_passes {c : TimCmd} (hc : d.tim.cmd = some c) (hwait : c.arrived = false) (hrange : timRange d.tim c = false)
    (hlate : d.tim.raw.d0 + 128 ≤ c.e) : d.timArrive = { d with tim := { d.tim with cmd := some { c with arrived := true } } } := by
  have hintime : ¬ c.e < d.tim.raw.d0 + 128 := Nat.not_lt.mpr hlate
  simp only [Dev.timArrive, hc, hwait, hrange, hintime, Bool.false_eq_true, if_false]

end

/-- Settles O22: each command's register takes its word or shows its read, and the events name timers and pins that the part has. -/
theorem timeCommandsComplete : Obligations.TimeCommandsComplete := by
  intro s p d n k g raw c hd hn hk hg hraw
  obtain ⟨hrate, hstep, hset, hcancel⟩ := performWrite_timCmd (d := s.dev) (p := p)
  have hpin : below 4 k = true := (below_iff _ _).mpr hk
  refine ⟨fun ht => ?rate, fun ht => ?step, fun ht => ?set, fun ht => ?cancel, fun hc hwait hrange hlate => ?arrive, ?epoch, ?lost, ?relock, fun _ => ?fire,
    fun hfunc => ?pps, ?pulse, fun _ => ?capture, fun hs => ?now, fun hs => ?trig, ?stamp, fun hs => ?pop⟩
  case rate => rw [exec_timRate, execTimRate, within_pos rfl, hostOp_timCmd (v := 0x10000000) rfl (by decide) ht, hrate]
  case step => rw [exec_timStep, execTimStep, within_pos rfl, hostOp_timCmd (v := 0x20000000) rfl (by decide) ht, hstep]
  case set => rw [exec_timSet, execTimSet, within_pos rfl, hostOp_timCmd (v := 0x30000000) rfl (by decide) ht, hset]
  case cancel => rw [exec_timCancel, execTimCancel, within_pos rfl, hostOp_timCmd (v := 0x40000000) rfl (by decide) ht, hcancel]
  case arrive => rw [exec_timeCommandArrive, execTimeCommandArrive, within_pos rfl, timArrive_passes hc hwait hrange hlate]
  case epoch => rw [exec_timeEpochReached, execTimeEpochReached, within_pos rfl]
  case lost => rw [exec_refLost, execRefLost, within_pos rfl]
  case relock => rw [exec_refRelock, execRefRelock, within_pos rfl]
  case fire => rw [exec_eventTimerFire, execEventTimerFire, within_pos (below_and_below hd hn)]
  case pps => rw [exec_ppsOutput, execPpsOutput, within_pos hpin, Dev.pps, if_pos hfunc]
  case pulse => rw [exec_outputPulseEnd, execOutputPulseEnd, within_pos hpin, Dev.pulseEnd]
  case capture => rw [exec_triggerCapture, execTriggerCapture, within_pos hpin]
  case now => rw [exec_timeCaptureRead, execTimeCaptureRead, within_pos ((below_iff _ _).mpr hd), hostRead_now hd hs]
  case trig => rw [exec_triggerRead, execTriggerRead, within_pos hpin, hostRead_trig hk hs]
  case stamp => rw [exec_stampEntry, execStampEntry, within_pos (below_and_below hg hraw)]
  case pop => rw [exec_stampQueuePop, execStampQueuePop, within_pos ((below_iff _ _).mpr hg), hostRead_tsq hg hs]

/-! ## Stamps whose raw count no TIM_RAW holds -/

/-- Refutes O54: the statement bounds no raw count, and a stamp at a raw count of 2^64 names none of the part, so that STAMP_ENTRY stops with noSuchUnit. -/
theorem not_aFullStampQueueDropsAndCounts : ¬ Obligations.AFullStampQueueDropsAndCounts := by
  intro h
  let e : Due := ⟨0, 0, 0, 0, false⟩
  let s : State := { State.reset with dev := { State.reset.dev with tim := { State.reset.dev.tim with due := [[e], [], [], []] } } }
  obtain ⟨t, hnext, -⟩ := h s 0 (2 ^ 64) e [] (by decide) rfl (by decide)
  have hstop : exec (.stampEntry 0 (2 ^ 64)) s = .fault .noSuchUnit := by
    rw [exec_stampEntry, execStampEntry, within_neg (by decide)]
  rw [hstop] at hnext
  cases hnext

/-! ## Captures (R592, R593) -/

section
variable {d : Dev} {k : Nat}

theorem pNs_lt (p : Int) : pNs p < 10 ^ 9 := by
  unfold pNs
  omega

theorem trigNs_clear : R.TIM_TRIG_NS.clear R.TIM_TRIG_STAT = true := by decide +kernel

/-- R592: OVR set by a capture when the one before it has not been read. -/
def Dev.overrun (d : Dev) (k : Nat) : Dev := if d.bit R.TIM_TRIG_STAT [k] "NEW" then d.put R.TIM_TRIG_STAT [k] "OVR" 1 else d

/-- R592: a capture by a pin of the function TRIG_IN. -/
theorem trigCapture_eq (hf : d.get R.TIM_IO_CFG [k] "FUNC" = 2) : d.trigCapture k =
    (((d.overrun k).put R.TIM_TRIG_STAT [k] "NEW" 1).pin k (fun q => { q with cap := d.now 0 })).put R.TIM_TRIG_NS [k] "NS" (pNs (d.now 0)) := by
  have hnow : ((d.overrun k).put R.TIM_TRIG_STAT [k] "NEW" 1).now 0 = d.now 0 := by
    have htim : (d.overrun k).tim = d.tim := by
      unfold Dev.overrun
      split
      · exact Dev.put_tim d _ _ _ _
      · rfl
    simp only [Dev.now, Dev.put_tim, htim]
  rw [← hnow]
  unfold Dev.trigCapture Dev.overrun
  simp only [hf, bne_self_eq_false, Bool.false_eq_true, if_false]

/-- A pin rewritten leaves every field of a register. -/
theorem get_pin (f : Pin → Pin) (r : RegSpec) (ix : List Nat) (n : String) : (d.pin k f).get r ix n = d.get r ix n := rfl

variable (hf : d.get R.TIM_IO_CFG [k] "FUNC" = 2)
include hf

/-- R592: the capture itself leaves TIM_TRIG_STAT as NEW and OVR make it. -/
theorem trigStat_trigCapture (hk : k < 4) (n : String) :
    (d.trigCapture k).get R.TIM_TRIG_STAT [k] n = ((d.overrun k).put R.TIM_TRIG_STAT [k] "NEW" 1).get R.TIM_TRIG_STAT [k] n := by
  rw [trigCapture_eq hf, Dev.get_put_ne _ _ _ _ (apart_of_clear trigNs_clear (ixOk_pin hk) (ixOk_pin hk)), get_pin]

theorem new_trigCapture (hk : k < 4) : (d.trigCapture k).bit R.TIM_TRIG_STAT [k] "NEW" = true := by
  rw [Dev.bit, trigStat_trigCapture hf hk, Dev.get_put_same (g := fl "NEW" 31 31 .rc) _ _ _ rfl (by decide) (by decide)]
  rfl

theorem ovr_trigCapture (hk : k < 4) : (d.trigCapture k).bit R.TIM_TRIG_STAT [k] "OVR" =
    (d.bit R.TIM_TRIG_STAT [k] "NEW" || d.bit R.TIM_TRIG_STAT [k] "OVR") := by
  rw [Dev.bit, trigStat_trigCapture hf hk,
    Dev.get_put_field (g := fl "NEW" 31 31 .rc) (g' := fl "OVR" 30 30 .rc) _ _ _ rfl rfl (by decide) (by decide) (by decide), Dev.overrun]
  split
  next hnew =>
    rw [Dev.get_put_same (g := fl "OVR" 30 30 .rc) _ _ _ rfl (by decide) (by decide), hnew]
    rfl
  next hnew => rw [Bool.not_eq_true] at hnew; rw [hnew, Bool.false_or, Dev.bit]

theorem ns_trigCapture : (d.trigCapture k).get R.TIM_TRIG_NS [k] "NS" = pNs (d.now 0) := by
  have hlt := pNs_lt (d.now 0)
  rw [trigCapture_eq hf, Dev.get_put_same (g := fl "NS" 31 0 .ro) _ _ _ rfl (by decide) (by decide)]
  exact Nat.mod_eq_of_lt (by simp only [fl]; omega)

end

/-- R593: what a read of TIM_NOW_NS over PCIe captures, and what it returns. -/
theorem nowRead_pcie (d : Dev) (k : Nat) : (d.nowRead .pcie k).tim = { d.tim with capP := d.tim.capP.set k ⟨d.now k, d.tim.raw.get k⟩ } ∧
    (d.nowRead .pcie k).hif.pcie.last = pNs (d.now k) := ⟨rfl, rfl⟩

/-- R593: what one over the galley chain captures, and what it returns. -/
theorem nowRead_galley (d : Dev) (k : Nat) : (d.nowRead .galley k).tim = { d.tim with capG := d.tim.capG.set k ⟨d.now k, d.tim.raw.get k⟩ } ∧
    (d.nowRead .galley k).hif.galley.last = pNs (d.now k) := ⟨rfl, rfl⟩

/-- A capture set for one die is that die's, and the other die's stands. -/
theorem get_set_other {α : Type} (t : Two α) {k : Nat} (hk : k < 2) (v : α) : (t.set k v).get (1 - k) = t.get (1 - k) := by
  interval_cases k <;> rfl

/-- Settles O55: the capture's NEW is put after OVR, and a read sets the capture of one die and path. -/
theorem capturesStayApartAndOvrTellsALostOne : Obligations.CapturesStayApartAndOvrTellsALostOne := by
  intro s d k hd hk
  refine ⟨fun hf => ⟨{ s with dev := s.dev.trigCapture k }, ?trigger, new_trigCapture hf hk, ns_trigCapture hf, fun hnew => ?lost, fun hnew => ?read⟩, fun hs => ?pcie, fun hs => ?galley⟩
  case trigger => rw [exec_triggerCapture, execTriggerCapture, within_pos ((below_iff _ _).mpr hk)]
  case lost => rw [ovr_trigCapture hf hk, hnew, Bool.true_or]
  case read => rw [ovr_trigCapture hf hk, hnew, Bool.false_or]
  case pcie =>
    obtain ⟨htim, hlast⟩ := nowRead_pcie s.dev d
    refine ⟨{ s with dev := s.dev.nowRead .pcie d }, ?_, ?_, ?_, ?_, hlast⟩
    · rw [exec_timeCaptureRead, execTimeCaptureRead, within_pos ((below_iff _ _).mpr hd), hostRead_now hd hs]
    · simp only [htim, Two.get_set_same]
    · simp only [htim, get_set_other _ hd]
    · simp only [htim]
  case galley =>
    obtain ⟨htim, hlast⟩ := nowRead_galley s.dev d
    refine ⟨{ s with dev := s.dev.nowRead .galley d }, ?_, ?_, ?_, ?_, hlast⟩
    · rw [exec_timeCaptureRead, execTimeCaptureRead, within_pos ((below_iff _ _).mpr hd), hostRead_now hd hs]
    · simp only [htim, Two.get_set_same]
    · simp only [htim, get_set_other _ hd]
    · simp only [htim]

end Sys2Proof.Machine
end

section
/-! SUPPORT. The commands of the host rings and endpoints (R622–R637, R708): doorbells, the accesses to an endpoint's own address space, and MSI-X messages. -/

namespace Sys2Proof.Machine

section
variable {d : Dev} {p : Path}

/-! ## Doorbells (R636) -/

theorem ixOk_txTail {t : Nat} (ht : t < 64) : ixOk R.HIF_TX_TAIL.dims [t] = true := by
  simp only [R.HIF_TX_TAIL, ixOk, Bool.and_eq_true, Bool.and_true, decide_eq_true_eq]
  omega

theorem ixOk_rxTail {k t : Nat} (hk : k < 2) (ht : t < 64) : ixOk R.HIF_RX_TAIL.dims [k, t] = true := by
  simp only [R.HIF_RX_TAIL, ixOk, Bool.and_eq_true, Bool.and_true, decide_eq_true_eq]
  omega

/-- R13: a host write of a register of one word that sets fields and does nothing else. -/
theorem hostWrite_fields {r : RegSpec} {ix : List Nat} {v : Nat} (ht : d.takes p r ix v = true) (h : r.placed = true) (hi : ixOk r.dims ix = true)
    (hw : r.wide = false) (hv : v < 2 ^ 32) (hno : writers.find? (fun w => w.1.is r) = none) (ha : r.acts = false) :
    d.hostWrite p (r.addr ix) (BitVec.ofNat 32 v) = d.fieldsWrite r ix v := by
  rw [hostWrite_takes ht h hi hw hv, performWrite_fields hno ha]

/-- R109: a host write that reaches a register and waits for none before it has its turn at once. -/
theorem hostWrite_turn {r : RegSpec} {ix : List Nat} (hs : d.shows p r ix = true) (v : Word) :
    d.behind p (r.addr ix) = false ∧ d.hostWrite p (r.addr ix) v = d.doWrite p (r.addr ix) v := by
  simp only [Dev.shows, Bool.and_eq_true, Bool.not_eq_true'] at hs
  obtain ⟨⟨⟨⟨hreach, hbehind⟩, -⟩, -⟩, -⟩ := hs
  refine ⟨hbehind, ?_⟩
  simp only [Dev.hostWrite, hreach, hbehind, Bool.not_true, Bool.false_eq_true, if_false]

/-- R636: a doorbell acts as the write of its tail register through whichever endpoint it comes. -/
theorem rxBell_fields {k t v : Nat} (hk : k < 2) (ht : t < 64) (hv : v < 65536) (htakes : d.takes p R.HIF_RX_TAIL [k, t] v = true) :
    d.rxBell p k t v = d.fieldsWrite R.HIF_RX_TAIL [k, t] v := by
  obtain ⟨hbehind, hturn⟩ := hostWrite_turn (takes_shows htakes) (BitVec.ofNat 32 v)
  have hwrite := hostWrite_fields htakes placed_HIF_RX_TAIL (ixOk_rxTail hk ht) rfl (by omega) rfl rfl
  rw [← hwrite]
  simp only [Dev.rxBell, hbehind, Bool.false_eq_true, if_false]
  split
  · exact hturn.symm
  · rfl

/-! ## Accesses to an endpoint (R622, R708) -/

section
variable {k off : Nat}

/-- R708: an endpoint whose link is up and that takes no access to its BARs discards a write and answers a read with Unsupported Request. -/
theorem bar2_unsupported (hl : d.epLinked k = true) (ht : d.epTakes k = false) (v : Word) :
    d.bar2Write k off v = d ∧ d.bar2Read k off = d.updEp k (fun e => { e with cpl := .unsupported }) := by
  simp [Dev.bar2Write, Dev.bar2Read, hl, ht]

/-- R622: the words of the entry of a vector in the MSI-X table. -/
theorem vecWord_bounds {vec : Nat} (hoff : off / 16 = 0x80 + vec) (hvec : vec < epVecs k) :
    (0x800 ≤ off ∧ off < 0x800 + 16 * epVecs k) ∧ (off - 0x800) / 16 = vec := by
  omega

/-- R622: a word of the MSI-X table of an endpoint that takes the access. -/
theorem bar2_vector {vec : Nat} (hl : d.epLinked k = true) (ht : d.epTakes k = true) (hoff : off / 16 = 0x80 + vec) (hvec : vec < epVecs k) (v : Word) :
    d.bar2Write k off v = d.updEp k (fun e => e.setVecWord vec (off / 4 % 4) v.toNat) ∧
      d.bar2Read k off = d.updEp k (fun e => { e with cpl := .data ((d.hif.ep.get k).vecWord vec (off / 4 % 4)) }) := by
  obtain ⟨hin, hentry⟩ := vecWord_bounds hoff hvec
  simp only [Dev.bar2Write, Dev.bar2Read, Dev.bar2Word, hl, ht, hin, hentry, Bool.not_true, Bool.or_false, Bool.false_eq_true, if_false, and_self, if_true]
  exact ⟨trivial, rfl⟩

/-- R708: a configuration request over a link that is up, before the endpoint accepts one and after. -/
theorem cfgRequest_linked (hl : d.epLinked k = true) (f : Dev → Dev) :
    d.cfgRequest k f = if (d.hif.ep.get k).ready then f d else d.updEp k (fun e => { e with cpl := .retry }) := by
  simp only [Dev.cfgRequest, hl, Bool.not_true, Bool.false_eq_true, if_false]
  cases (d.hif.ep.get k).ready <;> rfl

end

end

/-! ## The commands run -/

/-- R622, R708: an access of the host that names a vector of an endpoint, or a word of its address space. -/
theorem msixUnmask_runs {ep : Nat} {op : EpOp} (hep : ep < 2) (hop : epNames ep op = true) (s : State) :
    exec (.msixUnmask ep op) s = .next { s with dev := s.dev.epAccess ep op } := by
  have hunits : (below 2 ep && epNames ep op) = true := by rw [hop, Bool.and_true, below_iff]; exact hep
  rw [exec_msixUnmask, execMsixUnmask, within_pos hunits]

theorem epNames_word {off : Nat} (hoff : off < 4096) (halign : off % 4 = 0) (ep : Nat) :
    (∀ v, epNames ep (.write off v) = true) ∧ epNames ep (.read off) = true ∧ epNames ep (.readConfig off) = true := by
  have hword : (below 4096 off && off % 4 == 0) = true := by simp [below, hoff, halign]
  exact ⟨fun _ => hword, hword, hword⟩

/-- Settles O26: tails take their doorbells, and each access to an endpoint is answered by what the endpoint takes. -/
theorem hostRingCommandsComplete : Obligations.HostRingCommandsComplete := by
  intro s p t d c ep vec v speed width off en mem bus d3 desc frame w
  refine ⟨fun ht hv htakes => ?tx, fun ht hdesc hframe => ?process, fun ht hdesc => ?fetchFails, fun ht => ?retry, fun hd ht hv htakes => ?rx,
    fun hd hc hdesc => ?deliver, fun htakes => ?exc, fun hep hvec => ?unmask, fun hep hoff halign hl => ⟨fun hno => ⟨?writeNo, ?readNo⟩,
    fun htake hvoff hvec => ⟨?writeVec, ?readVec⟩, fun hready => ⟨?readRetry, ?writeRetry⟩, fun hready => ⟨?readCfg, ?writeCfg⟩⟩, fun hep => ?down,
    fun hlink => ?up⟩
  case tx =>
    rw [exec_txDoorbell, execTxDoorbell, within_pos (below_and_below ht hv),
      hostWrite_fields htakes placed_HIF_TX_TAIL (ixOk_txTail ht) rfl (by omega) rfl rfl]
  case process =>
    rw [exec_txDescriptorProcess, execTxDescriptorProcess, within_pos (by simp [below, ht, hdesc, hframe])]
  case fetchFails => rw [exec_txDescriptorProcess, execTxDescriptorProcess, within_pos (by simp [below, ht, hdesc])]
  case retry => rw [exec_txStallRetry, execTxStallRetry, within_pos ((below_iff _ _).mpr ht)]
  case rx =>
    have ht64 : t < 64 := by split at ht <;> omega
    rw [exec_rxDoorbell, execRxDoorbell, within_pos (by simp only [below, hd, ht, hv, decide_true, Bool.and_true]), rxBell_fields hd ht64 hv htakes]
  case deliver => rw [exec_rxFrameDeliver, execRxFrameDeliver, within_pos (by simp [below, hd, hc, hdesc])]
  case exc =>
    have hpack : pack R.HIF1_CTL [("EXC_EN", b2n en)] = b2n en := by cases en <;> rfl
    have hlt : b2n en < 2 ^ 32 := by cases en <;> decide
    rw [exec_excEnWrite, execExcEnWrite, within_pos rfl, Dev.hostOp, hpack, hostWrite_fields htakes placed_HIF1_CTL rfl rfl hlt rfl rfl]
  case unmask => exact msixUnmask_runs (op := .unmask vec) hep ((below_iff _ _).mpr hvec) s
  case writeNo => rw [msixUnmask_runs hep ((epNames_word hoff halign ep).1 w), Dev.epAccess, (bar2_unsupported hl hno w).1]
  case readNo => rw [msixUnmask_runs hep (epNames_word hoff halign ep).2.1, Dev.epAccess, (bar2_unsupported hl hno w).2]
  case writeVec => rw [msixUnmask_runs hep ((epNames_word hoff halign ep).1 w), Dev.epAccess, (bar2_vector hl htake hvoff hvec w).1]
  case readVec => rw [msixUnmask_runs hep (epNames_word hoff halign ep).2.1, Dev.epAccess, (bar2_vector hl htake hvoff hvec w).2]
  case readRetry => rw [msixUnmask_runs hep (epNames_word hoff halign ep).2.2, Dev.epAccess, cfgRequest_linked hl, hready, if_neg Bool.false_ne_true]
  case writeRetry => rw [msixUnmask_runs (op := .config mem bus d3) hep rfl, Dev.epAccess, Dev.cfgWrite, cfgRequest_linked hl, hready, if_neg Bool.false_ne_true]
  case readCfg => rw [msixUnmask_runs hep (epNames_word hoff halign ep).2.2, Dev.epAccess, cfgRequest_linked hl, hready, if_pos rfl]
  case writeCfg => rw [msixUnmask_runs (op := .config mem bus d3) hep rfl, Dev.epAccess, Dev.cfgWrite, cfgRequest_linked hl, hready, if_pos rfl]
  case down =>
    rw [exec_pcieLinkDown, execPcieLinkDown, within_pos ((below_iff _ _).mpr hep)]
    rfl
  case up => rw [exec_pcieLinkUp, execPcieLinkUp, within_pos hlink]

/-! ## MSI-X messages (R627) -/

section
variable {e : Endpoint} {v : Nat}

/-- R627: an occurrence of a masked vector pends once. -/
theorem signal_masked (hm : e.masked.contains v = true) :
    e.signal v = if e.pending.contains v then e else { e with pending := e.pending ++ [v] } := by
  simp only [Endpoint.signal, hm, Bool.true_or, if_true]

/-- R627: a vector unmasked at an endpoint that can send and has no other message waiting. -/
theorem unmask_pending (hs : e.sends = true) (hp : e.pending = [v]) :
    e.unmask v = { e with masked := e.masked.filter (· != v), sent := e.sent ++ [v], pending := [] } := by
  have hopen : (e.masked.filter (· != v)).contains v = false := by simp
  have hsends : ({ e with masked := e.masked.filter (· != v) } : Endpoint).sends = true := hs
  rw [Endpoint.unmask, Endpoint.release, if_pos hsends]
  simp only [hp, List.filter_cons, List.filter_nil, hopen, Bool.not_false, Bool.false_eq_true, if_true, if_false]

end

/-- An endpoint changed reads as changed. -/
theorem ep_updEp (d : Dev) {k : Nat} (f : Endpoint → Endpoint) : (d.updEp k f).hif.ep.get k = f (d.hif.ep.get k) := Two.get_set_same _ _ _

/-- Settles O59: a masked vector pends and is not sent; a release sends what is pending and no longer masked. -/
theorem aMaskedVectorSendsOneMessageWhenUnmasked : Obligations.AMaskedVectorSendsOneMessageWhenUnmasked := by
  refine ⟨fun e v hm => ?_, fun s k v hk hv => ⟨fun htakes hsends hpend => ?unmask, fun hno => ?discard⟩⟩
  · rw [signal_masked hm]
    split
    next hp => exact ⟨rfl, by simpa using hp, by rw [signal_masked hm, if_pos hp]⟩
    next hp => exact ⟨rfl, by simp, (signal_masked (e := { e with pending := e.pending ++ [v] }) hm).trans (if_pos (by simp))⟩
  case unmask =>
    refine ⟨{ s with dev := s.dev.updEp k (·.unmask v) }, ?_, ?_⟩
    · rw [msixUnmask_runs (op := .unmask v) hk ((below_iff _ _).mpr hv), Dev.epAccess, Dev.unmask, if_pos htakes]
    · simp only [ep_updEp, unmask_pending hsends hpend, and_self]
  case discard => rw [msixUnmask_runs (op := .unmask v) hk ((below_iff _ _).mpr hv), Dev.epAccess, Dev.unmask, if_neg (by simp [hno])]

end Sys2Proof.Machine
end

section
/-! SUPPORT. The galley chain (R638–R649): what a frame that arrives does, and the copy that goes out of the other port. -/

namespace Sys2Proof.Machine

/-! ## The check sum of a frame (R639) -/

theorem crcBit_lt {w poly : Nat} (hp : poly < 2 ^ w) (c b : Nat) : crcBit w poly c b < 2 ^ w := by
  have hmod : c * 2 % 2 ^ w < 2 ^ w := Nat.mod_lt _ (Nat.two_pow_pos w)
  unfold crcBit
  simp only
  split
  · exact hmod
  · exact Nat.xor_lt_two_pow hmod hp

theorem crcByte_lt {w poly c : Nat} (hp : poly < 2 ^ w) (hc : c < 2 ^ w) (b : Nat) : crcByte w poly c b < 2 ^ w :=
  List.foldlRecOn (motive := (· < 2 ^ w)) _ _ hc fun _ _ _ _ => crcBit_lt hp _ _

theorem crcGalley_lt (bs : List Byte) : crcGalley bs < 2 ^ 16 :=
  List.foldlRecOn (motive := (· < 2 ^ 16)) bs _ (by decide) fun _ hc b _ => crcByte_lt (by decide) hc b.toNat

theorem beBytes_two (x : Nat) : beBytes 2 x = [BitVec.ofNat 8 (x / 256), BitVec.ofNat 8 x] := rfl

/-- R639: the check sum of a frame made of bytes and a check sum. -/
theorem beAt_beBytes (b : List Byte) (x : Nat) : beAt (b ++ beBytes 2 x) b.length 2 = x % 2 ^ 16 := by
  have hslice : sliceB (b ++ beBytes 2 x) b.length 2 = beBytes 2 x := by
    rw [sliceB, List.drop_left]
    rfl
  rw [beAt, hslice, beBytes_two]
  simp only [beNat, List.foldl_cons, List.foldl_nil, BitVec.toNat_ofNat]
  omega

/-- R639: bytes and a check sum are a good frame when LEN names their number and the check sum is theirs. -/
theorem galGood_append (b : List Byte) (x : Nat) :
    galGood (b ++ beBytes 2 x) = (decide (6 ≤ b.length) && b.length == 6 + byteAt (b ++ beBytes 2 x) 5 && decide (byteAt (b ++ beBytes 2 x) 5 ≤ 96)
      && x % 2 ^ 16 == crcGalley b) := by
  have hlen : (b ++ beBytes 2 x).length = b.length + 2 := by rw [List.length_append, beBytes_two]; rfl
  have hshort : decide (8 ≤ b.length + 2) = decide (6 ≤ b.length) := by simp
  have hnamed : (b.length + 2 == 8 + byteAt (b ++ beBytes 2 x) 5) = (b.length == 6 + byteAt (b ++ beBytes 2 x) 5) := by
    rw [Bool.eq_iff_iff, beq_iff_eq, beq_iff_eq]
    omega
  rw [galGood, hlen, Nat.add_sub_cancel, beAt_beBytes, List.take_left, hshort, hnamed]

/-! ## The copy that is forwarded (R640) -/

theorem patch_one (bs : List Byte) (o : Nat) (x : Byte) : patch bs o [x] = bs.set o x := by
  rw [List.set_eq_take_append_cons_drop]
  unfold patch
  split
  next h =>
    congr 1
    rw [List.take_of_length_le (by simp; omega)]
    rfl
  next h => simp [List.take_of_length_le (Nat.le_of_not_lt h), Nat.sub_eq_zero_of_le (Nat.le_of_not_lt h)]

/-- R640: the bytes of a forwarded frame before its check sum. -/
def galHopped (fr : List Byte) : List Byte := (fr.take (fr.length - 2)).set 4 (BitVec.ofNat 8 (byteAt fr 4 - 1))

/-- R640: the check sum of a forwarded frame: good, or wrong where the arriving one is. -/
def galHopCrc (fr : List Byte) : Nat := if galGood fr then crcGalley (galHopped fr) else 0xFFFF - crcGalley (galHopped fr)

section
variable {d : Dev} {fr : List Byte}

theorem galMine_false (hm : d.galMine fr = false) : (galDst fr == 0x3F) = false := by
  simp only [Dev.galMine, Bool.or_eq_false_iff] at hm
  exact hm.1

/-- R640: a frame that is not the part's is copied with its TTL one less and a new check sum. -/
theorem galCopy_eq (hm : d.galMine fr = false) : d.galCopy fr = galHopped fr ++ beBytes 2 (galHopCrc fr) := by
  have hdst : galDst fr ≠ 0x3F := by simpa using galMine_false hm
  simp only [Dev.galCopy, hdst, decide_false, Bool.and_false, Bool.false_eq_true, if_false]
  rw [show leBytes 1 (byteAt fr 4 - 1) = [BitVec.ofNat 8 (byteAt fr 4 - 1)] from rfl, patch_one]
  rfl

theorem galHopped_length : (galHopped fr).length = fr.length - 2 := by simp [galHopped]

/-- R640: the copy of a frame with a wrong check sum fails its own check. -/
theorem galGood_hopped_bad (hg : galGood fr = false) : galGood (galHopped fr ++ beBytes 2 (galHopCrc fr)) = false := by
  have hcrc : galHopCrc fr = 0xFFFF - crcGalley (galHopped fr) := if_neg (by simp [hg])
  have hwrong : galHopCrc fr % 2 ^ 16 ≠ crcGalley (galHopped fr) := by
    rw [hcrc]
    omega
  rw [galGood_append, beq_eq_false_iff_ne.mpr hwrong, Bool.and_false]

variable (hlen : 8 ≤ fr.length)
include hlen

theorem byteAt_hopped (x : Nat) {i : Nat} (hi : i + 2 < fr.length) :
    byteAt (galHopped fr ++ beBytes 2 x) i = if i = 4 then byteAt fr 4 - 1 else byteAt fr i := by
  have hbyte : byteAt fr 4 < 256 := (fr.getD 4 0#8).isLt
  have hin : i < (galHopped fr).length := by rw [galHopped_length]; omega
  rw [byteAt, List.getD_append _ _ _ _ hin, galHopped, List.getD_eq_getElem?_getD, List.getElem?_set]
  split
  next h =>
    rw [if_pos h.symm, if_pos (by simp; omega), Option.getD_some, BitVec.toNat_ofNat]
    omega
  next h =>
    rw [if_neg (Ne.symm h), List.getElem?_take_of_lt (by omega), byteAt, List.getD_eq_getElem?_getD]

/-- R640: a good frame's copy is good. -/
theorem galGood_hopped (hg : galGood fr = true) : galGood (galHopped fr ++ beBytes 2 (galHopCrc fr)) = true := by
  have hcrc : galHopCrc fr % 2 ^ 16 = crcGalley (galHopped fr) := by
    rw [galHopCrc, if_pos hg, Nat.mod_eq_of_lt (crcGalley_lt _)]
  simp only [galGood, Bool.and_eq_true, beq_iff_eq, decide_eq_true_eq] at hg
  obtain ⟨⟨⟨-, hnamed⟩, hmax⟩, -⟩ := hg
  rw [galGood_append, byteAt_hopped hlen _ (by omega), galHopped_length, hcrc, if_neg (by decide)]
  simp only [Bool.and_eq_true, beq_iff_eq, decide_eq_true_eq, and_true]
  omega

end

/-! ## A frame that arrives -/

section
variable {d : Dev} {down : Bool} {fr : List Byte}

theorem galMine_galSig (v : Nat) : (d.galSig down v).galMine fr = d.galMine fr := by
  rw [Dev.galMine, Dev.galSig, Dev.put_gal, Dev.galMine]

/-- R640: a frame that is not the part's is forwarded, and counted when its check sum is wrong. -/
theorem galFrame_forward (hc : d.glb.mode ≠ .cold) (hm : d.galMine fr = false) : d.galFrame down fr =
    if galGood fr then (d.galSig down 1).galForward down fr else ((d.galSig down 1).galForward down fr).bump R.GAL_CRC_ERR [] "COUNT" 1 := by
  simp only [Dev.galFrame, if_neg hc, hm, Bool.false_and, Bool.false_eq_true, if_false]
  cases galGood fr <;> rfl

/-- R641: a command addressed to the part is forwarded when it is broadcast, and acted on. -/
theorem galFrame_act (hc : d.glb.mode ≠ .cold) (hr : hasBit (byteAt fr 2) 7 = false) (hg : galGood fr = true) (hm : d.galMine fr = true) :
    d.galFrame down fr = ((d.galSig down 1).galForward down fr).galAct down fr := by
  simp only [Dev.galFrame, if_neg hc, hm, hg, hr, Bool.not_true, Bool.not_false, Bool.and_true, Bool.false_eq_true, if_false, if_true]

/-- R640: a frame that is not the part's goes out of the other port, or is dropped at the end of its TTL. -/
theorem galForward_eq (hm : d.galMine fr = false) : d.galForward down fr =
    if byteAt fr 4 = 0 then d.bump R.GAL_TTL_DROP [] "COUNT" 1 else d.galOut (!down) (galHopped fr ++ beBytes 2 (galHopCrc fr)) := by
  simp only [Dev.galForward, hm, Bool.and_false, Bool.false_eq_true, if_false, galCopy_eq hm]

end

/-! ## The commands run -/

/-- R649: the word that sets LOCK and leaves EN. -/
theorem credLock_takes {d : Dev} {p : Path} (ht : d.takes p R.GAL_CRED_CTL [] (2 + d.get R.GAL_CRED_CTL [] "EN") = true) :
    d.credLock p = d.fieldsWrite R.GAL_CRED_CTL [] (2 + d.get R.GAL_CRED_CTL [] "EN") := by
  have hen : d.get R.GAL_CRED_CTL [] "EN" < 2 := bitsOf_lt _ 0 0
  exact hostWrite_fields ht placed_GAL_CRED_CTL rfl rfl (by omega) rfl rfl

/-- Settles O27: a frame is forwarded or acted on as its address says, and the part's own frames go out. -/
theorem galleyFramesComplete : Obligations.GalleyFramesComplete := by
  intro s p down fr a l hc
  refine ⟨fun hg hm => ?forward, fun x hx hcmd hr hg hm => ?act, ?loss, ?attach, fun _ => ?alert, fun ht => ?lock⟩
  case forward => rw [exec_galleyFrameForward, execGalleyFrameForward, within_pos rfl, galFrame_forward hc hm, if_pos hg]
  case act =>
    have hown : ∀ n, galCmd fr = n → within (galCmd fr == n) s (fun d => d.galFrame down fr) =
        .next { s with dev := ((s.dev.galSig down 1).galForward down fr).galAct down fr } := fun n hn => by
      rw [within_pos (beq_iff_eq.mpr hn), galFrame_act hc hr hg hm]
    simp only [List.mem_cons, List.not_mem_nil, or_false] at hx
    rcases hx with rfl | rfl | rfl | rfl | rfl | rfl | rfl | rfl
    · rw [exec_galleyEnum, execGalleyEnum, hown _ hcmd]
    · rw [exec_galleyIdent, execGalleyIdent, hown _ hcmd]
    · rw [exec_galleyStatus, execGalleyStatus, hown _ hcmd]
    · rw [exec_galleyRd, execGalleyRd, hown _ hcmd]
    · rw [exec_galleyWr, execGalleyWr, hown _ hcmd]
    · rw [exec_galleyReset, execGalleyReset, hown _ hcmd]
    · rw [exec_galleyTime, execGalleyTime, hown _ hcmd]
    · rw [exec_galleyErrlog, execGalleyErrlog, hown _ hcmd]
  case loss => rw [exec_galleyLossOfSignal, execGalleyLossOfSignal, within_pos rfl]
  case attach => rw [exec_galleyAttach, execGalleyAttach, within_pos rfl]
  case alert => rw [exec_galleyAlertSend, execGalleyAlertSend, within_pos rfl]
  case lock => rw [exec_galleyCredLock, execGalleyCredLock, within_pos rfl, credLock_takes ht]

/-! ## Counts and frames sent -/

section
variable {d : Dev} {down : Bool} {fr : List Byte}

theorem galCounters_clear : R.GAL_STAT.clear R.GAL_TTL_DROP = true ∧ R.GAL_STAT.clear R.GAL_CRC_ERR = true ∧ R.GAL_CRC_ERR.clear R.GAL_TTL_DROP = true ∧
    R.GAL_TTL_DROP.clear R.GAL_CRC_ERR = true := by decide +kernel

theorem sent_bump (r : RegSpec) (f : String) (n : Nat) : (d.bump r [] f n).gal.sent = d.gal.sent := by
  rw [Dev.bump, Dev.put_gal]

/-- Counting a frame and a port's signal leave the fields of a register that shares no word with theirs. -/
theorem get_bump_other {r q : RegSpec} (h : r.clear q = true) (hr : ixOk r.dims [] = true) (hq : ixOk q.dims [] = true) (f g : String) (n : Nat) :
    (d.bump r [] f n).get q [] g = d.get q [] g := Dev.get_put_ne _ _ _ _ (apart_of_clear h hr hq)

theorem get_galSig {q : RegSpec} (h : R.GAL_STAT.clear q = true) (hq : ixOk q.dims [] = true) (g : String) (v : Nat) :
    (d.galSig down v).get q [] g = d.get q [] g := Dev.get_put_ne _ _ _ _ (apart_of_clear h rfl hq)

variable (hm : d.galMine fr = false)
include hm

/-- R640: the frames that the chain has taken from the part after a frame that is not the part's. -/
theorem sent_galFrame (hc : d.glb.mode ≠ .cold) : (d.galFrame down fr).gal.sent =
    if byteAt fr 4 = 0 then d.gal.sent else d.gal.sent ++ [(!down, galHopped fr ++ beBytes 2 (galHopCrc fr))] := by
  have hsig : (d.galSig down 1).gal.sent = d.gal.sent := by rw [Dev.galSig, Dev.put_gal]
  have hforward : ((d.galSig down 1).galForward down fr).gal.sent =
      if byteAt fr 4 = 0 then d.gal.sent else d.gal.sent ++ [(!down, galHopped fr ++ beBytes 2 (galHopCrc fr))] := by
    rw [galForward_eq ((galMine_galSig 1).trans hm), ← hsig]
    split
    · exact sent_bump _ _ _
    · rfl
  rw [galFrame_forward hc hm, ← hforward]
  split
  · rfl
  · exact sent_bump _ _ _

/-- R640: GAL_TTL_DROP counts a frame that arrives with TTL 0. -/
theorem ttlDrop_galFrame (hc : d.glb.mode ≠ .cold) (ht : byteAt fr 4 = 0) :
    (d.galFrame down fr).get R.GAL_TTL_DROP [] "COUNT" = (d.get R.GAL_TTL_DROP [] "COUNT" + 1) % 2 ^ 32 := by
  obtain ⟨hstat, -, hcrc, -⟩ := galCounters_clear
  have hforward : ((d.galSig down 1).galForward down fr).get R.GAL_TTL_DROP [] "COUNT" = (d.get R.GAL_TTL_DROP [] "COUNT" + 1) % 2 ^ 32 := by
    rw [galForward_eq ((galMine_galSig 1).trans hm), if_pos ht,
      Dev.get_bump_same (g := fl "COUNT" 31 0 .rc) _ _ _ rfl (by decide) (by decide), get_galSig hstat rfl]
    rfl
  rw [galFrame_forward hc hm, ← hforward]
  split
  · rfl
  · exact get_bump_other hcrc rfl rfl _ _ _

/-- R640: GAL_CRC_ERR counts a frame whose check sum is wrong. -/
theorem crcErr_galFrame (hc : d.glb.mode ≠ .cold) (hg : galGood fr = false) :
    (d.galFrame down fr).get R.GAL_CRC_ERR [] "COUNT" = (d.get R.GAL_CRC_ERR [] "COUNT" + 1) % 2 ^ 32 := by
  obtain ⟨-, hstat, -, httl⟩ := galCounters_clear
  have hforward : ((d.galSig down 1).galForward down fr).get R.GAL_CRC_ERR [] "COUNT" = d.get R.GAL_CRC_ERR [] "COUNT" := by
    rw [galForward_eq ((galMine_galSig 1).trans hm)]
    split
    · exact (get_bump_other httl rfl rfl _ _ _).trans (get_galSig hstat rfl _ _)
    · exact get_galSig (d := d) hstat rfl "COUNT" 1
  rw [galFrame_forward hc hm, if_neg (by simp [hg]), Dev.get_bump_same (g := fl "COUNT" 31 0 .rc) _ _ _ rfl (by decide) (by decide), hforward]
  rfl

end

/-- Settles O60: the copy of a frame that the part does not consume, and the counters of those it drops or finds wrong. -/
theorem aForwardedFrameCarriesTtlLessOne : Obligations.AForwardedFrameCarriesTtlLessOne := by
  intro s down fr hc hm hlen
  have hsent := sent_galFrame (down := down) hm hc
  refine ⟨{ s with dev := s.dev.galFrame down fr }, ?runs, fun hg ht => ⟨_, ?sent, galGood_hopped hlen hg, ?ttl, fun i hi hne => ?byte⟩, fun ht => ?dropped,
    ttlDrop_galFrame hm hc, fun hg ht => ⟨_, ?sentBad, galGood_hopped_bad hg⟩, crcErr_galFrame hm hc⟩
  case runs => rw [exec_galleyFrameForward, execGalleyFrameForward, within_pos rfl]
  case sent => rw [hsent, if_neg ht]
  case ttl => rw [byteAt_hopped hlen _ (by omega), if_pos rfl]
  case byte => rw [byteAt_hopped hlen _ hi, if_neg hne]
  case dropped => rw [hsent, if_pos ht]
  case sentBad => rw [hsent, if_neg ht]

end Sys2Proof.Machine
end

section
/-! SUPPORT. Error records, injections and quiescing (R594–R616), and the commands and reads of the trace (R671–R682). -/

namespace Sys2Proof.Machine

section
variable {d : Dev} {p : Path} {k : Nat}

/-! ## Words that set one field -/

theorem hasBit_eq (w i : Nat) : hasBit w i = (bitsOf w i i == 1) := by
  rw [hasBit, bitsOf_eq, Nat.add_sub_cancel_left, pow_one]

/-- R13: the word that sets a field of one bit has that bit set. -/
theorem hasBit_setWord {r : RegSpec} {f : String} {a : Acc} {i : Nat} (hf : r.field f = some (fl f i i a)) (ix : List Nat) :
    hasBit (d.setWord r ix f) i = true := by
  rw [hasBit_eq, Dev.setWord, hf]
  simp only [fl, bitsOf_setBits_same, Nat.add_sub_cancel_left, pow_one]
  rfl

/-! ## Error records (R605, R616) -/

/-- R605: an event of a source that can act is recorded by the source's operation. -/
theorem recordEvent_acts {ev : ErrEvent} {x : Dev} (h : d.eventOp ev = some x) : d.recordEvent ev = x := by
  simp only [Dev.recordEvent, h]

/-- R605, R616: any other is recorded, as injected when the armed injection is of its source. -/
theorem recordEvent_plain {ev : ErrEvent} (h : d.eventOp ev = none) : d.recordEvent ev =
    if d.injArmed ev.d ev.code ev.inst then (d.injPlanted ev.d).errEvent ev true else d.errEvent ev := by
  simp only [Dev.recordEvent, h]

/-! ## Registers written (R601, R616, R671, R676) -/

variable (hk : k < 2)
include hk

theorem hostWrite_inj {v : Word} (ht : d.takes p R.ERR_INJ [k] v.toNat = true) : d.hostWrite p (R.ERR_INJ.addr [k]) v = d.injWrite p k v.toNat :=
  hostWrite_word ht placed_ERR_INJ (ixOk_die hk) rfl

/-- R616: GO without CANCEL arms an injection. -/
theorem hostWrite_injGo {v : Word} (ht : d.takes p R.ERR_INJ [k] v.toNat = true) (hgo : hasBit v.toNat 31 = true) (hcancel : hasBit v.toNat 30 = false) :
    d.hostWrite p (R.ERR_INJ.addr [k]) v = d.injArm p k v.toNat := by
  simp only [hostWrite_inj hk ht, Dev.injWrite, hgo, hcancel, Bool.false_eq_true, if_false, if_true]

/-- R616: CANCEL withdraws one. -/
theorem hostSet_injCancel (ht : d.takes p R.ERR_INJ [k] (d.setWord R.ERR_INJ [k] "CANCEL") = true) :
    d.hostSet p R.ERR_INJ [k] "CANCEL" = (d.injFields k (d.setWord R.ERR_INJ [k] "CANCEL")).injCancel k := by
  have hcancel : hasBit (d.setWord R.ERR_INJ [k] "CANCEL") 30 = true := hasBit_setWord rfl _
  have hwrite : d.hostSet p R.ERR_INJ [k] "CANCEL" = d.injWrite p k (d.setWord R.ERR_INJ [k] "CANCEL") :=
    hostSet_takes ht placed_ERR_INJ (ixOk_die hk) rfl
  rw [hwrite, Dev.injWrite, if_pos hcancel]

theorem hostWrite_quiesce {v : Word} (ht : d.takes p R.ERR_QUIESCE [k] v.toNat = true) :
    d.hostWrite p (R.ERR_QUIESCE.addr [k]) v = d.fieldsWrite R.ERR_QUIESCE [k] v.toNat := by
  rw [hostWrite_word ht placed_ERR_QUIESCE (ixOk_die hk) rfl, performWrite_fields rfl rfl]

theorem hostWrite_trcCtl {v : Word} (ht : d.takes p R.TRC_CTL [k] v.toNat = true) : d.hostWrite p (R.TRC_CTL.addr [k]) v = d.trcCtl k v.toNat :=
  hostWrite_word ht placed_TRC_CTL (ixOk_die hk) rfl

theorem hostSet_trcClear (ht : d.takes p R.TRC_CTL [k] (d.setWord R.TRC_CTL [k] "CLR") = true) :
    d.hostSet p R.TRC_CTL [k] "CLR" = d.trcCtl k (d.setWord R.TRC_CTL [k] "CLR") :=
  hostSet_takes ht placed_TRC_CTL (ixOk_die hk) rfl

theorem hostWrite_trcMark {v : Word} (ht : d.takes p R.TRC_MARK [k] v.toNat = true) :
    d.hostWrite p (R.TRC_MARK.addr [k]) v = d.trace k 6 1 (leBytes 4 v.toNat) :=
  hostWrite_word ht placed_TRC_MARK (ixOk_die hk) rfl

theorem ixOk_trcData : ixOk R.TRC_RD_DATA.dims [k, 0] = true := by
  simp only [R.TRC_RD_DATA, ixOk, Bool.and_eq_true, Bool.and_true, decide_eq_true_eq]
  omega

/-- R682: a read of word 0 of TRC_RD_DATA latches a record. -/
theorem hostRead_trcData (hs : d.shows p R.TRC_RD_DATA [k, 0] = true) : d.hostRead p (R.TRC_RD_DATA.addr [k, 0]) = d.trcLatch p k := by
  rw [hostRead_shows hs placed_TRC_RD_DATA (ixOk_trcData hk) (Nat.le_add_right_of_le (by decide))]
  rfl

omit hk in
/-- R681: capture stops once no record after the trigger is due. -/
theorem trcStop_due (h : (d.trc.get k).post = some 0) :
    let x := (d.put R.TRC_STAT [k] "STOPPED" 1).put R.TRC_CTL [k] "EN" 0
    d.trcStop k = { x with trc := x.trc.upd k (fun t => { t with post := none }) } := by
  simp only [Dev.trcStop, Dev.trcSettle_stopping d k h, h, bne_self_eq_false, Bool.false_eq_true, if_false]

end

/-- Settles O23: each register takes its word or shows its read, and each event describes a die, engine or source of the part. -/
theorem errorAndTraceCommandsComplete : Obligations.ErrorAndTraceCommandsComplete := by
  intro s p d e v ev hd
  have hdie : below 2 d = true := (below_iff _ _).mpr hd
  refine ⟨fun x hev hop => ?acts, fun hev hop hinj => ?recorded, fun hev hop hinj => ?injected, fun ht hgo hcancel => ?arm, fun ht => ?cancel,
    fun ht => ?quiesce, fun ht => ?clear, fun ht => ?enable, fun ht => ?mark, fun hpost => ?stop, fun he => ?sample, fun hs => ?latch⟩
  case acts => rw [exec_errorRecord, execErrorRecord, within_pos hev, recordEvent_acts hop]
  case recorded => rw [exec_errorRecord, execErrorRecord, within_pos hev, recordEvent_plain hop, if_neg (by simp [hinj])]
  case injected => rw [exec_errorRecord, execErrorRecord, within_pos hev, recordEvent_plain hop, if_pos hinj]
  case arm => rw [exec_injectionArm, execInjectionArm, within_pos hdie, hostWrite_injGo hd ht hgo hcancel]
  case cancel => rw [exec_injectionCancel, execInjectionCancel, within_pos hdie, hostSet_injCancel hd ht]
  case quiesce => rw [exec_quiesceWrite, execQuiesceWrite, within_pos hdie, hostWrite_quiesce hd ht]
  case clear => rw [exec_traceClear, execTraceClear, within_pos hdie, hostSet_trcClear hd ht]
  case enable => rw [exec_traceEnable, execTraceEnable, within_pos hdie, hostWrite_trcCtl hd ht]
  case mark => rw [exec_traceMark, execTraceMark, within_pos hdie, hostWrite_trcMark hd ht]
  case stop => rw [exec_traceStopCountExpire, execTraceStopCountExpire, within_pos hdie, trcStop_due hpost]
  case sample => rw [exec_engPcSample, execEngPcSample, within_pos ((below_iff _ _).mpr he), Dev.pcSample]
  case latch => rw [exec_traceRecordLatch, execTraceRecordLatch, within_pos hdie, hostRead_trcData hd hs]

/-! ## Clearing the trace (R671) -/

section
variable {d : Dev} {k : Nat}

theorem trcRegs_clear : R.TRC_STAT.clear R.TRC_SEQ = true ∧ R.TRC_CTL.clear R.TRC_SEQ = true ∧ R.TRC_CTL.clear R.TRC_STAT = true := by decide +kernel

theorem trc_trcClear : (d.trcClear k).trc = d.trc.upd k (fun t => { t with buf := [], stored := 0, post := none }) := by
  simp only [Dev.trcClear, Dev.setW_trc, Dev.put_trc]

/-- R671: TRC_STAT reads 0 when the trace is cleared. -/
theorem stat_trcClear (f : String) : (d.trcClear k).get R.TRC_STAT [k] f = 0 := by
  have hword : (d.trcClear k).getW R.TRC_STAT [k] = 0 := Dev.getW_setW_same _ _ _ _
  simp only [Dev.get, hword]
  split
  · rw [bitsOf_eq, Nat.zero_div, Nat.zero_mod]
  · rfl

theorem seq_trcClear (hk : k < 2) : (d.trcClear k).get R.TRC_SEQ [k] "SEQ" = 0 := by
  have hapart := apart_of_clear trcRegs_clear.1 (ixOk_die hk) (ixOk_die hk)
  have hfield : ∀ x : Dev, (x.put R.TRC_SEQ [k] "SEQ" 0).get R.TRC_SEQ [k] "SEQ" = 0 := fun x =>
    Dev.get_put_same (g := fl "SEQ" 31 0 .ro) x _ _ rfl (by decide) (by decide)
  rw [← hfield, Dev.get, Dev.trcClear, Dev.getW_setW_ne _ _ hapart]
  rfl

/-- R671: the fields EN and MODE of a write of TRC_CTL. -/
def Dev.trcMode (d : Dev) (k v : Nat) : Dev := (d.put R.TRC_CTL [k] "EN" (bitsOf v 31 31)).put R.TRC_CTL [k] "MODE" (bitsOf v 30 30)

theorem trcMode_trc (v : Nat) : (d.trcMode k v).trc = d.trc := by rw [Dev.trcMode, Dev.put_trc, Dev.put_trc]

theorem get_trcMode {q : RegSpec} (hq : R.TRC_CTL.apart [k] q [k]) (v : Nat) (f : String) : (d.trcMode k v).get q [k] f = d.get q [k] f := by
  rw [Dev.trcMode, Dev.get_put_ne _ _ _ _ hq, Dev.get_put_ne _ _ _ _ hq]

/-- R681: capture set going. -/
def Dev.trcStart (d : Dev) (k : Nat) : Dev :=
  let x := d.put R.TRC_STAT [k] "STOPPED" 0
  { x with trc := x.trc.upd k (fun t => { t with post := if t.post = some 0 then none else t.post }) }

theorem trcStart_trc : (d.trcStart k).trc = d.trc.upd k (fun t => { t with post := if t.post = some 0 then none else t.post }) := by
  rw [Dev.trcStart, Dev.put_trc]

theorem get_trcStart (q : RegSpec) (f : String) : (d.trcStart k).get q [k] f = (d.put R.TRC_STAT [k] "STOPPED" 0).get q [k] f := by
  simp only [Dev.get, Dev.getW, Dev.trcStart]

/-- R671, R681: a write of TRC_CTL. -/
theorem trcCtl_eq (v : Nat) : d.trcCtl k v =
    if !hasBit v 31 then (if hasBit v 29 then (d.trcSettle k).trcClear k else d.trcSettle k).trcMode k v
    else ((if hasBit v 29 then (d.trcSettle k).trcClear k else d.trcSettle k).trcMode k v).trcStart k := rfl

/-- R671: what a write of TRC_CTL with CLR leaves of a register that it does not clear or set. -/
theorem trcCtl_clear {v : Nat} (hclr : hasBit v 29 = true) : d.trcCtl k v =
    if hasBit v 31 then (((d.trcSettle k).trcClear k).trcMode k v).trcStart k else ((d.trcSettle k).trcClear k).trcMode k v := by
  rw [trcCtl_eq, if_pos hclr]
  cases hasBit v 31
  · rw [if_pos Bool.not_false, if_neg Bool.false_ne_true]
  · rw [if_neg (by decide), if_pos rfl]

variable (hk : k < 2) {v : Nat} (hclr : hasBit v 29 = true)
include hk hclr

theorem seq_trcCtl : (d.trcCtl k v).get R.TRC_SEQ [k] "SEQ" = 0 := by
  obtain ⟨hstat, hctl, -⟩ := trcRegs_clear
  have hmode : (((d.trcSettle k).trcClear k).trcMode k v).get R.TRC_SEQ [k] "SEQ" = 0 := by
    rw [get_trcMode (apart_of_clear hctl (ixOk_die hk) (ixOk_die hk)), seq_trcClear hk]
  rw [trcCtl_clear hclr]
  split
  · rw [get_trcStart, Dev.get_put_ne _ _ _ _ (apart_of_clear hstat (ixOk_die hk) (ixOk_die hk)), hmode]
  · exact hmode

theorem wrapped_trcCtl : (d.trcCtl k v).get R.TRC_STAT [k] "WRAPPED" = 0 := by
  obtain ⟨-, -, hctl⟩ := trcRegs_clear
  have hmode : (((d.trcSettle k).trcClear k).trcMode k v).get R.TRC_STAT [k] "WRAPPED" = 0 := by
    rw [get_trcMode (apart_of_clear hctl (ixOk_die hk) (ixOk_die hk)), stat_trcClear]
  rw [trcCtl_clear hclr]
  split
  · rw [get_trcStart, Dev.get_put_field (g := fl "STOPPED" 30 30 .ro) (g' := fl "WRAPPED" 31 31 .ro) _ _ _ rfl rfl (by decide) (by decide) (by decide), hmode]
  · exact hmode

theorem stopped_trcCtl : (d.trcCtl k v).get R.TRC_STAT [k] "STOPPED" = 0 := by
  obtain ⟨-, -, hctl⟩ := trcRegs_clear
  rw [trcCtl_clear hclr]
  split
  · rw [get_trcStart, Dev.get_put_same (g := fl "STOPPED" 30 30 .ro) _ _ _ rfl (by decide) (by decide)]
    rfl
  · rw [get_trcMode (apart_of_clear hctl (ixOk_die hk) (ixOk_die hk)), stat_trcClear]

omit hk in
/-- R671: a trace cleared holds no record, and no other trace changes. -/
theorem trc_trcCtl : ((d.trcCtl k v).trc.get k).buf = [] ∧ ∀ j, (j = 0) ≠ (k = 0) → (d.trcCtl k v).trc.get j = d.trc.get j := by
  obtain ⟨m, hm⟩ := (Dev.trcSettle_frame d k).rest
  have hother : ∀ j, (j = 0) ≠ (k = 0) → (d.trcSettle k).trc.get j = d.trc.get j := fun j hj => by
    rw [hm]
    exact Two.get_set_ne _ _ hj
  have hupd : ∀ (t : Two TrcS) f, (t.upd k f).get k = f (t.get k) := fun t f => Two.get_set_same _ _ _
  have hkeep : ∀ (t : Two TrcS) f j, (j = 0) ≠ (k = 0) → (t.upd k f).get j = t.get j := fun t f j hj => Two.get_set_ne _ _ hj
  have hmode : (((d.trcSettle k).trcClear k).trcMode k v).trc = (d.trcSettle k).trc.upd k (fun t => { t with buf := [], stored := 0, post := none }) :=
    (trcMode_trc v).trans trc_trcClear
  rw [trcCtl_clear hclr]
  split
  · rw [trcStart_trc, hmode]
    refine ⟨by rw [hupd, hupd], fun j hj => ?_⟩
    rw [hkeep _ _ _ hj, hkeep _ _ _ hj, hother j hj]
  · rw [hmode]
    exact ⟨by rw [hupd], fun j hj => by rw [hkeep _ _ _ hj, hother j hj]⟩

end

/-- Settles O57: CLR empties the buffer and puts TRC_SEQ and TRC_STAT to 0, and EN and MODE stand in another register. -/
theorem traceClearEmptiesTheBuffer : Obligations.TraceClearEmptiesTheBuffer := by
  intro s p d hd ht
  have hclr : hasBit (s.dev.setWord R.TRC_CTL [d] "CLR") 29 = true := hasBit_setWord rfl _
  obtain ⟨hbuf, hother⟩ := trc_trcCtl (d := s.dev) hclr
  refine ⟨{ s with dev := s.dev.trcCtl d (s.dev.setWord R.TRC_CTL [d] "CLR") }, ?runs, seq_trcCtl hd hclr, ?wrapped, ?stopped, fun i => ?empty, ?other⟩
  case runs => rw [exec_traceClear, execTraceClear, within_pos ((below_iff _ _).mpr hd), hostSet_trcClear hd ht]
  case wrapped => rw [Dev.bit, wrapped_trcCtl hd hclr]; rfl
  case stopped => rw [Dev.bit, stopped_trcCtl hd hclr]; rfl
  case empty => rw [hbuf]; rfl
  case other => exact hother (1 - d) (by interval_cases d <;> simp)

/-! ## Reading the trace (R682) -/

section
variable {d : Dev} {k : Nat}

theorem idxRegs_clear : R.TRC_SEQ.clear R.TRC_RD_IDX = true ∧ R.TRC_STAT.clear R.TRC_RD_IDX = true := by decide +kernel

/-- R682: what the writer stores leaves both paths' indices. -/
theorem trcIdx_trcSettle (hk : k < 2) (p : Path) : (d.trcSettle k).trcIdx p k = d.trcIdx p k := by
  have hframe := Dev.trcSettle_frame d k
  cases p
  · obtain ⟨hseq, hstat⟩ := idxRegs_clear
    have hidx := hframe.regs R.TRC_RD_IDX [k] (apart_of_clear hseq (ixOk_die hk) (ixOk_die hk)) (apart_of_clear hstat (ixOk_die hk) (ixOk_die hk))
    simp only [Dev.trcIdx, Dev.get, hidx]
  · exact hframe.idxG

/-- The record that a read over a path latches. -/
def Dev.trcNext (d : Dev) (p : Path) (k : Nat) : List Byte :=
  SMap.get ((d.trcSettle k).trc.get k).buf (d.trcIdx p k) (List.replicate 32 0#8)

theorem trcLatch_pcie (hk : k < 2) : d.trcLatch .pcie k =
    (({ d.trcSettle k with trc := (d.trcSettle k).trc.upd k (fun t => { t with latP := d.trcNext .pcie k }) } : Dev).put R.TRC_RD_IDX [k] "INDEX"
      ((d.trcIdx .pcie k + 1) % trcSize)).ret .pcie (leAt (d.trcNext .pcie k) 0 4) := by
  rw [Dev.trcNext, ← trcIdx_trcSettle hk]
  rfl

theorem trcLatch_galley (hk : k < 2) : d.trcLatch .galley k =
    let x : Dev := { d.trcSettle k with trc := (d.trcSettle k).trc.upd k (fun t => { t with latG := d.trcNext .galley k }) }
    ({ x with trc := x.trc.upd k (fun t => { t with idxG := (d.trcIdx .galley k + 1) % trcSize % trcSize }) } : Dev).ret .galley
      (leAt (d.trcNext .galley k) 0 4) := by
  rw [Dev.trcNext, ← trcIdx_trcSettle hk]
  rfl

theorem get_trc (x : Dev) (m : Two TrcS) (r : RegSpec) (ix : List Nat) (f : String) : ({ x with trc := m } : Dev).get r ix f = x.get r ix f := rfl

theorem get_ret (x : Dev) (p : Path) (v : Nat) (r : RegSpec) (ix : List Nat) (f : String) : (x.ret p v).get r ix f = x.get r ix f := by
  simp only [Dev.get, Dev.getW_ret]

/-- R682: a trace after a read over PCIe. -/
theorem trc_trcLatch_pcie (hk : k < 2) : (d.trcLatch .pcie k).trc.get k = { (d.trcSettle k).trc.get k with latP := d.trcNext .pcie k } := by
  rw [trcLatch_pcie hk, Dev.ret_trc, Dev.put_trc]
  exact Two.get_set_same _ _ _

/-- R682: a trace after a read over the galley chain. -/
theorem trc_trcLatch_galley (hk : k < 2) : (d.trcLatch .galley k).trc.get k =
    { (d.trcSettle k).trc.get k with latG := d.trcNext .galley k, idxG := (d.trcIdx .galley k + 1) % trcSize } := by
  rw [trcLatch_galley hk, Dev.ret_trc, Nat.mod_mod]
  exact (Two.get_set_same _ _ _).trans (by rw [Two.upd, Two.get_set_same])

/-- R682: TRC_RD_IDX over PCIe after a read over PCIe, and after one over the galley chain. -/
theorem trcIdx_trcLatch (hk : k < 2) : (d.trcLatch .pcie k).trcIdx .pcie k = (d.trcIdx .pcie k + 1) % trcSize ∧
    (d.trcLatch .galley k).trcIdx .pcie k = d.trcIdx .pcie k := by
  refine ⟨?_, ?_⟩
  · rw [trcLatch_pcie hk, Dev.trcIdx, get_ret, Dev.get_put_same (g := fl "INDEX" 16 0 .rw) _ _ _ rfl (by decide) (by decide)]
    exact Nat.mod_mod _ _
  · have hregs : (d.trcLatch .galley k).get R.TRC_RD_IDX [k] "INDEX" = (d.trcSettle k).get R.TRC_RD_IDX [k] "INDEX" := by
      rw [trcLatch_galley hk, get_ret]
      exact (get_trc _ _ _ _ _).trans (get_trc _ _ _ _ _)
    exact hregs.trans (trcIdx_trcSettle hk .pcie)

end

/-- Settles O58: a read sets the latch and the index of its path, and the writer before it changes neither path's. -/
theorem aTraceReadAdvancesItsPathAlone : Obligations.ATraceReadAdvancesItsPathAlone := by
  intro s d hd
  obtain ⟨hidx, hstands⟩ := trcIdx_trcLatch (d := s.dev) hd
  have hframe := Dev.trcSettle_frame s.dev d
  have hrun : ∀ p, s.dev.shows p R.TRC_RD_DATA [d, 0] = true →
      exec (.traceRecordLatch p d) s = .next { s with dev := s.dev.trcLatch p d } := fun p hs => by
    rw [exec_traceRecordLatch, execTraceRecordLatch, within_pos ((below_iff _ _).mpr hd), hostRead_trcData hd hs]
  refine ⟨fun hs => ⟨_, hrun _ hs, ?latP, hidx, ?idxG, ?stands⟩, fun hs => ⟨_, hrun _ hs, ?latG, ?idx, hstands, ?buf, ?other⟩⟩
  case latP => rw [trc_trcLatch_pcie hd, Dev.trcNext]
  case idxG => exact (congrArg TrcS.idxG (trc_trcLatch_pcie hd)).trans hframe.idxG
  case stands => rw [trc_trcLatch_pcie hd, ← hframe.latP]
  case latG => rw [trc_trcLatch_galley hd, Dev.trcNext]
  case idx => exact congrArg TrcS.idxG (trc_trcLatch_galley hd)
  case buf => rw [trc_trcLatch_galley hd]
  case other => rw [trc_trcLatch_galley hd, ← hframe.latP]

end Sys2Proof.Machine
end

section
/-! SUPPORT. The commands of the security domain (R661–R670) and the alert pin (R699). -/

namespace Sys2Proof.Machine

section
variable {d : Dev} {p : Path} {arg : Nat}

/-! ## The words of SEC_OTP_CMD (R665) -/

theorem otpCmd_fields : R.SEC_OTP_CMD.field "OP" = some (fl "OP" 31 28 .wo) ∧ R.SEC_OTP_CMD.field "ARG" = some (fl "ARG" 7 0 .wo) := ⟨rfl, rfl⟩

section
variable {op : Nat} (hop : op < 16) (harg : arg < 256)
include hop harg

theorem pack_otpCmd : pack R.SEC_OTP_CMD [("OP", op), ("ARG", arg)] = op * 2 ^ 28 + arg := by
  obtain ⟨hfop, hfarg⟩ := otpCmd_fields
  rw [pack_two hfop hfarg]
  simp only [setBits_eq, Nat.reduceAdd, Nat.reduceSub, Nat.reducePow]
  omega

theorem fv_otpCmd : fv R.SEC_OTP_CMD "OP" (op * 2 ^ 28 + arg) = op ∧ fv R.SEC_OTP_CMD "ARG" (op * 2 ^ 28 + arg) = arg := by
  obtain ⟨hfop, hfarg⟩ := otpCmd_fields
  simp only [fv_of_field hfop, fv_of_field hfarg, bitsOf_eq]
  omega

/-- R665: a command of the one-time-programmable store that its register takes is the command of its word. -/
theorem hostOp_otpCmd (ht : d.takes p R.SEC_OTP_CMD [] (op * 2 ^ 28 + arg) = true) :
    d.hostOp p R.SEC_OTP_CMD [] [("OP", op), ("ARG", arg)] = d.otpWrite (op * 2 ^ 28 + arg) := by
  rw [Dev.hostOp_takes (pack_otpCmd hop harg) ht placed_SEC_OTP_CMD rfl rfl (by omega)]
  rfl

end

variable (harg : arg < 256)
include harg

theorem hostOp_raiseOsvn (ht : d.takes p R.SEC_OTP_CMD [] (2 * 2 ^ 28 + arg) = true) :
    d.hostOp p R.SEC_OTP_CMD [] [("OP", 2), ("ARG", arg)] = d.raiseOsvn arg := by
  obtain ⟨hop, hfarg⟩ := fv_otpCmd (op := 2) (by decide) harg
  rw [hostOp_otpCmd (by decide) harg ht]
  simp only [Dev.otpWrite, hop, hfarg]

theorem hostOp_raiseVsvn (ht : d.takes p R.SEC_OTP_CMD [] (3 * 2 ^ 28 + arg) = true) :
    d.hostOp p R.SEC_OTP_CMD [] [("OP", 3), ("ARG", arg)] = d.raiseVsvn arg := by
  obtain ⟨hop, hfarg⟩ := fv_otpCmd (op := 3) (by decide) harg
  rw [hostOp_otpCmd (by decide) harg ht]
  simp only [Dev.otpWrite, hop, hfarg]

/-- R665, R666: PROG_OROOT over PCIe where its register takes the word. -/
theorem progWrite_takes (ht : d.takes .pcie R.SEC_OTP_CMD [] (2 ^ 28 + arg) = true) (blob : Option (List Byte)) :
    d.progWrite .pcie arg blob = d.progOroot arg blob := by
  have hpack : pack R.SEC_OTP_CMD [("OP", 1), ("ARG", arg)] = 2 ^ 28 + arg := by rw [pack_otpCmd (by decide) harg, Nat.one_mul]
  have hshown := shows_accErr (takes_shows ht) placed_SEC_OTP_CMD rfl
  simp only [Dev.takes, Bool.and_eq_true, Bool.not_eq_true', beq_iff_eq] at ht
  obtain ⟨⟨⟨⟨⟨hs, -⟩, -⟩, -⟩, hrefused⟩, -⟩ := ht
  simp only [Dev.shows, Bool.and_eq_true, Bool.not_eq_true'] at hs
  obtain ⟨⟨⟨⟨hreach, hbehind⟩, -⟩, -⟩, -⟩ := hs
  simp only [Dev.progWrite, hpack, hreach, hbehind, hshown, hrefused, Option.isNone_none, Bool.not_false, Bool.and_self, beq_self_eq_true, if_true,
    Nat.mod_eq_of_lt harg]

end

/-! ## Raising a floor (R665) -/

section
variable {d : Dev} {arg : Nat}

theorem otpMode_iff (m : Mode) : otpMode m = true ↔ m = .enrol ∨ m = .load ∨ m = .run ∨ m = .drain := by cases m <;> decide

/-- R665: a floor command in a mode that does not run it. -/
theorem raise_mode (hm : otpMode d.glb.mode = false) : d.raiseOsvn arg = d.otpDone 1 ∧ d.raiseVsvn arg = d.otpDone 1 := by
  simp only [Dev.raiseOsvn, Dev.raiseVsvn, hm, Bool.not_false, if_true, and_self]

variable (hm : otpMode d.glb.mode = true)
include hm

/-- R665: RAISE_OSVN: a floor out of range, or raised. -/
theorem raiseOsvn_runs : d.raiseOsvn arg = if arg < d.sec.osvn ∨ 128 < arg ∨ d.get R.GLB_FORME_INFO [] "SVN" < arg then d.otpDone 5
    else ({ d with sec := { d.sec with osvn := arg } }.measure 8 1 0 arg []).otpDone 0 := by
  simp only [Dev.raiseOsvn, hm, Bool.not_true, Bool.false_eq_true, if_false, Bool.or_eq_true, decide_eq_true_eq, gt_iff_lt, or_assoc]

/-- R665: RAISE_VSVN: a floor out of range, or raised. -/
theorem raiseVsvn_runs : d.raiseVsvn arg = if arg < d.sec.vsvn ∨ 128 < arg ∨ ∃ v ∈ d.sec.vendorSvn, v < arg then d.otpDone 5
    else ({ d with sec := { d.sec with vsvn := arg } }.measure 8 0 0 arg []).otpDone 0 := by
  simp only [Dev.raiseVsvn, hm, Bool.not_true, Bool.false_eq_true, if_false, Bool.or_eq_true, decide_eq_true_eq, gt_iff_lt, or_assoc, List.any_eq_true]

end

/-- Settles O47: a refused floor command puts its CODE and does no more. -/
theorem aRefusedOtpCommandChangesNothing : Obligations.ARefusedOtpCommandChangesNothing := by
  intro s p arg harg ho hv ended
  have hosvn : exec (.raiseOsvn p arg) s = .next { s with dev := s.dev.raiseOsvn arg } := by
    rw [exec_raiseOsvn, execRaiseOsvn, within_pos ((below_iff _ _).mpr harg), hostOp_raiseOsvn harg ho]
  have hvsvn : exec (.raiseVsvn p arg) s = .next { s with dev := s.dev.raiseVsvn arg } := by
    rw [exec_raiseVsvn, execRaiseVsvn, within_pos ((below_iff _ _).mpr harg), hostOp_raiseVsvn harg hv]
  refine ⟨fun hmode => ?mode, fun hmode => ⟨fun hrange => ?osvn, fun hrange => ?vsvn⟩⟩
  case mode =>
    rw [← otpMode_iff, Bool.not_eq_true] at hmode
    obtain ⟨hdo, hdv⟩ := raise_mode (arg := arg) hmode
    exact ⟨by rw [hosvn, hdo]; rfl, by rw [hvsvn, hdv]; rfl⟩
  case osvn => rw [hosvn, raiseOsvn_runs ((otpMode_iff _).mpr hmode), if_pos hrange]; rfl
  case vsvn => rw [hvsvn, raiseVsvn_runs ((otpMode_iff _).mpr hmode), if_pos hrange]; rfl

/-! ## Attestation (R661–R664) and SEC_MREG (R670) -/

section
variable {d : Dev} {p : Path}

/-- R661: a GO of SEC_ATT_CMD. -/
theorem hostOp_attCmd (ht : d.takes p R.SEC_ATT_CMD [] 1 = true) : d.hostOp p R.SEC_ATT_CMD [] [("GO", 1)] = d.attStart p := by
  have hperform : d.performWrite p ⟨R.SEC_ATT_CMD, [], false⟩ 1 = if hasBit 1 0 then d.attStart p else d := rfl
  rw [Dev.hostOp_takes (v := 1) rfl ht placed_SEC_ATT_CMD rfl rfl (by decide), hperform, if_pos (show hasBit 1 0 = true from rfl)]

/-- R661: it takes the statement when the part attests, none is in progress and no monitor has tripped. -/
theorem attStart_takes (hbusy : d.bit R.SEC_ATT_STAT [] "BUSY" = false) (hatt : d.attests = true) (hmon : d.bit R.SEC_STAT [] "MON" = false) :
    d.attStart p = ({ d with sec := { d.sec with stmt := some d.statement } }.put R.SEC_ATT_STAT [] "BUSY" 1).put R.SEC_ATT_STAT [] "LOGN" d.sec.logn := by
  simp only [Dev.attStart, hbusy, hatt, hmon, Bool.not_true, Bool.false_eq_true, if_false]

/-- R663: the signed statement reaches host memory while DMA works. -/
theorem attComplete_signed {st : List Byte} (hst : d.sec.stmt = some st) (hdma : d.dmaUp = true) : d.attComplete true =
    (d.dma (d.get R.SEC_ATT_ADDR_LO [] "ADDR_LO" + d.get R.SEC_ATT_ADDR_HI [] "ADDR_HI" * 2 ^ 32)
      (st ++ sliceB (Config.slhSign d.sec.seed st (ascii "VT6400-ATTEST")) 0 49856)).attDone 0 := by
  simp only [Dev.attComplete, hst, hdma, Bool.not_true, Bool.or_self, Bool.false_eq_true, if_false]

/-- R670: a read of word 0 of SEC_MREG latches the others. -/
theorem hostRead_mreg (hs : d.shows p R.SEC_MREG [0] = true) : d.hostRead p (R.SEC_MREG.addr [0]) = d.mregRead p := by
  rw [hostRead_shows hs placed_SEC_MREG rfl (by decide)]
  rfl

end

/-- Settles O28: each command's register takes its word or shows its read, and the events name nothing that the part may lack. -/
theorem securityCommandsComplete : Obligations.SecurityCommandsComplete := by
  intro s p arg blob st bits harg
  have hargOk : below 256 arg = true := (below_iff _ _).mpr harg
  refine ⟨fun ht => ?prog, fun ht hmode hfloor hmax hsvn => ?osvn, fun ht hmode hfloor hmax hsvn => ?vsvn, fun ht hbusy hatt hmon => ?start,
    fun hst hdma => ?complete, ?monitor, fun hs => ?mreg, ?bypass, ?sample, fun hcold => ?drives, fun hcold => ?bypasses⟩
  case prog => rw [exec_progOroot, execProgOroot, within_pos hargOk, progWrite_takes harg ht]
  case osvn =>
    rw [exec_raiseOsvn, execRaiseOsvn, within_pos hargOk, hostOp_raiseOsvn harg ht, raiseOsvn_runs hmode, if_neg (by omega)]
  case vsvn =>
    have hvendor : ¬ ∃ v ∈ s.dev.sec.vendorSvn, v < arg := by simpa using hsvn
    have hrange : ¬ (arg < s.dev.sec.vsvn ∨ 128 < arg ∨ ∃ v ∈ s.dev.sec.vendorSvn, v < arg) := by
      rintro (hlow | hhigh | hover)
      · omega
      · omega
      · exact hvendor hover
    rw [exec_raiseVsvn, execRaiseVsvn, within_pos hargOk, hostOp_raiseVsvn harg ht, raiseVsvn_runs hmode, if_neg hrange]
  case start => rw [exec_attestationStart, execAttestationStart, within_pos rfl, hostOp_attCmd ht, attStart_takes hbusy hatt hmon]
  case complete => rw [exec_attestationComplete, execAttestationComplete, within_pos rfl, attComplete_signed hst hdma]
  case monitor => rw [exec_monitorTrip, execMonitorTrip, within_pos rfl]
  case mreg => rw [exec_mregLatchRead, execMregLatchRead, within_pos rfl, hostRead_mreg hs]
  case bypass => rw [exec_tapBypass, execTapBypass, within_pos rfl, Dev.tapBypass]
  case sample => rw [exec_tapSamplePreload, execTapSamplePreload, within_pos rfl, Dev.tapSample]
  case drives => rw [exec_tapExtest, execTapExtest, within_pos rfl, Dev.tapExtest, if_pos hcold]
  case bypasses => rw [exec_tapExtest, execTapExtest, within_pos rfl, Dev.tapExtest, if_neg hcold, Dev.tapBypass]

/-! ## The alert pin (R699) -/

section
variable {d : Dev}

/-- R699: a stack has OVERTEMP. -/
def Dev.stackWarm (d : Dev) : Prop := ∃ j < 6, d.bit R.MEM_STACK_STAT [j / 3, j % 3] "OVERTEMP" = true

/-- R511, R699: what the alert pin reads of the stacks. -/
theorem any_overtemp : (List.range 6).any (fun j => d.bit R.MEM_STACK_STAT [j / 3, j % 3] "OVERTEMP") = true ↔ d.stackWarm := by
  simp only [List.any_eq_true, List.mem_range, Dev.stackWarm]

/-- R699: the pin is driven low by a stack with OVERTEMP or a die at ALERT_C. -/
theorem alertPin_hot (h : d.stackWarm ∨ (d.get R.GLB_THERM_CFG [] "ALERT_C" : Int) ≤ d.glb.die0 ∨ (d.get R.GLB_THERM_CFG [] "ALERT_C" : Int) ≤ d.glb.die1) :
    d.alertPin = d.put R.GLB_THERM_STAT [] "ALERT" 1 := by
  refine if_pos ?_
  simpa only [Bool.or_eq_true, any_overtemp, decide_eq_true_eq, ge_iff_le, or_assoc] using h

/-- R699: otherwise it returns high where every die is 3 °C below, and stands where one is not. -/
theorem alertPin_cool (hcool : ¬ d.stackWarm) (h0 : d.glb.die0 < (d.get R.GLB_THERM_CFG [] "ALERT_C" : Int))
    (h1 : d.glb.die1 < (d.get R.GLB_THERM_CFG [] "ALERT_C" : Int)) : d.alertPin =
    if d.glb.die0 ≤ (d.get R.GLB_THERM_CFG [] "ALERT_C" : Int) - 3 ∧ d.glb.die1 ≤ (d.get R.GLB_THERM_CFG [] "ALERT_C" : Int) - 3 then
      d.put R.GLB_THERM_STAT [] "ALERT" 0
    else d := by
  have hnot : ¬ (d.stackWarm ∨ (d.get R.GLB_THERM_CFG [] "ALERT_C" : Int) ≤ d.glb.die0 ∨ (d.get R.GLB_THERM_CFG [] "ALERT_C" : Int) ≤ d.glb.die1) :=
    not_or.mpr ⟨hcool, by omega⟩
  refine (if_neg ?_).trans ?_
  · simpa only [Bool.or_eq_true, any_overtemp, decide_eq_true_eq, ge_iff_le, or_assoc] using hnot
  · simp only [Bool.and_eq_true, decide_eq_true_eq]

end

/-- Settles O45: the two tests of the pin exclude each other, as a reading of ALERT_C or more is not 3 °C below it. -/
theorem theAlertPinFollowsTheReadings : Obligations.TheAlertPinFollowsTheReadings := by
  intro s t0 t1 hlow0 hhigh0 hlow1 hhigh1 hmode d c warm
  refine ⟨{ s with dev := d.alertPin }, ?runs, fun hhot => alertPin_hot (d := d) hhot, fun hcool hdie0 hdie1 => ?high, fun hcool hdie0 hdie1 hnear => ?stands⟩
  case runs => rw [dieSensorSample_runs hlow0 (by omega) hlow1 (by omega), dieSample_alert hmode hhigh0 hhigh1, Dev.sampled]
  case high => exact (alertPin_cool (d := d) hcool (show t0 < c by omega) (show t1 < c by omega)).trans (if_pos ⟨hdie0, hdie1⟩)
  case stands => exact (alertPin_cool (d := d) hcool hdie0 hdie1).trans (if_neg (show ¬ (t0 ≤ c - 3 ∧ t1 ≤ c - 3) by omega))

end Sys2Proof.Machine
end

section
/-! SUPPORT. The one-time-programmable store (R650) and the operations of the part: every operation leaves it as it stands, but the commands of SEC_OTP_CMD and
what runs them. One lemma for each operation, in the order of the model; most follow from those of the operations that it is made of. -/

namespace Sys2Proof.Machine

/-! ## Records, alternatives and repetitions -/

section
variable {α β : Type}

@[simp] theorem fuses_mk (regs free glb sec tim hif gal err trc flw pk buf egr act eng tsk hbm mat) :
    (Dev.mk regs free glb sec tim hif gal err trc flw pk buf egr act eng tsk hbm mat).fuses = sec.fuses := (rfl)

@[simp] theorem SecS.fuses_mk (vroot oroot dsecret impChk vsvn osvn pk log logn mreg vendorSvn stmt mregP mregG tap tapBypass) :
    (SecS.mk vroot oroot dsecret impChk vsvn osvn pk log logn mreg vendorSvn stmt mregP mregG tap tapBypass).fuses =
      ⟨vroot, oroot, dsecret, impChk, vsvn, osvn⟩ := (rfl)

@[simp] theorem fuses_parts (d : Dev) : (⟨d.sec.vroot, d.sec.oroot, d.sec.dsecret, d.sec.impChk, d.sec.vsvn, d.sec.osvn⟩ : Fuses) = d.fuses := (rfl)

@[simp] theorem sec_fuses (d : Dev) : d.sec.fuses = d.fuses := (rfl)

@[simp] theorem fuses_ite (c : Prop) [Decidable c] (a b : Dev) : (if c then a else b).fuses = if c then a.fuses else b.fuses := apply_ite _ _ _ _

@[simp] theorem fst_ite (c : Prop) [Decidable c] (a b : α × β) : (if c then a else b).1 = if c then a.1 else b.1 := apply_ite _ _ _ _

@[simp] theorem foldl_fuses (f : Dev → α → Dev) (h : ∀ x a, (f x a).fuses = x.fuses) (l : List α) (d : Dev) : (l.foldl f d).fuses = d.fuses :=
  List.foldlRecOn (motive := fun x => x.fuses = d.fuses) l f rfl fun x hx a _ => (h x a).trans hx

@[simp] theorem foldl_fst_fuses (f : Dev × β → α → Dev × β) (h : ∀ x a, (f x a).1.fuses = x.1.fuses) (l : List α) (x : Dev × β) :
    (l.foldl f x).1.fuses = x.1.fuses :=
  List.foldlRecOn (motive := fun y => y.1.fuses = x.1.fuses) l f rfl fun y hy a _ => (h y a).trans hy

/-- The store in the part of a pair that is known. -/
theorem fuses_of_fst {p : Dev × β} {x : Dev} {y : β} (h : p = (x, y)) : x.fuses = p.1.fuses := by rw [h]

theorem fuses_of_snd {p : β × Dev} {x : Dev} {y : β} (h : p = (y, x)) : x.fuses = p.2.fuses := by rw [h]

theorem fuses_ite_of {c : Prop} [Decidable c] {a b : Dev} {s : Fuses} (ha : a.fuses = s) (hb : b.fuses = s) : (if c then a else b).fuses = s := by
  split
  · exact ha
  · exact hb

end

/-! ## The part's own updates (`Laws/State`) -/

section
variable (d : Dev)

@[simp] theorem Dev.setW_fuses (r : RegSpec) (ix : List Nat) (v : Nat) : (d.setW r ix v).fuses = d.fuses := congrArg SecS.fuses (Dev.setW_sec ..)
@[simp] theorem Dev.put_fuses (r : RegSpec) (ix : List Nat) (f : String) (v : Nat) : (d.put r ix f v).fuses = d.fuses := congrArg SecS.fuses (Dev.put_sec ..)
@[simp] theorem Dev.msix_fuses (k v : Nat) : (d.msix k v).fuses = d.fuses := congrArg SecS.fuses (Dev.msix_sec ..)
@[simp] theorem Dev.updEng_fuses (e : Nat) (f : Eng → Eng) : (d.updEng e f).fuses = d.fuses := congrArg SecS.fuses (Dev.updEng_sec ..)
@[simp] theorem Dev.updEgr_fuses (p : Nat) (f : Egr → Egr) : (d.updEgr p f).fuses = d.fuses := congrArg SecS.fuses (Dev.updEgr_sec ..)
@[simp] theorem Dev.updSlot_fuses (ra : Nat) (f : Slot → Slot) : (d.updSlot ra f).fuses = d.fuses := congrArg SecS.fuses (Dev.updSlot_sec ..)
@[simp] theorem Dev.setTslot_fuses (k s : Nat) (t : TSlot) : (d.setTslot k s t).fuses = d.fuses := congrArg SecS.fuses (Dev.setTslot_sec ..)
@[simp] theorem Dev.setPkt_fuses (n : Nat) (p : Pkt) : (d.setPkt n p).fuses = d.fuses := congrArg SecS.fuses (Dev.setPkt_sec ..)
@[simp] theorem Dev.galOut_fuses (down : Bool) (bs : List Byte) : (d.galOut down bs).fuses = d.fuses := congrArg SecS.fuses (Dev.galOut_sec ..)
@[simp] theorem Dev.dma_fuses (a : Nat) (bs : List Byte) : (d.dma a bs).fuses = d.fuses := congrArg SecS.fuses (Dev.dma_sec ..)
@[simp] theorem Dev.pin_fuses (k : Nat) (f : Pin → Pin) : (d.pin k f).fuses = d.fuses := congrArg SecS.fuses (Dev.pin_sec ..)
@[simp] theorem Dev.setUpc_fuses (e a : Nat) : (d.setUpc e a).fuses = d.fuses := congrArg SecS.fuses (Dev.setUpc_sec ..)
@[simp] theorem Dev.complete_fuses (e tok : Nat) (vals : List Nat) : (d.complete e tok vals).fuses = d.fuses := congrArg SecS.fuses (Dev.complete_sec ..)
@[simp] theorem Dev.fresh_fuses (n : Nat) : (d.fresh n).2.fuses = d.fuses := congrArg SecS.fuses (Dev.fresh_sec ..)
@[simp] theorem Dev.setLatch_fuses (p : Path) (l : Latch) : (d.setLatch p l).fuses = d.fuses := congrArg SecS.fuses (Dev.setLatch_sec ..)
@[simp] theorem Dev.ret_fuses (p : Path) (v : Nat) : (d.ret p v).fuses = d.fuses := congrArg SecS.fuses (Dev.ret_sec ..)
@[simp] theorem Dev.updPch_fuses (c u : Nat) (f : PchS → PchS) : (d.updPch c u f).fuses = d.fuses := congrArg SecS.fuses (Dev.updPch_sec ..)
@[simp] theorem Dev.setVoq_fuses (g v : Nat) (q : Voq) : (d.setVoq g v q).fuses = d.fuses := congrArg SecS.fuses (Dev.setVoq_sec ..)

end

/-! ## The operations every block shares -/

@[simp] theorem Dev.bump_fuses (d : Dev) (r : RegSpec) (ix : List Nat) (f : String) (n : Nat) : (d.bump r ix f n).fuses = d.fuses := by simp [Dev.bump]

@[simp] theorem Dev.bumpSat_fuses (d : Dev) (r : RegSpec) (ix : List Nat) (f : String) (n : Nat) : (d.bumpSat r ix f n).fuses = d.fuses := by
  unfold Dev.bumpSat
  split <;> simp

@[simp] theorem Dev.trcStore_fuses (d : Dev) (k : Nat) (x : TrcRec) : (d.trcStore k x).fuses = d.fuses := by simp [Dev.trcStore]

@[simp] theorem Dev.trcDrain_fuses (k n : Nat) (d : Dev) : (Dev.trcDrain k n d).fuses = d.fuses := by
  obtain ⟨m, hm⟩ := (Dev.trcDrain_frame k n d).rest
  rw [hm, fuses_mk, sec_fuses]

@[simp] theorem Dev.trcSettle_fuses (d : Dev) (k : Nat) : (d.trcSettle k).fuses = d.fuses := by simp [Dev.trcSettle]
@[simp] theorem Dev.trcArrive_fuses (d : Dev) (k : Nat) (x : TrcRec) : (d.trcArrive k x).fuses = d.fuses := by simp [Dev.trcArrive]
@[simp] theorem Dev.trace_fuses (d : Dev) (k src typ : Nat) (pay : List Byte) (sel : Bool) (code : Option Nat) :
    (d.trace k src typ pay sel code).fuses = d.fuses := by
  simp [Dev.trace]
@[simp] theorem Dev.putBytes_fuses (d : Dev) (r : RegSpec) (ix : List Nat) (bs : List Byte) (n : Nat) : (d.putBytes r ix bs n).fuses = d.fuses := by
  simp [Dev.putBytes]
@[simp] theorem Dev.errRing_fuses (d : Dev) (k : Nat) (rec_ : List Byte) : (d.errRing k rec_).fuses = d.fuses := by simp [Dev.errRing]
@[simp] theorem Dev.alert_fuses (d : Dev) (rec_ : List Byte) : (d.alert rec_).fuses = d.fuses := by simp [Dev.alert]
@[simp] theorem Dev.errWrite_fuses (d : Dev) (ev : ErrEvent) (inj : Bool) (r : Resp) : (d.errWrite ev inj r).fuses = d.fuses := by simp [Dev.errWrite]
@[simp] theorem Dev.errEvent_fuses (d : Dev) (ev : ErrEvent) (inj : Bool) (r : Resp) (hide : Bool) : (d.errEvent ev inj r hide).fuses = d.fuses := by
  simp [Dev.errEvent]
@[simp] theorem Dev.injPlanted_fuses (d : Dev) (k : Nat) : (d.injPlanted k).fuses = d.fuses := by simp [Dev.injPlanted]
@[simp] theorem Dev.hostAcc_fuses (d : Dev) (p : Path) (typ off data : Nat) (wr : Bool) : (d.hostAcc p typ off data wr).fuses = d.fuses := by simp [Dev.hostAcc]

/-! ## The time base -/

@[simp] theorem Dev.timAccept_fuses (d : Dev) (c : TimCmd) : (d.timAccept c).fuses = d.fuses := by simp [Dev.timAccept]
@[simp] theorem Dev.timEnd_fuses (d : Dev) (code : Nat) : (d.timEnd code).fuses = d.fuses := by simp [Dev.timEnd]
@[simp] theorem Dev.timCommand_fuses (d : Dev) (p : Path) (op : Nat) : (d.timCommand p op).fuses = d.fuses := by simp [Dev.timCommand]
@[simp] theorem Dev.timCancel_fuses (d : Dev) : d.timCancel.fuses = d.fuses := by simp [Dev.timCancel]

@[simp] theorem Dev.timArrive_fuses (d : Dev) : d.timArrive.fuses = d.fuses := by
  unfold Dev.timArrive
  split <;> simp

@[simp] theorem Dev.timForce_fuses (d : Dev) (c : TimCmd) : (d.timForce c).fuses = d.fuses := by simp [Dev.timForce]

@[simp] theorem Dev.timEpoch_fuses (d : Dev) : d.timEpoch.fuses = d.fuses := by
  unfold Dev.timEpoch
  split <;> simp

@[simp] theorem Dev.refLost_fuses (d : Dev) : d.refLost.fuses = d.fuses := by simp [Dev.refLost]
@[simp] theorem Dev.refRelock_fuses (d : Dev) : d.refRelock.fuses = d.fuses := by simp [Dev.refRelock]
@[simp] theorem Dev.pinAssert_fuses (d : Dev) (k : Nat) : (d.pinAssert k).fuses = d.fuses := by simp [Dev.pinAssert]
@[simp] theorem Dev.pps_fuses (d : Dev) (k : Nat) : (d.pps k).fuses = d.fuses := by simp [Dev.pps]
@[simp] theorem Dev.pulseEnd_fuses (d : Dev) (k : Nat) : (d.pulseEnd k).fuses = d.fuses := by simp [Dev.pulseEnd]
@[simp] theorem Dev.trigCapture_fuses (d : Dev) (k : Nat) : (d.trigCapture k).fuses = d.fuses := by simp [Dev.trigCapture]
@[simp] theorem Dev.nowRead_fuses (d : Dev) (p : Path) (k : Nat) : (d.nowRead p k).fuses = d.fuses := by simp [Dev.nowRead]
@[simp] theorem Dev.trigRead_fuses (d : Dev) (p : Path) (k : Nat) : (d.trigRead p k).fuses = d.fuses := by simp [Dev.trigRead]
@[simp] theorem Dev.stampDue_fuses (d : Dev) (g : Nat) (e : Due) : (d.stampDue g e).fuses = d.fuses := by simp [Dev.stampDue]

@[simp] theorem Dev.stampGone_fuses (d : Dev) (p : Nat) (stamp : Option Nat) : (d.stampGone p stamp).fuses = d.fuses := by
  unfold Dev.stampGone
  split <;> simp

@[simp] theorem Dev.stampEnter_fuses (d : Dev) (g raw : Nat) : (d.stampEnter g raw).fuses = d.fuses := by
  unfold Dev.stampEnter
  split <;> simp

@[simp] theorem Dev.stampPop_fuses (d : Dev) (p : Path) (g : Nat) : (d.stampPop p g).fuses = d.fuses := by
  unfold Dev.stampPop
  split <;> simp

/-! ## Flow records and the flow table -/

@[simp] theorem Dev.setSlot_fuses (d : Dev) (ra : Nat) (s : Slot) : (d.setSlot ra s).fuses = d.fuses := by simp [Dev.setSlot]
@[simp] theorem Dev.markInj_fuses (d : Dev) (k code a : Nat) : (d.markInj k code a).fuses = d.fuses := by simp [Dev.markInj]
@[simp] theorem Dev.unmarkInj_fuses (d : Dev) (k code a : Nat) : (d.unmarkInj k code a).fuses = d.fuses := by simp [Dev.unmarkInj]
@[simp] theorem Dev.slotWritten_fuses (d : Dev) (ra : Nat) : (d.slotWritten ra).fuses = d.fuses := by simp [Dev.slotWritten]
@[simp] theorem Dev.healTag_fuses (d : Dev) (ra : Nat) : (d.healTag ra).fuses = d.fuses := by simp [Dev.healTag]
@[simp] theorem Dev.tagWritten_fuses (d : Dev) (ra : Nat) : (d.tagWritten ra).fuses = d.fuses := by simp [Dev.tagWritten]
@[simp] theorem Dev.forget_fuses (d : Dev) (k ra typ : Nat) : (d.forget k ra typ).fuses = d.fuses := by simp [Dev.forget]
@[simp] theorem Dev.flwCheck_fuses (d : Dev) (h ra typ cls : Nat) : (d.flwCheck h ra typ cls).fuses = d.fuses := by simp [Dev.flwCheck]
@[simp] theorem Dev.tagUse_fuses (d : Dev) (ra : Nat) : (d.tagUse ra).1.fuses = d.fuses := by simp [Dev.tagUse]
@[simp] theorem Dev.bodyUse_fuses (d : Dev) (ra : Nat) : (d.bodyUse ra).1.fuses = d.fuses := by simp [Dev.bodyUse]

@[simp] theorem Dev.recUse_fuses (d : Dev) (ra : Nat) : (d.recUse ra).1.fuses = d.fuses := by
  unfold Dev.recUse
  split <;> simp [fuses_of_fst ‹_ = (_, _)›]

@[simp] theorem Dev.readCheck_fuses (d : Dev) (h : Nat) (x : Nat × Nat) : (d.readCheck h x).fuses = d.fuses := by simp [Dev.readCheck]
@[simp] theorem Dev.lookupFix_fuses (d : Dev) (key : List Byte) (h : Nat) (hint : Option (Nat × Nat)) : (d.lookupFix key h hint).fuses = d.fuses := by
  simp [Dev.lookupFix]
@[simp] theorem Dev.occupy_fuses (d : Dev) (ra : Nat) (h : Nat) (alt : Bool) (st : TagState) (r : Rec) : (d.occupy ra h alt st r).fuses = d.fuses := by
  simp [Dev.occupy]

@[simp] theorem Dev.eaPut_fuses (d : Dev) (k ea : Nat) (b : Byte) : (d.eaPut k ea b).fuses = d.fuses := by
  unfold Dev.eaPut
  split <;> simp

@[simp] theorem Dev.eaWrite_fuses (d : Dev) (k ea : Nat) (bs : List Byte) : (d.eaWrite k ea bs).fuses = d.fuses := by
  induction bs generalizing d ea with
  | nil => rfl
  | cons b bs ih => simp [Dev.eaWrite, ih]

@[simp] theorem Dev.lineEdge_fuses (d : Dev) (k n : Nat) : (d.lineEdge k n).fuses = d.fuses := by simp [Dev.lineEdge]
@[simp] theorem Dev.expEdges_fuses (d : Dev) (k q before : Nat) : (d.expEdges k q before).fuses = d.fuses := by simp [Dev.expEdges]

@[simp] theorem Dev.expItemOf_fuses (d : Dev) (k reason : Nat) (r : Rec) (bs : List Byte) : (d.expItemOf k reason r bs).fuses = d.fuses := by
  unfold Dev.expItemOf
  split <;> simp

@[simp] theorem Dev.expItem_fuses (d : Dev) (k reason : Nat) (r : Rec) : (d.expItem k reason r).fuses = d.fuses := by simp [Dev.expItem]

@[simp] theorem Dev.slotRaw_fuses (d : Dev) (ra : Nat) : (d.slotRaw ra).2.fuses = d.fuses := by
  unfold Dev.slotRaw
  split <;> simp

@[simp] theorem Dev.deleteRec_fuses (d : Dev) (ra reason : Nat) : (d.deleteRec ra reason).fuses = d.fuses := by simp [Dev.deleteRec]
@[simp] theorem Dev.auuIssue_fuses (d : Dev) (ra : Nat) (k : AuuKind) : (d.auuIssue ra k).fuses = d.fuses := by simp [Dev.auuIssue]
@[simp] theorem Dev.auuStore_fuses (d : Dev) (ra : Nat) (r : Rec) : (d.auuStore ra r).fuses = d.fuses := by simp [Dev.auuStore]

@[simp] theorem Dev.auuWb_fuses (d : Dev) (ra : Nat) (w : Wb) : (d.auuWb ra w).fuses = d.fuses := by
  unfold Dev.auuWb
  dsimp only
  split <;> simp [fuses_of_fst ‹_ = (_, _)›]

@[simp] theorem Dev.auuCset_fuses (d : Dev) (ra : Nat) : (d.auuCset ra).fuses = d.fuses := by simp [Dev.auuCset]
@[simp] theorem Dev.expStall_fuses (d : Dev) (k : Nat) : (d.expStall k).fuses = d.fuses := by simp [Dev.expStall]
@[simp] theorem Dev.auuCdel_fuses (d : Dev) (ra : Nat) : (d.auuCdel ra).fuses = d.fuses := by simp [Dev.auuCdel]
@[simp] theorem Dev.auuFlag_fuses (d : Dev) (ra bit : Nat) (v : Bool) : (d.auuFlag ra bit v).fuses = d.fuses := by simp [Dev.auuFlag]

/-! ## The match memories -/

@[simp] theorem Dev.markBad_fuses (d : Dev) (code a : Nat) : (d.markBad code a).fuses = d.fuses := by simp [Dev.markBad]
@[simp] theorem Dev.mend_fuses (d : Dev) (code first n : Nat) : (d.mend code first n).fuses = d.fuses := by simp [Dev.mend]
@[simp] theorem Dev.eccRead_fuses (d : Dev) (k code inst first n key : Nat) : (d.eccRead k code inst first n key).1.fuses = d.fuses := by simp [Dev.eccRead]
@[simp] theorem Dev.matRead_fuses (d : Dev) (g inst first n : Nat) : (d.matRead g inst first n).1.fuses = d.fuses := by simp [Dev.matRead]
@[simp] theorem Dev.matMend_fuses (d : Dev) (g inst first n : Nat) : (d.matMend g inst first n).fuses = d.fuses := by simp [Dev.matMend]
@[simp] theorem Dev.matEcc_fuses (d : Dev) (g inst addr : Nat) : (d.matEcc g inst addr).fuses = d.fuses := by simp [Dev.matEcc]
@[simp] theorem Dev.l2Read_fuses (d : Dev) (p : Nat) : (d.l2Read p).1.fuses = d.fuses := by simp [Dev.l2Read]
@[simp] theorem Dev.l2Set_fuses (d : Dev) (p : Nat) (e : L2Ent) : (d.l2Set p e).fuses = d.fuses := by simp [Dev.l2Set]
@[simp] theorem Dev.l2Put_fuses (d : Dev) (p : Nat) (e : L2Ent) : (d.l2Put p e).fuses = d.fuses := by simp [Dev.l2Put]
@[simp] theorem Dev.l2Del_fuses (d : Dev) (k p : Nat) : (d.l2Del k p).fuses = d.fuses := by simp [Dev.l2Del]
@[simp] theorem Dev.l2Event_fuses (d : Dev) (k typ mac fid dest old : Nat) (flap : Bool) : (d.l2Event k typ mac fid dest old flap).fuses = d.fuses := by
  simp [Dev.l2Event]
@[simp] theorem Dev.l2Ecc_fuses (d : Dev) (k p : Nat) : (d.l2Ecc k p).fuses = d.fuses := by simp [Dev.l2Ecc]

@[simp] theorem Dev.l2Search_fuses (d : Dev) (k mac fid : Nat) : (d.l2Search k mac fid).1.fuses = d.fuses := by
  refine foldl_fst_fuses _ (fun x p => ?_) _ _
  split <;> simp [fuses_of_fst ‹_ = (_, _)›]

@[simp] theorem Dev.l2Push_fuses (d : Dev) (g mac fid port : Nat) : (d.l2Push g mac fid port).fuses = d.fuses := by simp [Dev.l2Push]

@[simp] theorem Dev.l2Source_fuses (d : Dev) (g port : Nat) (x : L2Src) : (d.l2Source g port x).fuses = d.fuses := by
  simp only [Dev.l2Source]
  repeat' split
  all_goals simp

@[simp] theorem Dev.l2Stall_fuses (d : Dev) (k : Nat) : (d.l2Stall k).fuses = d.fuses := by simp [Dev.l2Stall]

@[simp] theorem Dev.l2Apply_fuses (d : Dev) (k mac fid p : Nat) : (d.l2Apply k mac fid p).1.fuses = d.fuses := by
  unfold Dev.l2Apply
  simp only
  split
  · split <;> simp
  · split
    next heq => simp [fuses_of_fst heq]
    next heq => split <;> simp [fuses_of_fst heq]

@[simp] theorem Dev.l2Learn_fuses (d : Dev) (k : Nat) : (d.l2Learn k).fuses = d.fuses := by
  unfold Dev.l2Learn
  split <;> simp

@[simp] theorem Dev.l2Sweep_fuses (d : Dev) (k i : Nat) : (d.l2Sweep k i).fuses = d.fuses := by
  simp only [Dev.l2Sweep]
  repeat' split
  all_goals simp

@[simp] theorem Dev.l2Done_fuses (d : Dev) (k code : Nat) : (d.l2Done k code).fuses = d.fuses := by simp [Dev.l2Done]

@[simp] theorem Dev.l2Lookup_fuses (d : Dev) (k : Nat) : (d.l2Lookup k).fuses = d.fuses := by
  simp only [Dev.l2Lookup]
  repeat' split
  all_goals simp

@[simp] theorem Dev.l2Insert_fuses (d : Dev) (k : Nat) : (d.l2Insert k).fuses = d.fuses := by
  simp only [Dev.l2Insert]
  repeat' split
  all_goals simp

@[simp] theorem Dev.l2Delete_fuses (d : Dev) (k : Nat) : (d.l2Delete k).fuses = d.fuses := by
  simp only [Dev.l2Delete]
  split <;> simp

@[simp] theorem l2FlushWalk_fuses (k : Nat) (f : L2Flush) (l : List (Nat × L2Ent)) (d : Dev) : (l2FlushWalk k f l d).1.fuses = d.fuses := by
  induction l generalizing d with
  | nil => rfl
  | cons x l ih => simp [l2FlushWalk, ih]

@[simp] theorem Dev.l2FlushRun_fuses (d : Dev) (k : Nat) (f : L2Flush) : (d.l2FlushRun k f).fuses = d.fuses := by
  unfold Dev.l2FlushRun
  split <;> simp [fuses_of_fst ‹_ = (_, _)›]

@[simp] theorem Dev.l2Flush_fuses (d : Dev) (k : Nat) (fidm : Bool) : (d.l2Flush k fidm).fuses = d.fuses := by simp [Dev.l2Flush]

@[simp] theorem Dev.l2Resume_fuses (d : Dev) (k : Nat) : (d.l2Resume k).fuses = d.fuses := by
  unfold Dev.l2Resume
  split <;> simp

@[simp] theorem ifSound_fuses (g inst first n : Nat) (x : Dev × Run) (f : Dev × Run → Dev × Run) (h : ∀ y, (f y).1.fuses = y.1.fuses) :
    (ifSound g inst first n x f).1.fuses = x.1.fuses := by
  unfold ifSound
  split
  next d heq => simp [h, fuses_of_fst heq]
  next d bad _ heq => simp [fuses_of_fst heq]

@[simp] theorem countHit_fuses (g side : Nat) (x : Dev × Run) : (countHit g side x).1.fuses = x.1.fuses := by simp [countHit]

@[simp] theorem runTable_fuses (g : Nat) (hv : List Byte) (h : Nat) (t : List Byte) (x : Dev × Run) : (runTable g hv h t x).1.fuses = x.1.fuses := by
  unfold runTable
  dsimp only
  split
  · rfl
  · split
    · split <;> simp
    · split
      · split <;> simp
      · split
        · split
          next heq => simp [fuses_of_fst heq]
          next heq =>
            split
            · split <;> simp [fuses_of_fst heq]
            · simp [fuses_of_fst heq]
        · split
          · rfl
          · refine (ifSound_fuses _ _ _ _ _ _ fun y => ifSound_fuses _ _ _ _ _ _ fun z => ?_)
            split <;> simp

@[simp] theorem runTables_fuses (g : Nat) (hv : List Byte) (h : Nat) (ts : List (List Byte)) (x : Dev × Run) :
    (runTables g hv h ts x).1.fuses = x.1.fuses := by simp [runTables]

@[simp] theorem Dev.applyDeltas_fuses (d : Dev) (g len : Nat) (is : List Nat) : (d.applyDeltas g len is).fuses = d.fuses := by simp [Dev.applyDeltas]

@[simp] theorem Dev.cntSnapshot_fuses (d : Dev) (g v : Nat) : (d.cntSnapshot g v).fuses = d.fuses := by
  simp only [Dev.cntSnapshot]
  repeat' split
  all_goals simp

@[simp] theorem Dev.stage_fuses (d : Dev) (r : RegSpec) (ix : List Nat) (n v : Nat) : (d.stage r ix n v).fuses = d.fuses := by simp [Dev.stage]

@[simp] theorem Dev.tcamCmd_fuses (d : Dev) (g prof i : Nat) (f : Dev → Dev) (h : ∀ x, (f x).fuses = x.fuses) : (d.tcamCmd g prof i f).fuses = d.fuses := by
  simp [Dev.tcamCmd, h]

@[simp] theorem Dev.tcamPut_fuses (d : Dev) (g prof i : Nat) (array shadow : TEnt) : (d.tcamPut g prof i array shadow).fuses = d.fuses := by simp [Dev.tcamPut]
@[simp] theorem Dev.tcamVerify_fuses (d : Dev) (g prof i : Nat) : (d.tcamVerify g prof i).fuses = d.fuses := by simp [Dev.tcamVerify]
@[simp] theorem Dev.tcamWrite_fuses (d : Dev) (g prof i : Nat) : (d.tcamWrite g prof i).fuses = d.fuses := by simp [Dev.tcamWrite]

@[simp] theorem Dev.tcamEnd_fuses (d : Dev) (g : Nat) : (d.tcamEnd g).fuses = d.fuses := by
  unfold Dev.tcamEnd
  split <;> simp

@[simp] theorem Dev.tcamInvalidate_fuses (d : Dev) (g prof i : Nat) : (d.tcamInvalidate g prof i).fuses = d.fuses := by simp [Dev.tcamInvalidate]
@[simp] theorem Dev.tcamShow_fuses (d : Dev) (g : Nat) (e : TEnt) : (d.tcamShow g e).fuses = d.fuses := by simp [Dev.tcamShow]
@[simp] theorem Dev.tcamRead_fuses (d : Dev) (g prof i : Nat) : (d.tcamRead g prof i).fuses = d.fuses := by simp [Dev.tcamRead]

@[simp] theorem Dev.tcamReadArray_fuses (d : Dev) (g prof i : Nat) : (d.tcamReadArray g prof i).fuses = d.fuses := by
  refine Dev.tcamCmd_fuses _ _ _ _ _ fun x => ?_
  simp only
  split <;> simp [fuses_of_fst ‹_ = (_, _)›]

@[simp] theorem Dev.tcamMism_fuses (d : Dev) (g b r key j : Nat) : (d.tcamMism g b r key j).fuses = d.fuses := by
  unfold Dev.tcamMism
  extract_lets k w again x y fix z m u e n
  have hu : u.fuses = d.fuses :=
    (fuses_mk ..).trans <| (sec_fuses _).trans <| (Dev.errEvent_fuses ..).trans <| (Dev.put_fuses ..).trans <| (Dev.put_fuses ..).trans <|
      (Dev.put_fuses ..).trans <| Dev.bump_fuses ..
  clear_value u
  exact fuses_ite_of ((Dev.mend_fuses ..).trans ((fuses_mk ..).trans hu)) hu

@[simp] theorem Dev.tcamScrub_fuses (d : Dev) (g b r : Nat) : (d.tcamScrub g b r).fuses = d.fuses := by
  unfold Dev.tcamScrub
  split <;> simp

@[simp] theorem Dev.exDone_fuses (d : Dev) (g code : Nat) : (d.exDone g code).fuses = d.fuses := by simp [Dev.exDone]

@[simp] theorem Dev.exCmd_fuses (d : Dev) (g id kind : Nat) (f : List Byte → Dev → Dev) (h : ∀ r x, (f r x).fuses = x.fuses) :
    (d.exCmd g id kind f).fuses = d.fuses := by
  unfold Dev.exCmd
  split <;> simp [h]

@[simp] theorem Dev.exRead_fuses (d : Dev) (g : Nat) (r : List Byte) (p : Nat) : (d.exRead g r p).1.fuses = d.fuses := by simp [Dev.exRead]
@[simp] theorem Dev.exStore_fuses (d : Dev) (g : Nat) (r : List Byte) (p : Nat) (e : Option XEnt) : (d.exStore g r p e).fuses = d.fuses := by simp [Dev.exStore]

@[simp] theorem Dev.exLookup_fuses (d : Dev) (g id : Nat) : (d.exLookup g id).fuses = d.fuses := by
  refine Dev.exCmd_fuses _ _ _ _ _ fun r x => ?_
  dsimp only
  split
  · simp
  · split
    · simp
    · split <;> simp

@[simp] theorem Dev.exInsert_fuses (d : Dev) (g id : Nat) : (d.exInsert g id).fuses = d.fuses := by
  refine Dev.exCmd_fuses _ _ _ _ _ fun r x => ?_
  dsimp only
  split
  · simp
  · split <;> simp

@[simp] theorem Dev.exDelete_fuses (d : Dev) (g id : Nat) : (d.exDelete g id).fuses = d.fuses := by
  refine Dev.exCmd_fuses _ _ _ _ _ fun r x => ?_
  split <;> simp

@[simp] theorem Dev.exReplace_fuses (d : Dev) (g id : Nat) : (d.exReplace g id).fuses = d.fuses := by
  refine Dev.exCmd_fuses _ _ _ _ _ fun r x => ?_
  split <;> simp

@[simp] theorem Dev.dirWrite_fuses (d : Dev) (g id i : Nat) : (d.dirWrite g id i).fuses = d.fuses := by simp [Dev.dirWrite]
@[simp] theorem Dev.dirRead_fuses (d : Dev) (g id i : Nat) : (d.dirRead g id i).fuses = d.fuses := by simp [Dev.dirRead]

/-! ## Flow actions -/

@[simp] theorem Dev.actDone_fuses (d : Dev) (k code : Nat) : (d.actDone k code).fuses = d.fuses := by simp [Dev.actDone]
@[simp] theorem Dev.actWrite_fuses (d : Dev) (k i : Nat) : (d.actWrite k i).fuses = d.fuses := by simp [Dev.actWrite]
@[simp] theorem Dev.actRead_fuses (d : Dev) (k i : Nat) : (d.actRead k i).fuses = d.fuses := by simp [Dev.actRead]

theorem Dev.xlatRefuses_fuses {e : List Byte} {p : Pkt} {d x : Dev} {k : Nat} (h : Dev.xlatRefuses e p d k = some x) : x.fuses = d.fuses := by
  unfold Dev.xlatRefuses at h
  split at h
  · simp at h
  · split_ifs at h
    · simp only [Option.some.injEq] at h
      simp [← h]
    · split at h
      · simp only [Option.some.injEq] at h
        simp [← h]
      · simp at h

@[simp] theorem Dev.tcpEval_fuses (d : Dev) (k : Nat) (e : List Byte) (r : Rec) (p : Pkt) : (d.tcpEval k e r p).1.fuses = d.fuses := by
  simp only [Dev.tcpEval]
  repeat' split
  all_goals simp

@[simp] theorem Dev.evaluate_fuses (d : Dev) (k : Nat) (r : Rec) (p : Pkt) (skip : Bool) : (d.evaluate k r p skip).1.fuses = d.fuses := by
  unfold Dev.evaluate
  dsimp only
  split
  · simp
  · split
    · rfl
    · split
      next heq => simp [fuses_of_fst heq]
      next y tcp heq =>
        split
        · simp [fuses_of_fst heq]
        · split
          next z hz => simp [Dev.xlatRefuses_fuses hz, fuses_of_fst heq]
          next => simp [fuses_of_fst heq]

@[simp] theorem Dev.steer_fuses (d : Dev) (k : Nat) (s : Snap) (fr : List Byte) : (d.steer k s fr).1.fuses = d.fuses := by simp [Dev.steer]
@[simp] theorem Dev.mirrorSample_fuses (d : Dev) (g n samp : Nat) : (d.mirrorSample g n samp).1.fuses = d.fuses := by simp [Dev.mirrorSample]

@[simp] theorem Dev.cpWrite_fuses (d : Dev) (k z w v : Nat) : (d.cpWrite k z w v).fuses = d.fuses := by
  simp only [Dev.cpWrite]
  repeat' split
  all_goals simp

@[simp] theorem Dev.balDone_fuses (d : Dev) (k code : Nat) : (d.balDone k code).fuses = d.fuses := by simp [Dev.balDone]
@[simp] theorem Dev.balGwrite_fuses (d : Dev) (k : Nat) : (d.balGwrite k).fuses = d.fuses := by simp [Dev.balGwrite]
@[simp] theorem Dev.balGread_fuses (d : Dev) (k : Nat) : (d.balGread k).fuses = d.fuses := by simp [Dev.balGread]
@[simp] theorem Dev.balMwrite_fuses (d : Dev) (k : Nat) : (d.balMwrite k).fuses = d.fuses := by simp [Dev.balMwrite]
@[simp] theorem Dev.balMread_fuses (d : Dev) (k : Nat) : (d.balMread k).fuses = d.fuses := by simp [Dev.balMread]
@[simp] theorem Dev.balLwrite_fuses (d : Dev) (k : Nat) : (d.balLwrite k).fuses = d.fuses := by simp [Dev.balLwrite]
@[simp] theorem Dev.balLread_fuses (d : Dev) (k : Nat) : (d.balLread k).fuses = d.fuses := by simp [Dev.balLread]

/-! ## Buffers, queues and the region fabric -/

@[simp] theorem Dev.macCnt_fuses (d : Dev) (p k n : Nat) : (d.macCnt p k n).fuses = d.fuses := by simp [Dev.macCnt]
@[simp] theorem Dev.txOut_fuses (d : Dev) (p : Nat) (b : List Byte) : (d.txOut p b).fuses = d.fuses := by simp [Dev.txOut]
@[simp] theorem Dev.rxPath_fuses (d : Dev) (p : Nat) (fr : List Byte) : (d.rxPath p fr).1.fuses = d.fuses := by simp [Dev.rxPath]
@[simp] theorem Dev.sendCtl_fuses (d : Dev) (p cnt : Nat) (body : List Byte) : (d.sendCtl p cnt body).fuses = d.fuses := by simp [Dev.sendCtl]

@[simp] theorem Dev.sendPfc_fuses (d : Dev) (p c q : Nat) : (d.sendPfc p c q).fuses = d.fuses := by
  simp only [Dev.sendPfc]
  repeat' split
  all_goals simp

@[simp] theorem Dev.pfcCheck_fuses (d : Dev) (pc : Nat) : (d.pfcCheck pc).fuses = d.fuses := by simp [Dev.pfcCheck]
@[simp] theorem Dev.pfcLook_fuses (d : Dev) (p : Nat) : (d.pfcLook p).fuses = d.fuses := by simp [Dev.pfcLook]

@[simp] theorem Dev.holdCells_fuses (d : Dev) (inp : Option Nat) (f : Nat → Nat) : (d.holdCells inp f).fuses = d.fuses := by
  unfold Dev.holdCells
  split <;> simp

@[simp] theorem Dev.setCell_fuses (d : Dev) (key : Nat) (m : Cell) : (d.setCell key m).fuses = d.fuses := by simp [Dev.setCell]
@[simp] theorem Dev.useAdd_fuses (d : Dev) (r : RegSpec) (ix : List Nat) (n : Nat) : (d.useAdd r ix n).fuses = d.fuses := by simp [Dev.useAdd]
@[simp] theorem Dev.useSub_fuses (d : Dev) (r : RegSpec) (ix : List Nat) (n : Nat) : (d.useSub r ix n).fuses = d.fuses := by simp [Dev.useSub]

@[simp] theorem Dev.allocCell_fuses (d : Dev) (k agent part : Nat) (inp : Option Nat) : (d.allocCell k agent part inp).1.fuses = d.fuses := by
  unfold Dev.allocCell
  split <;> simp

@[simp] theorem Dev.freeCell_fuses (d : Dev) (key : Nat) : (d.freeCell key).fuses = d.fuses := by
  unfold Dev.freeCell
  split <;> simp

@[simp] theorem Dev.allocCells_fuses (k agent part : Nat) (inp : Option Nat) (check : Bool) (n : Nat) (acc : List Nat) (d : Dev) :
    (Dev.allocCells k agent part inp check n acc d).1.fuses = d.fuses := by
  induction n generalizing acc d with
  | zero => rfl
  | succ n ih =>
    unfold Dev.allocCells
    split
    · simp
    · split
      next x heq => simp [fuses_of_fst heq]
      next x c heq => simp [ih, fuses_of_fst heq]

@[simp] theorem Dev.linkCells_fuses (k fill : Nat) (l : List Nat) (first : Bool) (d : Dev) : (Dev.linkCells k fill l first d).fuses = d.fuses := by
  induction l generalizing first d with
  | nil => rfl
  | cons c l ih =>
    simp only [Dev.linkCells, ih]
    split <;> simp

@[simp] theorem Dev.refused_fuses (d : Dev) (k agent : Nat) (r : Refuse) : (d.refused k agent r).fuses = d.fuses := by
  unfold Dev.refused
  split <;> simp

@[simp] theorem Dev.spillCheck_fuses (d : Dev) (g v : Nat) : (d.spillCheck g v).fuses = d.fuses := by simp [Dev.spillCheck]
@[simp] theorem Dev.spillScan_fuses (d : Dev) (k : Nat) : (d.spillScan k).fuses = d.fuses := by simp [Dev.spillScan]

@[simp] theorem Dev.allocChain_fuses (d : Dev) (k agent part n fill : Nat) (inp : Option Nat) (check : Bool) :
    (d.allocChain k agent part n fill inp check).1.fuses = d.fuses := by
  unfold Dev.allocChain
  split <;> simp [fuses_of_fst ‹_ = (_, _)›]

@[simp] theorem Dev.allocFrame_fuses (d : Dev) (k agent part len : Nat) (inp : Option Nat) (check : Bool) :
    (d.allocFrame k agent part len inp check).1.fuses = d.fuses := by
  unfold Dev.allocFrame
  split <;> simp [fuses_of_fst ‹_ = (_, _)›]

@[simp] theorem Dev.arriveCell_fuses (d : Dev) (a : Arr) : (d.arriveCell a).1.fuses = d.fuses := by
  unfold Dev.arriveCell
  simp only
  split
  · simp
  · split
    next heq => simp [fuses_of_fst heq]
    next x c heq =>
      simp only [Dev.spillScan_fuses]
      rw [← Dev.allocCell_fuses d, ← fuses_of_fst heq]
      split <;> split <;> simp

@[simp] theorem Dev.doubleFree_fuses (d : Dev) (key tag : Nat) (inj : Bool) : (d.doubleFree key tag inj).fuses = d.fuses := by simp [Dev.doubleFree]
@[simp] theorem Dev.nonOwner_fuses (d : Dev) (key agent tag : Nat) (inj : Bool) : (d.nonOwner key agent tag inj).fuses = d.fuses := by simp [Dev.nonOwner]

@[simp] theorem Dev.metaRead_fuses (d : Dev) (key tag port : Nat) : (d.metaRead key tag port).fuses = d.fuses := by
  simp only [Dev.metaRead]
  split <;> simp

@[simp] theorem Dev.freeChain_fuses (tag n key : Nat) (d : Dev) : (Dev.freeChain tag n key d).fuses = d.fuses := by
  induction n generalizing key d with
  | zero => rfl
  | succ n ih =>
    simp only [Dev.freeChain]
    split <;> simp [ih]

@[simp] theorem Dev.releaseRef_fuses (d : Dev) (key tag : Nat) : (d.releaseRef key tag).fuses = d.fuses := by
  simp only [Dev.releaseRef]
  split <;> simp

theorem Dev.addRef_fuses {d x : Dev} {key : Nat} (h : d.addRef key = some x) : x.fuses = d.fuses := by
  unfold Dev.addRef at h
  split at h
  · split_ifs at h
    simp only [Option.some.injEq] at h
    simp [← h]
  · simp at h

@[simp] theorem Dev.entEnd_fuses (d : Dev) (e : QEnt) : (d.entEnd e).fuses = d.fuses := by
  unfold Dev.entEnd
  split <;> simp

@[simp] theorem Dev.discardEnt_fuses (d : Dev) (p : Nat) (e : QEnt) : (d.discardEnt p e).fuses = d.fuses := by simp [Dev.discardEnt]
@[simp] theorem Dev.spillLeave_fuses (d : Dev) (g v : Nat) : (d.spillLeave g v).fuses = d.fuses := by simp [Dev.spillLeave]
@[simp] theorem Dev.voqMoved_fuses (d : Dev) (g v : Nat) : (d.voqMoved g v).fuses = d.fuses := by simp [Dev.voqMoved]
@[simp] theorem Dev.dropMid_fuses (d : Dev) (g v : Nat) : (d.dropMid g v).fuses = d.fuses := by simp [Dev.dropMid]
@[simp] theorem Dev.xferGone_fuses (d : Dev) (g v : Nat) : (d.xferGone g v).fuses = d.fuses := by simp [Dev.xferGone]

theorem Dev.enq_fuses {d x : Dev} {g v : Nat} {e : QEnt} (h : d.enq g v e = some x) : x.fuses = d.fuses := by
  cases hy : d.addRef e.head with
  | none => simp [Dev.enq, hy] at h
  | some y =>
    simp only [Dev.enq, hy, Option.ite_none_left_eq_some, Option.some.injEq] at h
    obtain ⟨-, rfl⟩ := h
    rw [← Dev.addRef_fuses hy, Dev.spillScan_fuses, Dev.setVoq_fuses]
    split <;> simp

@[simp] theorem Dev.voidEnt_fuses (d : Dev) (g v pkt : Nat) : (d.voidEnt g v pkt).fuses = d.fuses := by simp [Dev.voidEnt]
@[simp] theorem Dev.commitEnt_fuses (d : Dev) (g v pkt : Nat) (f : QEnt → QEnt) : (d.commitEnt g v pkt f).fuses = d.fuses := by simp [Dev.commitEnt]
@[simp] theorem Dev.voqPop_fuses (d : Dev) (g v : Nat) : (d.voqPop g v).fuses = d.fuses := by simp [Dev.voqPop]
@[simp] theorem Dev.voqTake_fuses (d : Dev) (g v : Nat) (f : QEnt → Bool) : (d.voqTake g v f).1.fuses = d.fuses := by simp [Dev.voqTake]
@[simp] theorem Dev.voqFlush_fuses (d : Dev) (g v : Nat) : (d.voqFlush g v).1.fuses = d.fuses := by simp [Dev.voqFlush]
@[simp] theorem Dev.setEq_fuses (d : Dev) (q : Nat) (l : List QEnt) : (d.setEq q l).fuses = d.fuses := by simp [Dev.setEq]
@[simp] theorem Dev.setXfer_fuses (d : Dev) (key : Nat) (x : Xfer) : (d.setXfer key x).fuses = d.fuses := by simp [Dev.setXfer]

@[simp] theorem Dev.sendCell_fuses (d : Dev) (g j it : Nat) : (d.sendCell g j it).fuses = d.fuses := by
  simp only [Dev.sendCell]
  repeat' split
  all_goals simp

@[simp] theorem Dev.slotNative_fuses (d : Dev) : d.slotNative.fuses = d.fuses := by simp [Dev.slotNative]

@[simp] theorem Dev.compatSend_fuses (d : Dev) (g m : Nat) : (d.compatSend g m).fuses = d.fuses := by
  unfold Dev.compatSend
  split <;> simp

@[simp] theorem Dev.compatRecv_fuses (d : Dev) (m j : Nat) : (d.compatRecv m j).fuses = d.fuses := by
  simp only [Dev.compatRecv]
  repeat' split
  all_goals simp

@[simp] theorem Dev.slotCompat_fuses (d : Dev) : d.slotCompat.fuses = d.fuses := by simp [Dev.slotCompat]
@[simp] theorem Dev.fabricSlot_fuses (d : Dev) : d.fabricSlot.fuses = d.fuses := by simp [Dev.fabricSlot]
@[simp] theorem Dev.dataRead_fuses (d : Dev) (e : QEnt) (err : Bool) (port : Nat) : (d.dataRead e err port).1.fuses = d.fuses := by simp [Dev.dataRead]
@[simp] theorem Dev.takePage_fuses (d : Dev) (k j : Nat) : (d.takePage k j).2.fuses = d.fuses := by simp [Dev.takePage]

@[simp] theorem Dev.spillWrite_fuses (d : Dev) (g v : Nat) (err : Bool) : (d.spillWrite g v err).fuses = d.fuses := by
  simp only [Dev.spillWrite]
  repeat' split
  all_goals simp

@[simp] theorem Dev.prefetched_fuses (d : Dev) (k : Nat) : (d.prefetched k).fuses = d.fuses := by simp [Dev.prefetched]

@[simp] theorem Dev.wadiRefill_fuses (d : Dev) (g v : Nat) : (d.wadiRefill g v).fuses = d.fuses := by
  simp only [Dev.wadiRefill]
  repeat' split
  all_goals simp

@[simp] theorem Dev.pieceFail_fuses (d : Dev) (k : Nat) (p : Piece) : (d.pieceFail k p).1.fuses = d.fuses := by simp [Dev.pieceFail]

@[simp] theorem Dev.wadiPiece_fuses (d : Dev) (g v : Nat) (fail : Bool) (p : Piece) : (d.wadiPiece g v fail p).fuses = d.fuses := by
  have hfail : (if fail then d.pieceFail (g / 2) p else (d, p)).1.fuses = d.fuses := by simp
  unfold Dev.wadiPiece
  dsimp only
  generalize (if fail then d.pieceFail (g / 2) p else (d, p)) = y at hfail
  split
  · simp [hfail]
  · split
    · simp [hfail]
    · split <;> simp [fuses_of_fst ‹_ = (_, _)›, hfail]

@[simp] theorem Dev.wadiReturn_fuses (d : Dev) (g v : Nat) (fail : Bool) : (d.wadiReturn g v fail).fuses = d.fuses := by
  simp only [Dev.wadiReturn]
  split <;> simp

/-! ## Egress scheduling and time-sensitive traffic -/

@[simp] theorem Dev.accruePort_fuses (d : Dev) (p : Nat) : (d.accruePort p).fuses = d.fuses := by simp [Dev.accruePort]
@[simp] theorem Dev.accrueQ_fuses (d : Dev) (p c : Nat) : (d.accrueQ p c).fuses = d.fuses := by simp [Dev.accrueQ]
@[simp] theorem Dev.accrueAll_fuses (d : Dev) (p : Nat) : (d.accrueAll p).fuses = d.fuses := by simp [Dev.accrueAll]
@[simp] theorem Dev.charge_fuses (d : Dev) (p c : Nat) (len : Int) : (d.charge p c len).fuses = d.fuses := by simp [Dev.charge]

@[simp] theorem Dev.countHeld_fuses (d : Dev) (p c : Nat) : (d.countHeld p c).fuses = d.fuses := by
  unfold Dev.countHeld
  split <;> simp

@[simp] theorem Dev.setDeficit_fuses (d : Dev) (p c : Nat) (v : Int) : (d.setDeficit p c v).fuses = d.fuses := by simp [Dev.setDeficit]

@[simp] theorem Dev.pickDrr_fuses (p : Nat) (inD elig : Nat → Bool) (n : Nat) (d : Dev) : (Dev.pickDrr p inD elig n d).1.fuses = d.fuses := by
  induction n generalizing d with
  | zero => rfl
  | succ n ih =>
    simp only [Dev.pickDrr]
    split
    · split <;> simp [ih]
    · simp [ih]

@[simp] theorem Dev.pickClass_fuses (d : Dev) (p : Nat) (elig : Nat → Bool) : (d.pickClass p elig).1.fuses = d.fuses := by
  simp only [Dev.pickClass]
  split <;> simp

@[simp] theorem Dev.sampleDelay_fuses (d : Dev) (q : Nat) (e : QEnt) : (d.sampleDelay q e).fuses = d.fuses := by simp [Dev.sampleDelay]
@[simp] theorem Dev.leaveQ_fuses (d : Dev) (p c : Nat) (e : QEnt) (l : List QEnt) : (d.leaveQ p c e l).fuses = d.fuses := by simp [Dev.leaveQ]
@[simp] theorem Dev.flightStart_fuses (d : Dev) (q : Nat) (e : QEnt) : (d.flightStart q e).fuses = d.fuses := by simp [Dev.flightStart]

@[simp] theorem Dev.startTx_fuses (d : Dev) (p c : Nat) : (d.startTx p c).fuses = d.fuses := by
  unfold Dev.startTx
  split <;> simp

@[simp] theorem Dev.select_fuses (d : Dev) (p : Nat) : (d.select p).fuses = d.fuses := by
  unfold Dev.select
  dsimp only
  refine fuses_ite_of rfl ?_
  split
  · rw [Dev.updEgr_fuses]
  · split <;> simp [fuses_of_fst ‹_ = (_, _)›]

@[simp] theorem Dev.settle_fuses (d : Dev) : d.settle.fuses = d.fuses := by simp [Dev.settle]

@[simp] theorem Dev.macMem_fuses (d : Dev) (p tx : Nat) : (d.macMem p tx).1.fuses = d.fuses := by
  simp only [Dev.macMem]
  split <;> simp

@[simp] theorem Dev.credit_fuses (d : Dev) (p c : Nat) (extra : Int) : (d.credit p c extra).fuses = d.fuses := by simp [Dev.credit]
@[simp] theorem Dev.txCount_fuses (d : Dev) (p n : Nat) : (d.txCount p n).fuses = d.fuses := by simp [Dev.txCount]

@[simp] theorem Dev.txEnd_fuses (d : Dev) (p : Nat) (err : Bool) : (d.txEnd p err).fuses = d.fuses := by
  simp only [Dev.txEnd]
  repeat' split
  all_goals simp

@[simp] theorem Dev.gateLook_fuses (d : Dev) (p : Nat) : (d.gateLook p).fuses = d.fuses := by
  simp only [Dev.gateLook]
  repeat' split
  all_goals simp

@[simp] theorem Dev.setGates_fuses (d : Dev) (p idx states : Nat) : (d.setGates p idx states).fuses = d.fuses := by simp [Dev.setGates]

@[simp] theorem Dev.gateAt_fuses (d : Dev) (p : Nat) (pos : Int) : (d.gateAt p pos).fuses = d.fuses := by
  simp only [Dev.gateAt]
  split <;> simp

@[simp] theorem Dev.gateChange_fuses (d : Dev) (p : Nat) : (d.gateChange p).fuses = d.fuses := by simp [Dev.gateChange]
@[simp] theorem Dev.gateCtlWrite_fuses (d : Dev) (pa : Path) (p : Nat) (v : Nat) : (d.gateCtlWrite pa p v).fuses = d.fuses := by simp [Dev.gateCtlWrite]
@[simp] theorem Dev.gateCopy_fuses (d : Dev) (p : Nat) : (d.gateCopy p).fuses = d.fuses := by simp [Dev.gateCopy]
@[simp] theorem Dev.gateConfig_fuses (d : Dev) (p : Nat) : (d.gateConfig p).fuses = d.fuses := by simp [Dev.gateConfig]
@[simp] theorem Dev.gateEntry_fuses (d : Dev) (p : Nat) : (d.gateEntry p).fuses = d.fuses := by simp [Dev.gateEntry]
@[simp] theorem Dev.gateStep_fuses (d : Dev) (p : Nat) : (d.gateStep p).fuses = d.fuses := by simp [Dev.gateStep]
@[simp] theorem Dev.lookAll_fuses (d : Dev) : d.lookAll.fuses = d.fuses := by simp [Dev.lookAll]

@[simp] theorem Dev.shaperRefill_fuses (d : Dev) (p : Nat) (c : Option Nat) : (d.shaperRefill p c).fuses = d.fuses := by
  unfold Dev.shaperRefill
  split <;> simp

@[simp] theorem Dev.pauseExpire_fuses (d : Dev) (p : Nat) (c : Option Nat) : (d.pauseExpire p c).fuses = d.fuses := by
  unfold Dev.pauseExpire
  split <;> simp

@[simp] theorem Dev.pfcRenew_fuses (d : Dev) (p : Nat) : (d.pfcRenew p).fuses = d.fuses := by simp [Dev.pfcRenew]
@[simp] theorem Dev.meter_fuses (d : Dev) (g m : Nat) (len : Nat) : (d.meter g m len).1.fuses = d.fuses := by simp [Dev.meter]
@[simp] theorem Dev.replicate_fuses (d : Dev) (g h : Nat) (fr : List Byte) : (d.replicate g h fr).1.fuses = d.fuses := by simp [Dev.replicate]

@[simp] theorem Dev.tsn_fuses (d : Dev) (g p : Nat) (fr : List Byte) : (d.tsn g p fr).1.fuses = d.fuses := by
  unfold Dev.tsn
  split <;> simp

@[simp] theorem Dev.recover_fuses (d : Dev) (g r : Nat) (fr : List Byte) : (d.recover g r fr).1.fuses = d.fuses := by
  unfold Dev.recover
  split <;> simp

@[simp] theorem Dev.recoveryReset_fuses (d : Dev) (g r : Nat) : (d.recoveryReset g r).fuses = d.fuses := by simp [Dev.recoveryReset]
@[simp] theorem Dev.ledPeriod_fuses (d : Dev) (g r : Nat) : (d.ledPeriod g r).fuses = d.fuses := by simp [Dev.ledPeriod]

@[simp] theorem Dev.recovered_fuses (d : Dev) (q : Nat) (e : QEnt) : (d.recovered q e).1.fuses = d.fuses := by
  unfold Dev.recovered
  split <;> simp

@[simp] theorem Dev.toEgress_fuses (d : Dev) (q : Nat) (e : QEnt) : (d.toEgress q e).fuses = d.fuses := by
  unfold Dev.toEgress
  split <;> simp [fuses_of_fst ‹_ = (_, _)›]

@[simp] theorem Dev.updFlight_fuses (d : Dev) (q pkt : Nat) (f : QEnt → QEnt) : (d.updFlight q pkt f).fuses = d.fuses := by
  simp only [Dev.updFlight]
  split <;> simp

@[simp] theorem Dev.cutArrive_fuses (d : Dev) (kx : Nat × Xfer) : (d.cutArrive kx).fuses = d.fuses := by
  unfold Dev.cutArrive
  simp only
  split
  · rfl
  · split
    · rfl
    · split <;> simp [fuses_of_fst ‹_ = (_, _)›]

@[simp] theorem Dev.fabricTick_fuses (d : Dev) : d.fabricTick.fuses = d.fuses := by simp [Dev.fabricTick]
@[simp] theorem Dev.landEnt_fuses (d : Dev) (q : Nat) (put : Bool) (e : QEnt) : (d.landEnt q put e).fuses = d.fuses := by simp [Dev.landEnt]
@[simp] theorem Dev.loseEnt_fuses (d : Dev) (q : Nat) (put : Bool) (e : QEnt) : (d.loseEnt q put e).fuses = d.fuses := by simp [Dev.loseEnt]

@[simp] theorem Dev.finishXfer_fuses (d : Dev) (g j key : Nat) (x : Xfer) (err stomp : Bool) : (d.finishXfer g j key x err stomp).fuses = d.fuses := by
  unfold Dev.finishXfer
  simp only
  split
  · rfl
  · split
    · simp
    · split
      · simp
      · split <;> simp [fuses_of_fst ‹_ = (_, _)›]

@[simp] theorem Dev.fabricDone_fuses (d : Dev) (g j : Nat) (err : Bool) : (d.fabricDone g j err).fuses = d.fuses := by
  unfold Dev.fabricDone
  split <;> simp

@[simp] theorem Dev.reseqEnd_fuses (d : Dev) (j key : Nat) (x : Xfer) (inj : Bool) : (d.reseqEnd j key x inj).fuses = d.fuses := by
  simp only [Dev.reseqEnd]
  repeat' split
  all_goals simp

@[simp] theorem Dev.reseqTimeout_fuses (d : Dev) (j : Nat) : (d.reseqTimeout j).fuses = d.fuses := by
  simp only [Dev.reseqTimeout]
  split <;> simp

/-! ## Ports, MACs and serial lanes -/

@[simp] theorem Dev.setLink_fuses (d : Dev) (p s : Nat) : (d.setLink p s).fuses = d.fuses := by simp [Dev.setLink]
@[simp] theorem Dev.linkChg_fuses (d : Dev) (p : Nat) : (d.linkChg p).fuses = d.fuses := by simp [Dev.linkChg]
@[simp] theorem Dev.macControl_fuses (d : Dev) (p : Nat) (fr : List Byte) : (d.macControl p fr).fuses = d.fuses := by simp [Dev.macControl]
@[simp] theorem Dev.pauseAll_fuses (d : Dev) : d.pauseAll.fuses = d.fuses := by simp [Dev.pauseAll]
@[simp] theorem Dev.countBad_fuses (d : Dev) (p bad : Nat) : (d.countBad p bad).fuses = d.fuses := by simp [Dev.countBad]
@[simp] theorem Dev.dropQueues_fuses (d : Dev) (ps : List Nat) : (d.dropQueues ps).1.fuses = d.fuses := by simp [Dev.dropQueues]

@[simp] theorem Dev.flushPort_fuses (d : Dev) (p : Nat) : (d.flushPort p).fuses = d.fuses := by
  conv => enter [1, 1]; fun; fun; delta Dev.flushPort
  extract_lets x
  have hx : x.fuses = d.fuses := (Dev.put_fuses ..).trans (Dev.put_fuses ..)
  clear_value x
  split
  next y l heq => rw [Dev.settle_fuses, Dev.macCnt_fuses, fuses_of_fst heq, Dev.dropQueues_fuses, hx]

@[simp] theorem Dev.holdEnd_fuses (d : Dev) (p : Nat) : (d.holdEnd p).fuses = d.fuses := by simp [Dev.holdEnd]
@[simp] theorem Dev.holdExpire_fuses (d : Dev) (p : Nat) : (d.holdExpire p).fuses = d.fuses := by simp [Dev.holdExpire]
@[simp] theorem Dev.moveQueues_fuses (d : Dev) (f o : Nat) : (d.moveQueues f o).fuses = d.fuses := by simp [Dev.moveQueues]
@[simp] theorem Dev.switchOver_fuses (d : Dev) (g n : Nat) : (d.switchOver g n).fuses = d.fuses := by simp [Dev.switchOver]
@[simp] theorem Dev.protWrite_fuses (d : Dev) (pa : Path) (g n v : Nat) : (d.protWrite pa g n v).fuses = d.fuses := by simp [Dev.protWrite]
@[simp] theorem Dev.wtrExpire_fuses (d : Dev) (g n : Nat) : (d.wtrExpire g n).fuses = d.fuses := by simp [Dev.wtrExpire]
@[simp] theorem Dev.protRevert_fuses (d : Dev) (g n : Nat) : (d.protRevert g n).fuses = d.fuses := by simp [Dev.protRevert]
@[simp] theorem Dev.enterUp_fuses (d : Dev) (p : Nat) : (d.enterUp p).fuses = d.fuses := by simp [Dev.enterUp]
@[simp] theorem Dev.injDue_fuses (d : Dev) (ln : Nat) : (d.injDue ln).fuses = d.fuses := by simp [Dev.injDue]
@[simp] theorem Dev.portStart_fuses (d : Dev) (p : Nat) : (d.portStart p).fuses = d.fuses := by simp [Dev.portStart]

@[simp] theorem Dev.declareDown_fuses (d : Dev) (p : Nat) (now : Bool) : (d.declareDown p now).fuses = d.fuses := by
  simp only [Dev.declareDown]
  split <;> simp

@[simp] theorem Dev.txCut_fuses (d : Dev) (p : Nat) : (d.txCut p).fuses = d.fuses := by
  simp only [Dev.txCut]
  split <;> simp

@[simp] theorem Dev.portStop_fuses (d : Dev) (p : Nat) : (d.portStop p).fuses = d.fuses := by simp [Dev.portStop]
@[simp] theorem Dev.laneLocked_fuses (d : Dev) (ln : Nat) : (d.laneLocked ln).fuses = d.fuses := by simp [Dev.laneLocked]
@[simp] theorem Dev.lanesLost_fuses (d : Dev) (p : Nat) : (d.lanesLost p).fuses = d.fuses := by simp [Dev.lanesLost]
@[simp] theorem Dev.fecCount_fuses (d : Dev) (p : Nat) : (d.fecCount p).fuses = d.fuses := by simp [Dev.fecCount]
@[simp] theorem Dev.blkErr_fuses (d : Dev) (p n : Nat) : (d.blkErr p n).fuses = d.fuses := by simp [Dev.blkErr]
@[simp] theorem Dev.tooSkewed_fuses (d : Dev) (p skew : Nat) : (d.tooSkewed p skew).fuses = d.fuses := by simp [Dev.tooSkewed]
@[simp] theorem Dev.lockAcquired_fuses (d : Dev) (p skew : Nat) : (d.lockAcquired p skew).fuses = d.fuses := by simp [Dev.lockAcquired]
@[simp] theorem Dev.unlock_fuses (d : Dev) (p ln hdr : Nat) (fields : List String) : (d.unlock p ln hdr fields).fuses = d.fuses := by simp [Dev.unlock]

@[simp] theorem Dev.showLoss_fuses (d : Dev) (p ln : Nat) (l : Loss) : (d.showLoss p ln l).fuses = d.fuses := by
  unfold Dev.showLoss
  split <;> simp

@[simp] theorem Dev.loss_fuses (d : Dev) (p ln : Nat) (l : Loss) : (d.loss p ln l).fuses = d.fuses := by simp [Dev.loss]
@[simp] theorem Dev.adminWrite_fuses (d : Dev) (p : Nat) (v : Bool) : (d.adminWrite p v).fuses = d.fuses := by simp [Dev.adminWrite]
@[simp] theorem Dev.prbsLock_fuses (d : Dev) (ln : Nat) : (d.prbsLock ln).fuses = d.fuses := by simp [Dev.prbsLock]
@[simp] theorem Dev.prbsCount_fuses (d : Dev) (ln b e : Nat) : (d.prbsCount ln b e).fuses = d.fuses := by simp [Dev.prbsCount]
@[simp] theorem Dev.prbsTally_fuses (d : Dev) (ln b e : Nat) : (d.prbsTally ln b e).fuses = d.fuses := by simp [Dev.prbsTally]
@[simp] theorem Dev.prbsLoss_fuses (d : Dev) (ln : Nat) : (d.prbsLoss ln).fuses = d.fuses := by simp [Dev.prbsLoss]
@[simp] theorem Dev.prbsOff_fuses (d : Dev) (ln : Nat) : (d.prbsOff ln).fuses = d.fuses := by simp [Dev.prbsOff]

@[simp] theorem Dev.pllLoss_fuses (d : Dev) (ln : Nat) (tx : Bool) : (d.pllLoss ln tx).fuses = d.fuses := by
  simp only [Dev.pllLoss]
  split <;> simp

/-! ## What a commit does with a packet -/

@[simp] theorem Dev.leaveReplay_fuses (d : Dev) (g n : Nat) : (d.leaveReplay g n).fuses = d.fuses := by simp [Dev.leaveReplay]
@[simp] theorem Dev.leaveWin_fuses (d : Dev) (g n : Nat) : (d.leaveWin g n).fuses = d.fuses := by simp [Dev.leaveWin]
@[simp] theorem Dev.delPkt_fuses (d : Dev) (n : Nat) (p : Pkt) : (d.delPkt n p).fuses = d.fuses := by simp [Dev.delPkt]
@[simp] theorem Dev.endPkt_fuses (d : Dev) (n : Nat) (p : Pkt) : (d.endPkt n p).fuses = d.fuses := by simp [Dev.endPkt]

@[simp] theorem Dev.voidSpec_fuses (d : Dev) (n : Nat) (p : Pkt) : (d.voidSpec n p).1.fuses = d.fuses := by
  unfold Dev.voidSpec
  split <;> simp

@[simp] theorem Dev.liftLater_fuses (d : Dev) (p : Pkt) (v : Nat) : (d.liftLater p v).fuses = d.fuses := by
  unfold Dev.liftLater
  split
  · rfl
  · refine foldl_fuses _ (fun x n => ?_) _ _
    split <;> simp

@[simp] theorem Dev.orFree_fuses (d : Dev) (x : Option Nat) (bound : Nat) : (d.orFree x bound).2.fuses = d.fuses := by
  unfold Dev.orFree
  split <;> simp

@[simp] theorem Dev.pipeTrace_fuses (d : Dev) (p : Pkt) (typ : Nat) : (d.pipeTrace p typ).fuses = d.fuses := by simp [Dev.pipeTrace]

@[simp] theorem Dev.hintWrite_fuses (d : Dev) (p : Pkt) (ra action aux : Nat) : (d.hintWrite p ra action aux).fuses = d.fuses := by
  unfold Dev.hintWrite
  split <;> simp

@[simp] theorem Dev.voqDrop_fuses (d : Dev) (g : Nat) : (d.voqDrop g).fuses = d.fuses := by simp [Dev.voqDrop]

theorem Dev.enqOk_fuses {d x : Dev} {g v : Nat} {e : QEnt} (h : d.enqOk g v e = some x) : x.fuses = d.fuses := by
  unfold Dev.enqOk at h
  split_ifs at h
  exact Dev.enq_fuses h

@[simp] theorem Dev.enqFor_fuses (d : Dev) (p : Pkt) (v : Nat) (e : QEnt) (no : Dev → Dev) (h : ∀ x, (no x).fuses = x.fuses) :
    (d.enqFor p v e no).1.fuses = d.fuses := by
  unfold Dev.enqFor
  simp only
  split
  next x hx => simp [Dev.enqOk_fuses hx]
  next => simp [h]

@[simp] theorem Dev.hostEnq_fuses (d : Dev) (n : Nat) (p : Pkt) (fr : List Byte) (kind srcId : Nat) (rcv : Option Nat) :
    (d.hostEnq n p fr kind srcId rcv).1.fuses = d.fuses := by
  simp [Dev.hostEnq]
@[simp] theorem Dev.toHost_fuses (d : Dev) (n : Nat) (p : Pkt) (fr : List Byte) (kind srcId : Nat) : (d.toHost n p fr kind srcId).fuses = d.fuses := by
  simp [Dev.toHost]
@[simp] theorem Dev.divertPkt_fuses (d : Dev) (n : Nat) (p : Pkt) (k srcId : Nat) : (d.divertPkt n p k srcId).fuses = d.fuses := by simp [Dev.divertPkt]
@[simp] theorem Dev.dropPkt_fuses (d : Dev) (n : Nat) (p : Pkt) : (d.dropPkt n p).fuses = d.fuses := by simp [Dev.dropPkt]

@[simp] theorem Dev.mirrorCopy_fuses (d : Dev) (n : Nat) (p : Pkt) (fr : List Byte) (s : Nat) (rcv : Option Nat) :
    (d.mirrorCopy n p fr s rcv).fuses = d.fuses := by
  simp only [Dev.mirrorCopy]
  repeat' split
  all_goals simp

@[simp] theorem Dev.member_fuses (d : Dev) (p : Pkt) (e : QEnt) (copy : Bool) (m : Nat × Nat × Bool) : (d.member p e copy m).fuses = d.fuses := by
  simp [Dev.member]

@[simp] theorem Dev.fanOut_fuses (d : Dev) (n : Nat) (p : Pkt) (fr : List Byte) (grp cls : Nat) (copy : Bool) (rcv : Option Nat) :
    (d.fanOut n p fr grp cls copy rcv).1.fuses = d.fuses := by
  simp only [Dev.fanOut]
  repeat' split
  all_goals simp

@[simp] theorem Dev.unicast_fuses (d : Dev) (n : Nat) (p : Pkt) (fr : List Byte) (v : Nat) (mirrored : Bool) (rcv : Option Nat) :
    (d.unicast n p fr v mirrored rcv).1.fuses = d.fuses := by
  simp [Dev.unicast]
@[simp] theorem Dev.countHits_fuses (d : Dev) (g : Nat) (hs : List (Nat × Nat)) : (d.countHits g hs).fuses = d.fuses := by simp [Dev.countHits]
@[simp] theorem Dev.inspected_fuses (d : Dev) (p : Pkt) : (d.inspected p).fuses = d.fuses := by simp [Dev.inspected]
@[simp] theorem Dev.learnFrom_fuses (d : Dev) (p : Pkt) : (d.learnFrom p).fuses = d.fuses := by simp [Dev.learnFrom]
@[simp] theorem Dev.recircPkt_fuses (d : Dev) (n : Nat) (p : Pkt) (fr : List Byte) : (d.recircPkt n p fr).1.fuses = d.fuses := by simp [Dev.recircPkt]
@[simp] theorem Dev.stream_fuses (d : Dev) (p : Pkt) (fr : List Byte) : (d.stream p fr).1.fuses = d.fuses := by simp [Dev.stream]

@[simp] theorem Dev.targets_fuses (d : Dev) (n : Nat) (p : Pkt) (t : TsnOut) (dest cls : Nat) (mir : Option Nat) :
    (d.targets n p t dest cls mir).1.fuses = d.fuses := by
  simp only [Dev.targets]
  repeat' split
  all_goals simp

@[simp] theorem Dev.commitWork_fuses (d : Dev) (n : Nat) (p : Pkt) (e : Option (Snap × Rec)) : (d.commitWork n p e).fuses = d.fuses := by
  unfold Dev.commitWork
  split <;> simp

@[simp] theorem Dev.runDep_fuses (d : Dev) (p : Pkt) : (d.runDep p).1.fuses = d.fuses := by simp [Dev.runDep]
@[simp] theorem Dev.runUnder_fuses (d : Dev) (p : Pkt) (act aux : Nat) : (d.runUnder p act aux).1.fuses = d.fuses := by simp [Dev.runUnder]

@[simp] theorem Dev.speculate_fuses (d : Dev) (n : Nat) (p : Pkt) : (d.speculate n p).1.fuses = d.fuses := by
  unfold Dev.speculate
  simp only
  split
  · simp
  · split
    next x hx => simp [Dev.enqOk_fuses hx]
    next => simp

/-! ## The pending table, engine holds, quoin entries and work queues -/

@[simp] theorem Dev.pmc_fuses (d : Dev) (e ev n : Nat) : (d.pmc e ev n).fuses = d.fuses := by simp [Dev.pmc]
@[simp] theorem Dev.showQuoins_fuses (d : Dev) (k : Nat) : (d.showQuoins k).fuses = d.fuses := by simp [Dev.showQuoins]
@[simp] theorem Dev.setQuoin_fuses (d : Dev) (ra : Nat) (q : Quoin) : (d.setQuoin ra q).fuses = d.fuses := by simp [Dev.setQuoin]
@[simp] theorem Dev.freeQuoin_fuses (d : Dev) (ra : Nat) : (d.freeQuoin ra).fuses = d.fuses := by simp [Dev.freeQuoin]
@[simp] theorem Dev.setWq_fuses (d : Dev) (hi : Bool) (c : Nat) (l : List Item) : (d.setWq hi c l).fuses = d.fuses := by simp [Dev.setWq]

@[simp] theorem Dev.placeItem_fuses (d : Dev) (g : Nat) (it : Item) : (d.placeItem g it).fuses = d.fuses := by
  simp only [Dev.placeItem]
  repeat' split
  all_goals simp

@[simp] theorem Dev.placeWaiting_fuses (d : Dev) (g : Nat) : (d.placeWaiting g).fuses = d.fuses := by
  unfold Dev.placeWaiting
  split <;> simp

@[simp] theorem Dev.setPend_fuses (d : Dev) (k : Nat) (l : List PEnt) : (d.setPend k l).fuses = d.fuses := by simp [Dev.setPend]
@[simp] theorem Dev.addPend_fuses (d : Dev) (k : Nat) (key : List Byte) (h : Nat) (kind : PKind) (g : Nat) (ra : Option Nat) (pkts : List Nat) :
    (d.addPend k key h kind g ra pkts).fuses = d.fuses := by
  simp [Dev.addPend]
@[simp] theorem Dev.delPend_fuses (d : Dev) (k idx : Nat) : (d.delPend k idx).fuses = d.fuses := by simp [Dev.delPend]
@[simp] theorem Dev.updPend_fuses (d : Dev) (k idx : Nat) (f : PEnt → PEnt) : (d.updPend k idx f).fuses = d.fuses := by simp [Dev.updPend]
@[simp] theorem Dev.joinHome_fuses (d : Dev) (k n : Nat) (p : Pkt) (e : PEnt) : (d.joinHome k n p e).1.fuses = d.fuses := by simp [Dev.joinHome]
@[simp] theorem Dev.listPkt_fuses (d : Dev) (k n : Nat) (p : Pkt) : (d.listPkt k n p).fuses = d.fuses := by simp [Dev.listPkt]
@[simp] theorem Dev.hold_fuses (d : Dev) (n : Nat) (p : Pkt) : (d.hold n p).fuses = d.fuses := by simp [Dev.hold]
@[simp] theorem Dev.sendDesc_fuses (d : Dev) (n : Nat) (p : Pkt) : (d.sendDesc n p).fuses = d.fuses := by simp [Dev.sendDesc]
@[simp] theorem Dev.replayFirst_fuses (d : Dev) (g : Nat) (ns : List Nat) : (d.replayFirst g ns).fuses = d.fuses := by simp [Dev.replayFirst]
@[simp] theorem Dev.replayDue_fuses (d : Dev) (g n : Nat) : (d.replayDue g n).fuses = d.fuses := by simp [Dev.replayDue]
@[simp] theorem Dev.shadowReplay_fuses (d : Dev) (n : Nat) (p : Pkt) : (d.shadowReplay n p).fuses = d.fuses := by simp [Dev.shadowReplay]
@[simp] theorem Dev.shadowCrossed_fuses (d : Dev) (n : Nat) (p : Pkt) : (d.shadowCrossed n p).fuses = d.fuses := by simp [Dev.shadowCrossed]

@[simp] theorem Dev.shadowOne_fuses (d : Dev) (m : Shadow) (n : Nat) : (d.shadowOne m n).fuses = d.fuses := by
  unfold Dev.shadowOne
  split
  · rfl
  · simp only
    split
    · simp
    · split
      · simp
      · split
        · simp
        · split <;> simp [fuses_of_fst ‹_ = (_, _)›]
    · simp
    · simp

@[simp] theorem Dev.shadow_fuses (d : Dev) (p : Pkt) (m : Shadow) : (d.shadow p m).fuses = d.fuses := by simp [Dev.shadow]

@[simp] theorem Dev.failCount_fuses (d : Dev) (k : Nat) (f : InsFail) : (d.failCount k f).fuses = d.fuses := by
  unfold Dev.failCount
  split <;> simp

@[simp] theorem Dev.forwardPlain_fuses (d : Dev) (n : Nat) (p : Pkt) (k : Nat) : (d.forwardPlain n p k).fuses = d.fuses := by
  simp only [Dev.forwardPlain]
  repeat' split
  all_goals simp

@[simp] theorem Dev.fullAct_fuses (d : Dev) (k form : Nat) (ns : List Nat) (f : InsFail) : (d.fullAct k form ns f).fuses = d.fuses := by
  unfold Dev.fullAct
  simp only
  rw [foldl_fuses]
  · simp
  · intro x n
    split <;> simp

@[simp] theorem Dev.flushOut_fuses (d : Dev) (n : Nat) (p : Pkt) : (d.flushOut n p).fuses = d.fuses := by simp [Dev.flushOut]

@[simp] theorem Dev.issueWb_fuses (d : Dev) (p : Pkt) (tcp : Option (Nat × Nat)) : (d.issueWb p tcp).fuses = d.fuses := by
  unfold Dev.issueWb
  split <;> simp

@[simp] theorem Dev.hintOf_fuses (d : Dev) (p : Pkt) : (d.hintOf p).fuses = d.fuses := by
  unfold Dev.hintOf
  split <;> simp

@[simp] theorem Dev.eccDivert_fuses (d : Dev) (ra s : Nat) : (d.eccDivert ra s).fuses = d.fuses := by simp [Dev.eccDivert]

@[simp] theorem Dev.ranUnder_fuses (d : Dev) (p : Pkt) (r : Rec) : (d.ranUnder p r).1.fuses = d.fuses := by
  unfold Dev.ranUnder
  split <;> simp

@[simp] theorem Dev.commitPkt_fuses (d : Dev) (n : Nat) (p : Pkt) (wb : Bool) : (d.commitPkt n p wb).fuses = d.fuses := by
  simp only [Dev.commitPkt]
  repeat' split
  all_goals simp

@[simp] theorem Dev.commitOut_fuses (d : Dev) (n : Nat) (p : Pkt) (wb : Bool) : (d.commitOut n p wb).fuses = d.fuses := by simp [Dev.commitOut]
@[simp] theorem Dev.predCommit_fuses (d : Dev) (p : Pkt) : (d.predCommit p).fuses = d.fuses := by simp [Dev.predCommit]
@[simp] theorem Dev.commitDrop_fuses (d : Dev) (n : Nat) (p : Pkt) (wb : Bool) : (d.commitDrop n p wb).fuses = d.fuses := by simp [Dev.commitDrop]
@[simp] theorem Dev.squashPkt_fuses (d : Dev) (n : Nat) (p : Pkt) : (d.squashPkt n p).fuses = d.fuses := by simp [Dev.squashPkt]

@[simp] theorem Dev.enginePkt_fuses (d : Dev) (n : Nat) (p : Pkt) (k : Nat) : (d.enginePkt n p k).fuses = d.fuses := by
  simp only [Dev.enginePkt]
  split <;> simp

@[simp] theorem Dev.carryOut_fuses (d : Dev) (n : Nat) (p : Pkt) (k : Nat) (oc : Oc) : (d.carryOut n p k oc).fuses = d.fuses := by
  simp only [Dev.carryOut]
  repeat' split
  all_goals simp

@[simp] theorem Dev.bringOut_fuses (d : Dev) (n : Nat) (p : Pkt) (k : Nat) (oc : Oc) : (d.bringOut n p k oc).fuses = d.fuses := by
  simp only [Dev.bringOut]
  repeat' split
  all_goals simp

@[simp] theorem Dev.sendVerdict_fuses (d : Dev) (n : Nat) (p : Pkt) (oc : Oc) : (d.sendVerdict n p oc).fuses = d.fuses := by simp [Dev.sendVerdict]

@[simp] theorem Dev.verdictArrive_fuses (d : Dev) (k : Nat) (v : Verdict) : (d.verdictArrive k v).fuses = d.fuses := by
  simp only [Dev.verdictArrive]
  repeat' split
  all_goals simp

@[simp] theorem Dev.descArrive_fuses (d : Dev) (k n : Nat) : (d.descArrive k n).fuses = d.fuses := by
  simp only [Dev.descArrive]
  repeat' split
  all_goals simp

@[simp] theorem Dev.linkTake_fuses (d : Dev) (k : Nat) : (d.linkTake k).fuses = d.fuses := by
  simp only [Dev.linkTake]
  repeat' split
  all_goals simp

@[simp] theorem Dev.linkUpTo_fuses (n m : Nat) (d : Dev) : (Dev.linkUpTo n m d).fuses = d.fuses := by
  induction m generalizing d with
  | zero => rfl
  | succ m ih =>
    unfold Dev.linkUpTo
    split <;> simp [ih]

@[simp] theorem Dev.linkThrough_fuses (d : Dev) (n : Nat) : (d.linkThrough n).fuses = d.fuses := by simp [Dev.linkThrough]

@[simp] theorem Dev.divertOut_fuses (d : Dev) (n k src : Nat) : (d.divertOut n k src).fuses = d.fuses := by
  simp only [Dev.divertOut]
  split <;> simp

@[simp] theorem Dev.divertFirst_fuses (d : Dev) (n k src : Nat) : (d.divertFirst n k src).fuses = d.fuses := by
  simp only [Dev.divertFirst]
  split <;> simp

@[simp] theorem Dev.failOut_fuses (d : Dev) (k form : Nat) (ns : List Nat) (f : InsFail) : (d.failOut k form ns f).fuses = d.fuses := by
  simp only [Dev.failOut]
  split
  · simp
  · rw [foldl_fuses]
    · simp
    · intro x n
      split <;> simp

@[simp] theorem Dev.takeHold_fuses (d : Dev) (ra : Nat) : (d.takeHold ra).1.fuses = d.fuses := by
  simp only [Dev.takeHold]
  split <;> simp

@[simp] theorem Dev.divertHold_fuses (d : Dev) (ra src : Nat) : (d.divertHold ra src).fuses = d.fuses := by simp [Dev.divertHold]
@[simp] theorem Dev.qstatus_fuses (d : Dev) (e k code : Nat) : (d.qstatus e k code).fuses = d.fuses := by simp [Dev.qstatus]
@[simp] theorem Dev.qreturn_fuses (d : Dev) (e k tok code : Nat) : (d.qreturn e k tok code).fuses = d.fuses := by simp [Dev.qreturn]
@[simp] theorem Dev.unwait_fuses (d : Dev) (w : QWait) : (d.unwait w).fuses = d.fuses := by simp [Dev.unwait]
@[simp] theorem Dev.failWaiters_fuses (d : Dev) (ra : Nat) : (d.failWaiters ra).fuses = d.fuses := by simp [Dev.failWaiters]
@[simp] theorem Dev.tornPush_fuses (d : Dev) (ra : Nat) : (d.tornPush ra).fuses = d.fuses := by simp [Dev.tornPush]

@[simp] theorem Dev.reclaim_fuses (d : Dev) (ra : Nat) (inj : Bool) : (d.reclaim ra inj).fuses = d.fuses := by
  unfold Dev.reclaim
  split <;> simp

@[simp] theorem Dev.meet_fuses (d : Dev) (ra : Nat) : (d.meet ra).1.fuses = d.fuses := by
  unfold Dev.meet
  split <;> simp

@[simp] theorem Dev.meetSet_fuses (d : Dev) (ra : Nat) : (d.meetSet ra).1.fuses = d.fuses := by simp [Dev.meetSet]
@[simp] theorem Dev.needWay_fuses (d : Dev) (ra : Nat) : (d.needWay ra).1.fuses = d.fuses := by simp [Dev.needWay]
@[simp] theorem Dev.makeHold_fuses (d : Dev) (ra : Nat) : (d.makeHold ra).fuses = d.fuses := by simp [Dev.makeHold]
@[simp] theorem Dev.grant_fuses (d : Dev) (e ra tok : Nat) (wi : Bool) : (d.grant e ra tok wi).fuses = d.fuses := by simp [Dev.grant]
@[simp] theorem Dev.rotate_fuses (d : Dev) (e : Nat) : (d.rotate e).fuses = d.fuses := by simp [Dev.rotate]

@[simp] theorem Dev.grantItem_fuses (d : Dev) (ra : Nat) : (d.grantItem ra).fuses = d.fuses := by
  unfold Dev.grantItem
  split <;> simp

@[simp] theorem Dev.grantNext_fuses (ra n : Nat) (d : Dev) : (Dev.grantNext ra n d).fuses = d.fuses := by
  induction n generalizing d with
  | zero => rfl
  | succ n ih =>
    unfold Dev.grantNext
    split <;> simp [ih]

@[simp] theorem Dev.grantWaiter_fuses (d : Dev) (ra : Nat) : (d.grantWaiter ra).fuses = d.fuses := by simp [Dev.grantWaiter]
@[simp] theorem Dev.engage_fuses (d : Dev) (g : Nat) (it : Item) : (d.engage g it).fuses = d.fuses := by simp [Dev.engage]

/-! ## The decision of R189 on the home die, the insertions that a miss starts -/

@[simp] theorem Dev.startSetup_fuses (d : Dev) (n : Nat) (p : Pkt) (k h f : Nat) : (d.startSetup n p k h f).1.fuses = d.fuses := by
  simp only [Dev.startSetup]
  repeat' split
  all_goals simp

@[simp] theorem Dev.startInsert_fuses (d : Dev) (n : Nat) (p : Pkt) (k : Nat) : (d.startInsert n p k).1.fuses = d.fuses := by simp [Dev.startInsert]

@[simp] theorem Dev.toEngine_fuses (d : Dev) (n : Nat) (p : Pkt) (k ra : Nat) (r : Rec) (op kind : Nat) :
    (d.toEngine n p k ra r op kind).1.fuses = d.fuses := by
  unfold Dev.toEngine
  split <;> simp [fuses_of_fst ‹_ = (_, _)›]

@[simp] theorem Dev.judgeRec_fuses (d : Dev) (n : Nat) (p : Pkt) (k ra : Nat) (r : Rec) : (d.judgeRec n p k ra r).1.fuses = d.fuses := by
  unfold Dev.judgeRec
  simp only
  split
  · simp
  · split <;> simp [fuses_of_fst ‹_ = (_, _)›]

@[simp] theorem Dev.judgeSlot_fuses (d : Dev) (n : Nat) (p : Pkt) (k ra : Nat) : (d.judgeSlot n p k ra).1.fuses = d.fuses := by simp [Dev.judgeSlot]
@[simp] theorem Dev.look_fuses (d : Dev) (p : Pkt) : (d.look p).1.fuses = d.fuses := by simp [Dev.look]

@[simp] theorem Dev.readFor_fuses (d : Dev) (p : Pkt) : (d.readFor p).1.fuses = d.fuses := by
  unfold Dev.readFor
  split <;> simp [fuses_of_fst ‹_ = (_, _)›]

@[simp] theorem Dev.judgeRead_fuses (d : Dev) (n : Nat) (p : Pkt) (k : Nat) (r : Rd) : (d.judgeRead n p k r).1.fuses = d.fuses := by
  unfold Dev.judgeRead
  split
  · rfl
  · split
    · rfl
    · split
      · split <;> simp [fuses_of_fst ‹_ = (_, _)›]
      · simp

@[simp] theorem Dev.judge_fuses (d : Dev) (n : Nat) (p : Pkt) (k : Nat) : (d.judge n p k).1.fuses = d.fuses := by
  unfold Dev.judge
  simp only
  split
  · simp
  · split
    · rfl
    · split
      · simp
      · split <;> simp [fuses_of_fst ‹_ = (_, _)›]

@[simp] theorem Dev.ruleOn_fuses (d : Dev) (n : Nat) (p : Pkt) : (d.ruleOn n p).fuses = d.fuses := by simp [Dev.ruleOn]

@[simp] theorem Dev.releaseOne_fuses (d : Dev) (k : Nat) (n : Nat) : (d.releaseOne k n).fuses = d.fuses := by
  simp only [Dev.releaseOne]
  split <;> simp

@[simp] theorem Dev.releaseList_fuses (d : Dev) (k : Nat) (ns : List Nat) : (d.releaseList k ns).fuses = d.fuses := by simp [Dev.releaseList]

@[simp] theorem Dev.replayRead_fuses (d : Dev) (n : Nat) (p : Pkt) : (d.replayRead n p).fuses = d.fuses := by
  simp only [Dev.replayRead]
  repeat' split
  all_goals simp

@[simp] theorem Dev.replayFinish_fuses (d : Dev) (n : Nat) (p : Pkt) : (d.replayFinish n p).fuses = d.fuses := by simp [Dev.replayFinish]

@[simp] theorem Dev.replayStart_fuses (d : Dev) (g n : Nat) : (d.replayStart g n).fuses = d.fuses := by
  unfold Dev.replayStart
  split <;> simp

@[simp] theorem Dev.goOn_fuses (d : Dev) (n : Nat) (p : Pkt) : (d.goOn n p).fuses = d.fuses := by
  unfold Dev.goOn
  split <;> simp

@[simp] theorem Dev.pumpN_fuses (n : Nat) (d : Dev) : (Dev.pumpN n d).fuses = d.fuses := by
  induction n generalizing d with
  | zero => rfl
  | succ n ih =>
    unfold Dev.pumpN
    split
    · simp [ih]
    · split <;> simp [ih]

@[simp] theorem Dev.pump_fuses (d : Dev) : d.pump.fuses = d.fuses := by simp [Dev.pump]
@[simp] theorem Dev.releaseHold_fuses (d : Dev) (ra : Nat) : (d.releaseHold ra).fuses = d.fuses := by simp [Dev.releaseHold]

@[simp] theorem Dev.firstCommit_fuses (d : Dev) (n : Nat) (p : Pkt) (k ra : Nat) (r : Rec) : (d.firstCommit n p k ra r).fuses = d.fuses := by
  simp only [Dev.firstCommit]
  repeat' split
  all_goals simp

@[simp] theorem Dev.fastInsert_fuses (d : Dev) (n : Nat) : (d.fastInsert n).fuses = d.fuses := by
  simp only [Dev.fastInsert]
  repeat' split
  all_goals simp

@[simp] theorem Dev.setupTimeout_fuses (d : Dev) (k i : Nat) : (d.setupTimeout k i).fuses = d.fuses := by
  simp only [Dev.setupTimeout]
  repeat' split
  all_goals simp

/-! ## The region pipeline -/

@[simp] theorem Dev.admission_fuses (d : Dev) (f : Nat → Pkt) : (d.admission f).fuses = d.fuses := by simp [Dev.admission]
@[simp] theorem Dev.rxStamp_fuses (d : Dev) (p : Nat) : (d.rxStamp p).1.fuses = d.fuses := by simp [Dev.rxStamp]
@[simp] theorem Dev.rxCount_fuses (d : Dev) (p len : Nat) : (d.rxCount p len).fuses = d.fuses := by simp [Dev.rxCount]

@[simp] theorem Dev.rxAdmit_fuses (d : Dev) (p : Nat) (fr : List Byte) (bad rest : Nat) : (d.rxAdmit p fr bad rest).fuses = d.fuses := by
  unfold Dev.rxAdmit
  dsimp only
  split <;> simp [fuses_of_fst ‹_ = (_, _)›]

@[simp] theorem Dev.frameReceive_fuses (d : Dev) (p : Nat) (fr : List Byte) (slot full : Bool) (rest : Nat) :
    (d.frameReceive p fr slot full rest).fuses = d.fuses := by
  simp [Dev.frameReceive]

@[simp] theorem Dev.entsOf_fuses (d : Dev) (g head : Nat) (f : Dev → Nat → QEnt → Dev × Option QEnt) (h : ∀ x v e, (f x v e).1.fuses = x.fuses) :
    (d.entsOf g head f).fuses = d.fuses := by
  refine foldl_fuses _ (fun x a => ?_) _ _
  dsimp only
  split
  · rw [Dev.voqMoved_fuses, Dev.setVoq_fuses, foldl_fst_fuses]
    intro y e
    split
    · rfl
    · split
      next heq => rw [← h y.1 (a.1 % 520) e, heq]
      next heq => rw [Dev.entEnd_fuses, ← h y.1 (a.1 % 520) e, heq]
  · rfl

@[simp] theorem Dev.cutShort_fuses (d : Dev) (a : Arr) : (d.cutShort a).fuses = d.fuses := by
  unfold Dev.cutShort
  apply Dev.entsOf_fuses
  intro x v e
  dsimp only
  split
  · split <;> simp
  · simp

@[simp] theorem Dev.arrRefused_fuses (d : Dev) (a : Arr) : (d.arrRefused a).fuses = d.fuses := by
  simp only [Dev.arrRefused]
  split <;> simp

@[simp] theorem Dev.arrCells_fuses (n : Nat) (a : Arr) (d : Dev) : (Dev.arrCells n a d).fuses = d.fuses := by
  induction n generalizing a d with
  | zero => rfl
  | succ n ih =>
    unfold Dev.arrCells
    split
    next x _ heq => simp [fuses_of_fst heq]
    next x b heq => simp [ih, fuses_of_fst heq]

@[simp] theorem Dev.arrBad_fuses (d : Dev) (port : Nat) : (d.arrBad port).fuses = d.fuses := by
  refine foldl_fuses _ (fun x a => ?_) _ _
  split <;> simp

@[simp] theorem Dev.arrLost_fuses (d : Dev) (port : Nat) : (d.arrLost port).fuses = d.fuses := by
  refine foldl_fuses _ (fun x a => ?_) _ _
  simp only
  split <;> simp

@[simp] theorem Dev.arrivals_fuses (d : Dev) : d.arrivals.fuses = d.fuses := by
  refine foldl_fuses _ (fun x h => ?_) _ _
  split <;> simp

@[simp] theorem Dev.lossAt_fuses (d : Dev) (port lane : Nat) (l : Loss) : (d.lossAt port lane l).fuses = d.fuses := by simp [Dev.lossAt]
@[simp] theorem Dev.keyOf_fuses (d : Dev) (p : Pkt) (ps : ParseSt) (fr md : List Byte) : (d.keyOf p ps fr md).1.fuses = d.fuses := by simp [Dev.keyOf]
@[simp] theorem Dev.inspect_fuses (d : Dev) (p : Pkt) : (d.inspect p).1.fuses = d.fuses := by simp [Dev.inspect]
@[simp] theorem Dev.classify_fuses (d : Dev) (p : Pkt) (ps : ParseSt) (fr : List Byte) : (d.classify p ps fr).1.fuses = d.fuses := by simp [Dev.classify]
@[simp] theorem Dev.malfAct_fuses (d : Dev) (n : Nat) (p : Pkt) : (d.malfAct n p).fuses = d.fuses := by simp [Dev.malfAct]

@[simp] theorem Dev.statelessEnd_fuses (d : Dev) (n : Nat) (p : Pkt) : (d.statelessEnd n p).fuses = d.fuses := by
  simp only [Dev.statelessEnd]
  repeat' split
  all_goals simp

@[simp] theorem Dev.drainPort_fuses (d : Dev) (g port : Nat) : (d.drainPort g port).fuses = d.fuses := by simp [Dev.drainPort]
@[simp] theorem Dev.malformed_fuses (d : Dev) (n : Nat) (p : Pkt) (ps : ParseSt) : (d.malformed n p ps).fuses = d.fuses := by simp [Dev.malformed]

@[simp] theorem Dev.predict_fuses (d : Dev) (p : Pkt) (h : Nat) : (d.predict p h).1.fuses = d.fuses := by
  unfold Dev.predict
  split <;> simp

@[simp] theorem Dev.takeWin_fuses (d : Dev) (n : Nat) (p : Pkt) : (d.takeWin n p).1.fuses = d.fuses := by simp [Dev.takeWin]

@[simp] theorem Dev.stateful_fuses (d : Dev) (n : Nat) (p : Pkt) : (d.stateful n p).fuses = d.fuses := by
  simp only [Dev.stateful]
  repeat' split
  all_goals simp

@[simp] theorem Dev.windowFull_fuses (d : Dev) (g : Nat) : (d.windowFull g).fuses = d.fuses := by simp [Dev.windowFull]

@[simp] theorem Dev.parseComplete_fuses (d : Dev) (n : Nat) : (d.parseComplete n).fuses = d.fuses := by
  unfold Dev.parseComplete
  split <;> simp

@[simp] theorem Dev.patternReady_fuses (d : Dev) (n : Nat) : (d.patternReady n).fuses = d.fuses := by
  unfold Dev.patternReady
  split <;> simp

@[simp] theorem Dev.linkReceive_fuses (d : Dev) (k : Nat) (desc : Bool) : (d.linkReceive k desc).fuses = d.fuses := by
  unfold Dev.linkReceive
  split <;> simp

@[simp] theorem Dev.recordReturn_fuses (d : Dev) (n : Nat) : (d.recordReturn n).fuses = d.fuses := by
  unfold Dev.recordReturn
  split <;> simp

@[simp] theorem Dev.replayEnd_fuses (d : Dev) (n : Nat) : (d.replayEnd n).fuses = d.fuses := by
  simp only [Dev.replayEnd]
  split <;> simp

@[simp] theorem Dev.recirculate_fuses (d : Dev) (g : Nat) : (d.recirculate g).fuses = d.fuses := by
  simp only [Dev.recirculate]
  repeat' split
  all_goals simp

@[simp] theorem Dev.hintInv_fuses (d : Dev) (k : Nat) : (d.hintInv k).fuses = d.fuses := by simp [Dev.hintInv]
@[simp] theorem Dev.hintInvDone_fuses (d : Dev) (k : Nat) : (d.hintInvDone k).fuses = d.fuses := by simp [Dev.hintInvDone]

/-! ## Quoins and the atomic update unit -/

@[simp] theorem Dev.auuApply_fuses (d : Dev) (ra : Nat) (o : AuuKind) : (d.auuApply ra o).fuses = d.fuses := by
  unfold Dev.auuApply
  dsimp only
  split
  case h_1 | h_4 | h_5 => simp
  all_goals
    split
    · simp
    · split <;> simp [fuses_of_fst ‹_ = (_, _)›]

@[simp] theorem Dev.setAuuq_fuses (d : Dev) (l : List AuuOp) : (d.setAuuq l).fuses = d.fuses := by simp [Dev.setAuuq]

@[simp] theorem Dev.auuTake_fuses (d : Dev) (ra : Nat) (is : AuuKind → Bool) : (d.auuTake ra is).fuses = d.fuses := by
  simp only [Dev.auuTake]
  repeat' split
  all_goals simp

@[simp] theorem Dev.auuTakeWb_fuses (d : Dev) (ra : Nat) : (d.auuTakeWb ra).fuses = d.fuses := by
  simp only [Dev.auuTakeWb]
  repeat' split
  all_goals simp

@[simp] theorem Dev.auuDrain_fuses (ra n : Nat) (d : Dev) : (Dev.auuDrain ra n d).fuses = d.fuses := by
  induction n generalizing d with
  | zero => rfl
  | succ n ih =>
    unfold Dev.auuDrain
    split <;> simp [ih]

@[simp] theorem Dev.auuSettle_fuses (d : Dev) (e ra : Nat) : (d.auuSettle e ra).fuses = d.fuses := by simp [Dev.auuSettle]
@[simp] theorem Dev.notWaiting_fuses (d : Dev) (k : Nat) (w : QWait) (try_ : Bool) : (d.notWaiting k w try_).fuses = d.fuses := by simp [Dev.notWaiting]

@[simp] theorem Dev.qacq_fuses (d : Dev) (e ra tok : Nat) (wi try_ : Bool) : (d.qacq e ra tok wi try_).fuses = d.fuses := by
  unfold Dev.qacq
  dsimp only
  refine fuses_ite_of (by simp) (fuses_ite_of (by simp) (fuses_ite_of (by simp) ?_))
  split
  next heq => simp [fuses_of_fst heq]
  next x heq =>
    rw [← Dev.pmc_fuses d, ← Dev.tagUse_fuses (d.pmc _ _ _), ← fuses_of_fst heq]
    refine fuses_ite_of (by simp) (fuses_ite_of (by simp) (fuses_ite_of (by simp) (fuses_ite_of (by simp) (fuses_ite_of (by simp) ?_))))
    exact fuses_ite_of (by simp) (fuses_ite_of (by simp) (by simp))

@[simp] theorem Dev.quoinGrant_fuses (d : Dev) (ra : Nat) : (d.quoinGrant ra).fuses = d.fuses := by
  unfold Dev.quoinGrant
  split
  next heq => rw [fuses_of_fst heq, Dev.meet_fuses]
  next x heq =>
    rw [← Dev.meet_fuses d ra, ← fuses_of_fst heq]
    split
    · refine fuses_ite_of ?_ rfl
      dsimp only
      split
      · rw [Dev.qreturn_fuses, Dev.unwait_fuses, Dev.setQuoin_fuses]
      · rw [Dev.setQuoin_fuses]
    · refine fuses_ite_of rfl ?_
      dsimp only
      refine fuses_ite_of (Dev.needWay_fuses x ra) ?_
      split
      · exact fuses_ite_of (by rw [Dev.qreturn_fuses, Dev.unwait_fuses, Dev.needWay_fuses]) (by rw [Dev.grantWaiter_fuses, Dev.needWay_fuses])
      · rw [Dev.needWay_fuses]

@[simp] theorem Dev.quoinTimeout_fuses (d : Dev) (e : Nat) : (d.quoinTimeout e).fuses = d.fuses := by
  unfold Dev.quoinTimeout
  split <;> simp

@[simp] theorem Dev.quoinSweep_fuses (d : Dev) (ra : Nat) : (d.quoinSweep ra).fuses = d.fuses := by simp [Dev.quoinSweep]

@[simp] theorem Dev.freeHeld_fuses (d : Dev) (e ra : Nat) : (d.freeHeld e ra).fuses = d.fuses := by
  unfold Dev.freeHeld
  split <;> simp

@[simp] theorem Dev.qrel_fuses (d : Dev) (e ra tok : Nat) : (d.qrel e ra tok).fuses = d.fuses := by simp [Dev.qrel]
@[simp] theorem Dev.qread_fuses (d : Dev) (e ra tok : Nat) : (d.qread e ra tok).fuses = d.fuses := by simp [Dev.qread]

@[simp] theorem Dev.qwrite_fuses (d : Dev) (e ra tok m : Nat) (img : List Byte) : (d.qwrite e ra tok m img).fuses = d.fuses := by
  simp only [Dev.qwrite]
  repeat' split
  all_goals simp

@[simp] theorem Dev.rcmdDone_fuses (d : Dev) (k code : Nat) : (d.rcmdDone k code).fuses = d.fuses := by simp [Dev.rcmdDone]
@[simp] theorem Dev.hrecPut_fuses (d : Dev) (k ra : Nat) : (d.hrecPut k ra).fuses = d.fuses := by simp [Dev.hrecPut]
@[simp] theorem Dev.tornReadCmd_fuses (d : Dev) (k : Nat) : (d.tornReadCmd k).fuses = d.fuses := by simp [Dev.tornReadCmd]

@[simp] theorem Dev.tornRestoreCmd_fuses (d : Dev) (k : Nat) : (d.tornRestoreCmd k).fuses = d.fuses := by
  unfold Dev.tornRestoreCmd
  simp only
  split
  · simp
  · split <;> simp [fuses_of_fst ‹_ = (_, _)›]

@[simp] theorem Dev.tornEmptyCmd_fuses (d : Dev) (k : Nat) : (d.tornEmptyCmd k).fuses = d.fuses := by
  unfold Dev.tornEmptyCmd
  simp only
  split
  · simp
  · split <;> simp [fuses_of_fst ‹_ = (_, _)›]

@[simp] theorem Dev.tornPop_fuses (d : Dev) (p : Path) (k : Nat) : (d.tornPop p k).fuses = d.fuses := by
  unfold Dev.tornPop
  split <;> simp

/-! ## The flow table's own visits and commands -/

@[simp] theorem Dev.sweepShow_fuses (d : Dev) (k ra : Nat) : (d.sweepShow k ra).fuses = d.fuses := by simp [Dev.sweepShow]
@[simp] theorem Dev.passed_fuses (d : Dev) (req ra : Nat) : (d.passed req ra).fuses = d.fuses := by simp [Dev.passed]

@[simp] theorem Dev.sweepVisit_fuses (d : Dev) (ra : Nat) : (d.sweepVisit ra).fuses = d.fuses := by
  have hstore : ∀ (x : Dev) (r : Rec) (c : Prop) [Decidable c], (if c then x else x.auuStore ra r).fuses = x.fuses := fun x r c _ =>
    fuses_ite_of rfl (Dev.auuStore_fuses ..)
  unfold Dev.sweepVisit
  dsimp only
  refine fuses_ite_of rfl (fuses_ite_of (by rw [Dev.passed_fuses, Dev.sweepShow_fuses]) ?_)
  split
  next y heq => rw [fuses_of_fst heq, Dev.tagUse_fuses, Dev.sweepShow_fuses]
  next y heq _ => rw [fuses_of_fst heq, Dev.tagUse_fuses, Dev.sweepShow_fuses]
  next y heq _ =>
    have hy : y.fuses = d.fuses := by rw [fuses_of_fst heq, Dev.tagUse_fuses, Dev.sweepShow_fuses]
    rw [← hy]
    split
    next heq' => rw [fuses_of_fst heq', Dev.bodyUse_fuses]
    next z heq' =>
      rw [← Dev.bodyUse_fuses y ra, ← fuses_of_fst heq']
      refine fuses_ite_of (hstore ..) (fuses_ite_of ?_ (fuses_ite_of ?_ (fuses_ite_of ?_ ?_)))
      · rw [Dev.auuStore_fuses, hstore]
      · rw [Dev.auuIssue_fuses, hstore]
      · rw [Dev.expStall_fuses, hstore]
      · rw [Dev.auuIssue_fuses, hstore]

@[simp] theorem Dev.setWalk_fuses (d : Dev) (k : Nat) (f : Walk → Walk) : (d.setWalk k f).fuses = d.fuses := by simp [Dev.setWalk]
@[simp] theorem Dev.walkMade_fuses (d : Dev) (ra : Nat) : (d.walkMade ra).fuses = d.fuses := by simp [Dev.walkMade]

@[simp] theorem Dev.exportVisit_fuses (d : Dev) (ra : Nat) : (d.exportVisit ra).fuses = d.fuses := by
  unfold Dev.exportVisit
  dsimp only
  split
  · rfl
  · split
    · simp
    · split
      · simp [fuses_of_fst ‹_ = (_, _)›]
      · simp [fuses_of_fst ‹_ = (_, _)›]
      next heq _ =>
        split
        next heq' => simp [fuses_of_fst heq', fuses_of_fst heq]
        next heq' => simp [fuses_of_fst heq', fuses_of_fst heq]

@[simp] theorem Dev.flowFind_fuses (d : Dev) (k : Nat) (key : List Byte) : (d.flowFind k key).1.fuses = d.fuses := by
  simp only [Dev.flowFind]
  repeat' split
  all_goals simp

@[simp] theorem Dev.underEntry_fuses (d : Dev) (k : Nat) (key : List Byte) (h : Nat) (ins : Dev → Dev) (hins : ∀ x, (ins x).fuses = x.fuses) :
    (d.underEntry k key h ins).fuses = d.fuses := by
  unfold Dev.underEntry
  simp only
  split
  · exact hins d
  · split <;> simp [hins]

@[simp] theorem Dev.flowIns_fuses (d : Dev) (k : Nat) (key img : List Byte) : (d.flowIns k key img).1.fuses = d.fuses := by
  simp only [Dev.flowIns]
  repeat' split
  all_goals simp

@[simp] theorem Dev.flowPlace_fuses (d : Dev) (k stack slot alt bucket : Nat) : (d.flowPlace k stack slot alt bucket).fuses = d.fuses := by simp [Dev.flowPlace]
@[simp] theorem Dev.flowDone_fuses (d : Dev) (k : Nat) (r : FlowRes) : (d.flowDone k r).fuses = d.fuses := by simp [Dev.flowDone]
@[simp] theorem Dev.hostLookup_fuses (d : Dev) (k : Nat) : (d.hostLookup k).fuses = d.fuses := by simp [Dev.hostLookup]
@[simp] theorem Dev.hostDelete_fuses (d : Dev) (k : Nat) : (d.hostDelete k).fuses = d.fuses := by simp [Dev.hostDelete]
@[simp] theorem Dev.hostInsert_fuses (d : Dev) (k : Nat) : (d.hostInsert k).fuses = d.fuses := by simp [Dev.hostInsert]

@[simp] theorem Dev.engDelete_fuses (d : Dev) (k ra : Nat) : (d.engDelete k ra).1.fuses = d.fuses := by
  unfold Dev.engDelete
  dsimp only
  split
  · rfl
  · split
    · rfl
    · split
      next heq => simp [fuses_of_fst heq]
      next heq =>
        split
        · simp [fuses_of_fst heq]
        · split
          · simp [fuses_of_fst heq]
          · split
            next heq' => simp [fuses_of_fst heq', fuses_of_fst heq]
            next heq' => simp [fuses_of_fst heq', fuses_of_fst heq]

@[simp] theorem Dev.divDone_fuses (d : Dev) (k code : Nat) : (d.divDone k code).fuses = d.fuses := by simp [Dev.divDone]

@[simp] theorem Dev.divCmd_fuses (d : Dev) (k : Nat) (f : Dev → Nat → Bool → Dev) (h : ∀ x ra ok, (f x ra ok).fuses = x.fuses) :
    (d.divCmd k f).fuses = d.fuses := by
  simp [Dev.divCmd, h]

@[simp] theorem Dev.undivert_fuses (d : Dev) (ra : Nat) : (d.undivert ra).fuses = d.fuses := by simp [Dev.undivert]

@[simp] theorem Dev.divRelease_fuses (d : Dev) (k : Nat) : (d.divRelease k).fuses = d.fuses := by
  refine Dev.divCmd_fuses _ _ _ fun x ra ok => ?_
  have huse : (if ok then x.bodyUse ra else (x, false)).1.fuses = x.fuses := by simp
  split
  next heq => simpa [heq] using huse
  next heq => simpa [heq] using huse

@[simp] theorem Dev.divPurge_fuses (d : Dev) (k : Nat) : (d.divPurge k).fuses = d.fuses := by simp [Dev.divPurge]

/-! ## The Kosen engines -/

@[simp] theorem Dev.csPut_fuses (d : Dev) (a w : Nat) : (d.csPut a w).fuses = d.fuses := by simp [Dev.csPut]
@[simp] theorem Dev.lwrite_fuses (d : Dev) (e a : Nat) (bs : List Byte) : (d.lwrite e a bs).fuses = d.fuses := by simp [Dev.lwrite]
@[simp] theorem Dev.swrite_fuses (d : Dev) (k a : Nat) (bs : List Byte) : (d.swrite k a bs).fuses = d.fuses := by simp [Dev.swrite]
@[simp] theorem Dev.journal_fuses (d : Dev) (e : Nat) (j : Jent) : (d.journal e j).fuses = d.fuses := by simp [Dev.journal]
@[simp] theorem Dev.memIssue_fuses (d : Dev) (e : Nat) (u : UW) (vals : Option (List Nat)) : (d.memIssue e u vals).1.fuses = d.fuses := by simp [Dev.memIssue]

@[simp] theorem Dev.ldtVals_fuses (d : Dev) (k : Nat) (v : Nat) : (d.ldtVals k v).1.fuses = d.fuses := by
  unfold Dev.ldtVals
  split <;> simp

@[simp] theorem Dev.pktSend_fuses (d : Dev) (e : Nat) (fr : List Byte) (v : Nat) : (d.pktSend e fr v).1.fuses = d.fuses := by
  unfold Dev.pktSend
  dsimp only
  split
  · rfl
  · split
    next heq => simp [fuses_of_fst heq]
    next heq => simp [fuses_of_fst heq]
    next heq =>
      split
      · simp [fuses_of_fst heq]
      · split
        next hx => simp [Dev.enq_fuses hx, fuses_of_fst heq]
        next => simp [fuses_of_fst heq]

@[simp] theorem Dev.auuSend_fuses (d : Dev) (e t ra : Nat) (k : AuuKind) : (d.auuSend e t ra k).fuses = d.fuses := by simp [Dev.auuSend]

@[simp] theorem Dev.memOp_fuses (d : Dev) (e : Nat) (g : Eng) (u : UW) : (d.memOp e g u).fuses = d.fuses := by
  simp only [Dev.memOp]
  split <;> simp

@[simp] theorem Dev.memReturn_fuses (d : Dev) (e : Nat) : (d.memReturn e).fuses = d.fuses := by
  unfold Dev.memReturn
  split <;> simp

@[simp] theorem Dev.applyJournal_fuses (d : Dev) (e : Nat) (j : List Jent) : (d.applyJournal e j).fuses = d.fuses := by
  simp only [Dev.applyJournal]
  rw [foldl_fuses, foldl_fuses, foldl_fuses]
  all_goals
    intro x y
    split <;> simp

/-! ## The task schedulers -/

@[simp] theorem Dev.setEngState_fuses (d : Dev) (e v : Nat) : (d.setEngState e v).fuses = d.fuses := by simp [Dev.setEngState]
@[simp] theorem Dev.raiseIrq_fuses (d : Dev) (e n : Nat) : (d.raiseIrq e n).fuses = d.fuses := by simp [Dev.raiseIrq]
@[simp] theorem Dev.tskTrace_fuses (d : Dev) (e s typ : Nat) (pre : Bool) : (d.tskTrace e s typ pre).fuses = d.fuses := by simp [Dev.tskTrace]
@[simp] theorem Dev.setReadyList_fuses (d : Dev) (k l : Nat) (q : List Nat) : (d.setReadyList k l q).fuses = d.fuses := by simp [Dev.setReadyList]
@[simp] theorem Dev.unready_fuses (d : Dev) (k s : Nat) : (d.unready k s).fuses = d.fuses := by simp [Dev.unready]
@[simp] theorem Dev.makeReady_fuses (d : Dev) (k s : Nat) (head : Bool) : (d.makeReady k s head).fuses = d.fuses := by simp [Dev.makeReady]
@[simp] theorem Dev.loadCtx_fuses (d : Dev) (e : Nat) (c : Ctx) : (d.loadCtx e c).fuses = d.fuses := by simp [Dev.loadCtx]
@[simp] theorem Dev.quiesceTakes_fuses (d : Dev) (e upc : Nat) : (d.quiesceTakes e upc).fuses = d.fuses := by simp [Dev.quiesceTakes]
@[simp] theorem Dev.dispatch_fuses (d : Dev) (e s : Nat) : (d.dispatch e s).fuses = d.fuses := by simp [Dev.dispatch]
@[simp] theorem Dev.served_fuses (d : Dev) (k e : Nat) : (d.served k e).fuses = d.fuses := by simp [Dev.served]

@[simp] theorem Dev.seek_fuses (d : Dev) (e : Nat) : (d.seek e).fuses = d.fuses := by
  simp only [Dev.seek]
  split <;> simp

@[simp] theorem Dev.markPre_fuses (d : Dev) (k s : Nat) : (d.markPre k s).fuses = d.fuses := by
  unfold Dev.markPre
  split <;> simp

@[simp] theorem Dev.withdraw_fuses (k n : Nat) (d : Dev) : (Dev.withdraw k n d).fuses = d.fuses := by
  induction n generalizing d with
  | zero => rfl
  | succ n ih =>
    simp only [Dev.withdraw]
    split
    · rfl
    · split <;> simp [ih]

@[simp] theorem Dev.ask_fuses (d : Dev) (e : Nat) : (d.ask e).fuses = d.fuses := by simp [Dev.ask]

@[simp] theorem Dev.becomeReady_fuses (d : Dev) (k s : Nat) : (d.becomeReady k s).fuses = d.fuses := by
  simp only [Dev.becomeReady]
  split <;> simp

@[simp] theorem Dev.setEvents_fuses (d : Dev) (k s bits : Nat) : (d.setEvents k s bits).fuses = d.fuses := by simp [Dev.setEvents]
@[simp] theorem Dev.slotTimer_fuses (d : Dev) (k s : Nat) : (d.slotTimer k s).fuses = d.fuses := by simp [Dev.slotTimer]
@[simp] theorem Dev.lineRise_fuses (d : Dev) (k n : Nat) : (d.lineRise k n).fuses = d.fuses := by simp [Dev.lineRise]
@[simp] theorem Dev.eventLine_fuses (d : Dev) (k n : Nat) : (d.eventLine k n).fuses = d.fuses := by simp [Dev.eventLine]
@[simp] theorem Dev.loadTimer_fuses (d : Dev) (k s tmo : Nat) : (d.loadTimer k s tmo).fuses = d.fuses := by simp [Dev.loadTimer]
@[simp] theorem Dev.yStatus_fuses (d : Dev) (e breg v : Nat) : (d.yStatus e breg v).fuses = d.fuses := by simp [Dev.yStatus]
@[simp] theorem Dev.qheld_fuses (d : Dev) (e breg : Nat) : (d.qheld e breg).fuses = d.fuses := by simp [Dev.qheld]
@[simp] theorem Dev.saveCtx_fuses (d : Dev) (e s breg how mask : Nat) (timed : Bool) : (d.saveCtx e s breg how mask timed).fuses = d.fuses := by
  simp [Dev.saveCtx]
@[simp] theorem Dev.waitOut_fuses (d : Dev) (e s breg mask tmo : Nat) : (d.waitOut e s breg mask tmo).fuses = d.fuses := by simp [Dev.waitOut]
@[simp] theorem Dev.threadExit_fuses (d : Dev) (e s : Nat) : (d.threadExit e s).fuses = d.fuses := by simp [Dev.threadExit]
@[simp] theorem Dev.unmark_fuses (d : Dev) (e : Nat) (switched : Bool) : (d.unmark e switched).fuses = d.fuses := by simp [Dev.unmark]
@[simp] theorem Dev.yieldPoint_fuses (d : Dev) (e : Nat) : (d.yieldPoint e).fuses = d.fuses := by simp [Dev.yieldPoint]

@[simp] theorem Dev.wait_fuses (d : Dev) (e breg req : Nat) : (d.wait e breg req).fuses = d.fuses := by
  unfold Dev.wait
  extract_lets k x
  have hx : x.fuses = d.fuses := Dev.yieldPoint_fuses ..
  clear_value x
  split
  · exact (Dev.ask_fuses ..).trans hx
  · refine fuses_ite_of ((Dev.qheld_fuses ..).trans hx) (fuses_ite_of ((Dev.yStatus_fuses ..).trans hx) ?_)
    exact (Dev.ask_fuses ..).trans ((Dev.unmark_fuses ..).trans (fuses_ite_of ((Dev.threadExit_fuses ..).trans hx) ((Dev.waitOut_fuses ..).trans hx)))

@[simp] theorem Dev.yield__fuses (d : Dev) (e breg req : Nat) : (d.yield_ e breg req).fuses = d.fuses := by
  simp only [Dev.yield_]
  repeat' split
  all_goals simp

@[simp] theorem Dev.engClear_fuses (d : Dev) (e : Nat) : (d.engClear e).fuses = d.fuses := by simp [Dev.engClear]
@[simp] theorem Dev.busDrop_fuses (d : Dev) (e : Nat) : (d.busDrop e).fuses = d.fuses := by simp [Dev.busDrop]
@[simp] theorem Dev.engRegs_fuses (d : Dev) (e : Nat) : (d.engRegs e).fuses = d.fuses := by simp [Dev.engRegs]
@[simp] theorem Dev.notIdle_fuses (d : Dev) (e : Nat) : (d.notIdle e).fuses = d.fuses := by simp [Dev.notIdle]
@[simp] theorem Dev.takeRole_fuses (d : Dev) (e : Nat) : (d.takeRole e).fuses = d.fuses := by simp [Dev.takeRole]
@[simp] theorem Dev.engReset_fuses (d : Dev) (e : Nat) : (d.engReset e).fuses = d.fuses := by simp [Dev.engReset]

@[simp] theorem Dev.engResetAll_fuses (d : Dev) (e : Nat) (bite : Bool) : (d.engResetAll e bite).fuses = d.fuses := by
  unfold Dev.engResetAll
  split <;> simp

@[simp] theorem Dev.restartSlot_fuses (d : Dev) (k s : Nat) : (d.restartSlot k s).fuses = d.fuses := by simp [Dev.restartSlot]

@[simp] theorem Dev.watchdogBite_fuses (d : Dev) (e : Nat) : (d.watchdogBite e).fuses = d.fuses := by
  simp only [Dev.watchdogBite]
  repeat' split
  all_goals simp

@[simp] theorem Dev.tskDone_fuses (d : Dev) (k code : Nat) : (d.tskDone k code).fuses = d.fuses := by simp [Dev.tskDone]
@[simp] theorem Dev.newThread_fuses (d : Dev) (k s entry prio intm arg : Nat) : (d.newThread k s entry prio intm arg).fuses = d.fuses := by simp [Dev.newThread]
@[simp] theorem Dev.vendorThread_fuses (d : Dev) (k : Nat) (s : Nat) : (d.vendorThread k s).fuses = d.fuses := by simp [Dev.vendorThread]
@[simp] theorem Dev.vendorThreads_fuses (d : Dev) : d.vendorThreads.fuses = d.fuses := by simp [Dev.vendorThreads]
@[simp] theorem Dev.tskCreate_fuses (d : Dev) (k s : Nat) : (d.tskCreate k s).fuses = d.fuses := by simp [Dev.tskCreate]
@[simp] theorem Dev.tskKill_fuses (d : Dev) (k s : Nat) : (d.tskKill k s).fuses = d.fuses := by simp [Dev.tskKill]
@[simp] theorem Dev.tskRequeue_fuses (d : Dev) (k s : Nat) : (d.tskRequeue k s).fuses = d.fuses := by simp [Dev.tskRequeue]
@[simp] theorem Dev.dropMark_fuses (d : Dev) (k e s : Nat) : (d.dropMark k e s).fuses = d.fuses := by simp [Dev.dropMark]

@[simp] theorem Dev.reeval_fuses (d : Dev) (k s : Nat) : (d.reeval k s).fuses = d.fuses := by
  simp only [Dev.reeval]
  repeat' split
  all_goals simp

@[simp] theorem Dev.tskSetprio_fuses (d : Dev) (k s : Nat) : (d.tskSetprio k s).fuses = d.fuses := by simp [Dev.tskSetprio]

/-! ## How an engine issues a microword -/

@[simp] theorem Dev.engTrace_fuses (d : Dev) (e typ out : Nat) : (d.engTrace e typ out).fuses = d.fuses := by simp [Dev.engTrace]
@[simp] theorem Dev.mchkStop_fuses (d : Dev) (e cause addr : Nat) : (d.mchkStop e cause addr).fuses = d.fuses := by simp [Dev.mchkStop]
@[simp] theorem Dev.repairWord_fuses (d : Dev) (k a : Nat) : (d.repairWord k a).1.fuses = d.fuses := by simp [Dev.repairWord]
@[simp] theorem Dev.resumeEng_fuses (d : Dev) (e : Nat) : (d.resumeEng e).fuses = d.fuses := by simp [Dev.resumeEng]
@[simp] theorem Dev.mchkRespond_fuses (d : Dev) (e cause addr : Nat) : (d.mchkRespond e cause addr).1.fuses = d.fuses := by simp [Dev.mchkRespond]
@[simp] theorem Dev.parFail_fuses (d : Dev) (e : Nat) : (d.parFail e).fuses = d.fuses := by simp [Dev.parFail]
@[simp] theorem Dev.mcheck_fuses (d : Dev) (e cause addr : Nat) (par : Bool) : (d.mcheck e cause addr par).fuses = d.fuses := by simp [Dev.mcheck]
@[simp] theorem Dev.releaseQuoins_fuses (d : Dev) (e : Nat) (last : Option Nat) : (d.releaseQuoins e last).fuses = d.fuses :=
  foldl_fuses _ (fun x r => Dev.freeHeld_fuses x e r) _ _
@[simp] theorem Dev.itemOut_fuses (d : Dev) (n : Nat) (p : Pkt) (oc : Oc) : (d.itemOut n p oc).fuses = d.fuses := by simp [Dev.itemOut]

@[simp] theorem Dev.doneCommit_fuses (d : Dev) (n : Nat) (p : Pkt) (ra : Nat) : (d.doneCommit n p ra).fuses = d.fuses := by
  unfold Dev.doneCommit
  dsimp only
  split
  next heq => rw [Dev.divertOut_fuses, fuses_of_fst heq, Dev.recUse_fuses]
  next heq =>
    split
    all_goals
      next heq' => rw [Dev.itemOut_fuses, fuses_of_fst heq', Dev.evaluate_fuses, fuses_of_fst heq, Dev.recUse_fuses]

@[simp] theorem Dev.doneDivert_fuses (d : Dev) (n ra : Nat) : (d.doneDivert n ra).fuses = d.fuses := by simp [Dev.doneDivert]

@[simp] theorem Dev.doneItem_fuses (d : Dev) (it : Item) (out : Nat) : (d.doneItem it out).fuses = d.fuses := by
  simp only [Dev.doneItem]
  repeat' split
  all_goals simp

@[simp] theorem Dev.setupReject_fuses (d : Dev) (ra : Nat) (drop : Bool) (src : Nat) : (d.setupReject ra drop src).fuses = d.fuses := by
  have hempty : ((d.updSlot ra (fun s => { s with st := .empty, gen := s.gen + 1 })).tagWritten ra).fuses = d.fuses := by
    rw [Dev.tagWritten_fuses, Dev.updSlot_fuses]
  unfold Dev.setupReject
  dsimp only
  split
  · rw [Dev.put_fuses, hempty]
  · rw [foldl_fuses, Dev.delPend_fuses, Dev.put_fuses, hempty]
    intro x n
    split
    · exact Dev.linkThrough_fuses x n
    · refine fuses_ite_of (fuses_ite_of ?_ ?_) ?_
      · rw [Dev.flushOut_fuses, Dev.bump_fuses, Dev.linkThrough_fuses]
      · rw [Dev.dropPkt_fuses, Dev.bump_fuses, Dev.linkThrough_fuses]
      · rw [Dev.divertOut_fuses, Dev.linkThrough_fuses]

@[simp] theorem Dev.setupCommit_fuses (d : Dev) (e ra : Nat) : (d.setupCommit e ra).fuses = d.fuses := by
  unfold Dev.setupCommit
  simp only
  split
  next heq => simp [fuses_of_fst heq]
  next x heq =>
    rw [← Dev.recUse_fuses d, ← fuses_of_fst heq]
    split <;> simp

@[simp] theorem Dev.doneSetup_fuses (d : Dev) (e : Nat) (it : Item) (out : Nat) : (d.doneSetup e it out).fuses = d.fuses := by
  simp only [Dev.doneSetup]
  repeat' split
  all_goals simp

@[simp] theorem Dev.engIdle_fuses (d : Dev) (e : Nat) : (d.engIdle e).fuses = d.fuses := by simp [Dev.engIdle]

@[simp] theorem Dev.done_fuses (d : Dev) (e v : Nat) : (d.done e v).fuses = d.fuses := by
  unfold Dev.done
  split <;> simp

@[simp] theorem Dev.openWin_fuses (d : Dev) (e : Nat) (g : Eng) : (d.openWin e g).fuses = d.fuses := by simp [Dev.openWin]

@[simp] theorem Dev.endAtom_fuses (d : Dev) (e : Nat) : (d.endAtom e).fuses = d.fuses := by
  unfold Dev.endAtom
  split <;> simp

@[simp] theorem Dev.iret_fuses (d : Dev) (e : Nat) : (d.iret e).fuses = d.fuses := by
  unfold Dev.iret
  split <;> simp

@[simp] theorem Dev.call_fuses (d : Dev) (e next a : Nat) : (d.call e next a).fuses = d.fuses := by simp [Dev.call]

@[simp] theorem Dev.ret__fuses (d : Dev) (e : Nat) : (d.ret_ e).fuses = d.fuses := by
  unfold Dev.ret_
  split <;> simp

@[simp] theorem Dev.waitWord_fuses (d : Dev) (e breg req : Nat) : (d.waitWord e breg req).fuses = d.fuses := by simp [Dev.waitWord]

@[simp] theorem Dev.turnOver_fuses (d : Dev) (e : Nat) (u : UW) (v : Nat) : (d.turnOver e u v).fuses = d.fuses := by
  unfold Dev.turnOver
  split <;> simp

@[simp] theorem Dev.branch_fuses (d : Dev) (e : Nat) (g : Eng) (u : UW) : (d.branch e g u).fuses = d.fuses := by
  unfold Dev.branch
  split <;> simp

@[simp] theorem Dev.ldhTime_fuses (d : Dev) (e : Nat) : (d.ldhTime e).fuses = d.fuses := by simp [Dev.ldhTime]
@[simp] theorem Dev.settleMem_fuses (d : Dev) (e : Nat) (g : Eng) (u : UW) : (d.settleMem e g u).fuses = d.fuses := by simp [Dev.settleMem]
@[simp] theorem Dev.runWord_fuses (d : Dev) (e : Nat) (u : UW) (w : Nat) : (d.runWord e u w).fuses = d.fuses := by simp [Dev.runWord]

@[simp] theorem Dev.memBack_fuses (d : Dev) (e : Nat) : (d.memBack e).fuses = d.fuses := by
  simp only [Dev.memBack]
  split <;> simp

@[simp] theorem Dev.issueTime_fuses (d : Dev) (e : Nat) : (d.issueTime e).fuses = d.fuses := by simp [Dev.issueTime]

@[simp] theorem Dev.issueWord_fuses (d : Dev) (e : Nat) : (d.issueWord e).fuses = d.fuses := by
  simp only [Dev.issueWord]
  repeat' split
  all_goals simp

@[simp] theorem Dev.runUnnamed_fuses (e n : Nat) (d : Dev) : (Dev.runUnnamed e n d).fuses = d.fuses := by
  induction n generalizing d with
  | zero => rfl
  | succ n ih => simp [Dev.runUnnamed, ih]

@[simp] theorem Dev.kIssue_fuses (d : Dev) (e : Nat) (is : UW → Bool) : (d.kIssue e is).fuses = d.fuses := by simp [Dev.kIssue]
@[simp] theorem Dev.badItem_fuses (d : Dev) (e : Nat) (it : Item) (par : Bool) : (d.badItem e it par).fuses = d.fuses := by simp [Dev.badItem]
@[simp] theorem Dev.takeItem_fuses (d : Dev) (e : Nat) (it : Item) : (d.takeItem e it).fuses = d.fuses := by simp [Dev.takeItem]

@[simp] theorem Dev.itemTake_fuses (d : Dev) (e : Nat) : (d.itemTake e).fuses = d.fuses := by
  simp only [Dev.itemTake]
  split <;> simp

@[simp] theorem Dev.takeIrq_fuses (d : Dev) (e n : Nat) : (d.takeIrq e n).fuses = d.fuses := by simp [Dev.takeIrq]

@[simp] theorem Dev.engIrq_fuses (d : Dev) (e : Nat) : (d.engIrq e).fuses = d.fuses := by
  simp only [Dev.engIrq]
  split <;> simp

@[simp] theorem Dev.winLimit_fuses (d : Dev) (e : Nat) : (d.winLimit e).fuses = d.fuses := by
  simp only [Dev.winLimit]
  repeat' split
  all_goals simp

@[simp] theorem Dev.roleWrite_fuses (d : Dev) (p : Path) (e : Nat) (role : Bool) : (d.roleWrite p e role).fuses = d.fuses := by simp [Dev.roleWrite]
@[simp] theorem Dev.roleSwitch_fuses (d : Dev) (e : Nat) : (d.roleSwitch e).fuses = d.fuses := by simp [Dev.roleSwitch]

@[simp] theorem Dev.busGrant_fuses (d : Dev) (k : Nat) (req : List Nat) (beats : Nat) : (d.busGrant k req beats).fuses = d.fuses := by
  unfold Dev.busGrant
  split <;> simp

@[simp] theorem Dev.scrAccess_fuses (d : Dev) (p : Path) (k off : Nat) (wr : Option Word) : (d.scrAccess p k off wr).fuses = d.fuses := by
  unfold Dev.scrAccess
  split <;> simp

@[simp] theorem Dev.scrTimeout_fuses (d : Dev) (p : Path) (k off : Nat) (wr : Option Word) : (d.scrTimeout p k off wr).fuses = d.fuses := by
  unfold Dev.scrTimeout
  split <;> simp

@[simp] theorem Dev.evselWrite_fuses (d : Dev) (k n v : Nat) : (d.evselWrite k n v).fuses = d.fuses := by simp [Dev.evselWrite]
@[simp] theorem Dev.pcSample_fuses (d : Dev) (e : Nat) : (d.pcSample e).fuses = d.fuses := by simp [Dev.pcSample]

/-! ## The HBM controllers -/

@[simp] theorem Dev.memTrace_fuses (d : Dev) (c u typ bank req row col : Nat) : (d.memTrace c u typ bank req row col).fuses = d.fuses := by simp [Dev.memTrace]
@[simp] theorem Dev.nrefDraw_fuses (d : Dev) (c u bank row : Nat) : (d.nrefDraw c u bank row).fuses = d.fuses := by simp [Dev.nrefDraw]

@[simp] theorem Dev.precharge_fuses (d : Dev) (c u bank : Nat) : (d.precharge c u bank).fuses = d.fuses := by
  unfold Dev.precharge
  split <;> simp

@[simp] theorem Dev.nrefRow_fuses (d : Dev) (c u bank row : Nat) : (d.nrefRow c u bank row).fuses = d.fuses := by simp [Dev.nrefRow]
@[simp] theorem Dev.nrefDo_fuses (d : Dev) (c u bank : Nat) : (d.nrefDo c u bank).fuses = d.fuses := by simp [Dev.nrefDo]
@[simp] theorem Dev.activate_fuses (d : Dev) (c u bank row req col : Nat) : (d.activate c u bank row req col).fuses = d.fuses := by simp [Dev.activate]
@[simp] theorem Dev.elast_fuses (d : Dev) (c : Nat) (q : HbmReq) (typ : Nat) : (d.elast c q typ).fuses = d.fuses := by simp [Dev.elast]
@[simp] theorem Dev.memEvent_fuses (d : Dev) (c : Nat) (q : HbmReq) (code cls typ : Nat) (inj : Bool) (r : Resp) :
    (d.memEvent c q code cls typ inj r).fuses = d.fuses := by
  simp [Dev.memEvent]

@[simp] theorem Dev.passOver_fuses (d : Dev) (c : Nat) (q : HbmReq) : (d.passOver c q).fuses = d.fuses := by
  unfold Dev.passOver
  split <;> simp

@[simp] theorem Dev.pageFail_fuses (d : Dev) (c : Nat) (q : HbmReq) : (d.pageFail c q).fuses = d.fuses := by simp [Dev.pageFail]

@[simp] theorem Dev.loadSpoil_fuses (d : Dev) (c : Nat) (q : HbmReq) : (d.loadSpoil c q).fuses = d.fuses := by
  refine foldl_fuses _ (fun x i => ?_) _ _
  split
  · dsimp only
    rw [Dev.updEng_fuses, foldl_fst_fuses]
    intro y vj
    split <;> simp
  · rfl

@[simp] theorem Dev.spoil_fuses (d : Dev) (c : Nat) (q : HbmReq) : (d.spoil c q).fuses = d.fuses := by
  unfold Dev.spoil
  split <;> simp

@[simp] theorem Dev.memDouble_fuses (d : Dev) (c u : Nat) (q : HbmReq) (inj : Bool) : (d.memDouble c u q inj).fuses = d.fuses := by simp [Dev.memDouble]
@[simp] theorem Dev.markFailed_fuses (d : Dev) (c : Nat) (q : HbmReq) : (d.markFailed c q).fuses = d.fuses := by simp [Dev.markFailed]
@[simp] theorem Dev.writeBack_fuses (d : Dev) (c u : Nat) (q : HbmReq) : (d.writeBack c u q).fuses = d.fuses := by simp [Dev.writeBack]

@[simp] theorem Dev.memErr_fuses (d : Dev) (c u : Nat) (q : HbmReq) (e : HbmErr) (inj : Bool) : (d.memErr c u q e inj).fuses = d.fuses := by
  unfold Dev.memErr
  split <;> simp

@[simp] theorem Dev.memCheck_fuses (d : Dev) (c u : Nat) (q : HbmReq) (rd : Bool) : (d.memCheck c u q rd).fuses = d.fuses := by
  unfold Dev.memCheck
  split <;> simp

@[simp] theorem Dev.drainState_fuses (d : Dev) (c u : Nat) : (d.drainState c u).fuses = d.fuses := by simp [Dev.drainState]
@[simp] theorem Dev.accept_fuses (d : Dev) (c u : Nat) (arr : List HbmReq) : (d.accept c u arr).fuses = d.fuses := by simp [Dev.accept]
@[simp] theorem Dev.waitCount_fuses (d : Dev) (c u : Nat) : (d.waitCount c u).fuses = d.fuses := by simp [Dev.waitCount]
@[simp] theorem Dev.pickWrite_fuses (d : Dev) (c u : Nat) : (d.pickWrite c u).2.fuses = d.fuses := by simp [Dev.pickWrite]

@[simp] theorem Dev.pick_fuses (d : Dev) (c u : Nat) : (d.pick c u).2.fuses = d.fuses := by
  simp only [Dev.pick]
  repeat' split
  all_goals simp

@[simp] theorem Dev.shutRows_fuses (d : Dev) (c u : Nat) : (d.shutRows c u).fuses = d.fuses := by simp [Dev.shutRows]
@[simp] theorem Dev.access_fuses (d : Dev) (c u : Nat) (q : HbmReq) (rd : Bool) : (d.access c u q rd).fuses = d.fuses := by simp [Dev.access]
@[simp] theorem Dev.flowAge_fuses (d : Dev) (c u age : Nat) (w : HbmWait) : (d.flowAge c u age w).fuses = d.fuses := by simp [Dev.flowAge]

@[simp] theorem Dev.serveRead_fuses (d : Dev) (c u age i : Nat) : (d.serveRead c u age i).fuses = d.fuses := by
  simp only [Dev.serveRead]
  split <;> simp

@[simp] theorem Dev.refreshBank_fuses (d : Dev) (c u bank : Nat) : (d.refreshBank c u bank).fuses = d.fuses := by simp [Dev.refreshBank]

@[simp] theorem Dev.serve_fuses (d : Dev) (c u age : Nat) (x : Pick) : (d.serve c u age x).fuses = d.fuses := by
  simp only [Dev.serve]
  repeat' split
  all_goals simp

@[simp] theorem Dev.slots_fuses (c u age n : Nat) (d : Dev) : (Dev.slots c u age n d).fuses = d.fuses := by
  induction n generalizing d with
  | zero => rfl
  | succ n ih => simp [Dev.slots, ih]

@[simp] theorem Dev.hbmRead_fuses (d : Dev) (rd : HbmRead) : (d.hbmRead rd).fuses = d.fuses := by simp [Dev.hbmRead]

@[simp] theorem Dev.panicRaise_fuses (d : Dev) (c u : Nat) (arr : List HbmReq) : (d.panicRaise c u arr).fuses = d.fuses := by
  simp only [Dev.panicRaise]
  repeat' split
  all_goals simp

@[simp] theorem Dev.refreshDue_fuses (d : Dev) (c u bank : Nat) : (d.refreshDue c u bank).fuses = d.fuses := by simp [Dev.refreshDue]
@[simp] theorem Dev.auuFinish_fuses (d : Dev) : d.auuFinish.fuses = d.fuses := by simp [Dev.auuFinish]
@[simp] theorem Dev.loadsEnd_fuses (d : Dev) : d.loadsEnd.fuses = d.fuses := by simp [Dev.loadsEnd]

@[simp] theorem Dev.emptyPch_fuses (c u n : Nat) (d : Dev) : (Dev.emptyPch c u n d).fuses = d.fuses := by
  induction n generalizing d with
  | zero => rfl
  | succ n ih => simp [Dev.emptyPch, ih]

@[simp] theorem Dev.quiesceHbm_fuses (d : Dev) : d.quiesceHbm.fuses = d.fuses := by simp [Dev.quiesceHbm]
@[simp] theorem Dev.stackTemp_fuses (d : Dev) (s : Nat) (t : Int) : (d.stackTemp s t).fuses = d.fuses := by simp [Dev.stackTemp]
@[simp] theorem Dev.trainRecord_fuses (d : Dev) (s w : Nat) (inj : Bool) : (d.trainRecord s w inj).fuses = d.fuses := by simp [Dev.trainRecord]
@[simp] theorem Dev.trainEvent_fuses (d : Dev) (s step code chan : Nat) : (d.trainEvent s step code chan).fuses = d.fuses := by simp [Dev.trainEvent]

@[simp] theorem Dev.recentre_fuses (d : Dev) (s : Nat) (edge : Option Nat) : (d.recentre s edge).fuses = d.fuses := by
  unfold Dev.recentre
  split <;> simp

/-! ## Error events that no other block raises, and fault injection -/

@[simp] theorem Dev.plantMism_fuses (d : Dev) (k b r : Nat) : (d.plantMism k b r).fuses = d.fuses := by
  simp only [Dev.plantMism]
  split <;> simp

@[simp] theorem Dev.plantShadow_fuses (d : Dev) (k b r : Nat) : (d.plantShadow k b r).fuses = d.fuses := by
  simp only [Dev.plantShadow]
  split <;> simp

@[simp] theorem Dev.synth_fuses (d : Dev) (k code inst typ : Nat) : (d.synth k code inst typ).fuses = d.fuses := by simp [Dev.synth]
@[simp] theorem Dev.flitFault_fuses (d : Dev) (k kind : Nat) : (d.flitFault k kind).fuses = d.fuses := by simp [Dev.flitFault]

@[simp] theorem Dev.plant_fuses (d : Dev) (k : Nat) : (d.plant k).fuses = d.fuses := by
  simp only [Dev.plant]
  split <;> simp

@[simp] theorem Dev.injFields_fuses (d : Dev) (k v : Nat) : (d.injFields k v).fuses = d.fuses := by simp [Dev.injFields]
@[simp] theorem Dev.injArm_fuses (d : Dev) (p : Path) (k v : Nat) : (d.injArm p k v).fuses = d.fuses := by simp [Dev.injArm]
@[simp] theorem Dev.injCancel_fuses (d : Dev) (k : Nat) : (d.injCancel k).fuses = d.fuses := by simp [Dev.injCancel]
@[simp] theorem Dev.injWrite_fuses (d : Dev) (p : Path) (k v : Nat) : (d.injWrite p k v).fuses = d.fuses := by simp [Dev.injWrite]
@[simp] theorem Dev.fifoFail_fuses (d : Dev) (p : Nat) (tx : Bool) : (d.fifoFail p tx).fuses = d.fuses := by simp [Dev.fifoFail]

theorem Dev.eventOp_fuses {d x : Dev} {ev : ErrEvent} (h : d.eventOp ev = some x) : x.fuses = d.fuses := by
  unfold Dev.eventOp at h
  dsimp only at h
  split at h
  · split_ifs at h
    obtain rfl := Option.some.inj h
    simp
  · obtain ⟨y, -, rfl⟩ := Option.map_eq_some_iff.mp h
    simp
  · split_ifs at h
    obtain rfl := Option.some.inj h
    simp
  · split_ifs at h
    obtain rfl := Option.some.inj h
    simp
  · split at h
    · split_ifs at h
      obtain rfl := Option.some.inj h
      simp
    · simp at h
  · rw [Option.ite_none_right_eq_some] at h
    obtain ⟨-, h⟩ := h
    obtain ⟨y, -, rfl⟩ := Option.map_eq_some_iff.mp h
    simp
  · obtain ⟨y, -, rfl⟩ := Option.map_eq_some_iff.mp h
    simp
  · split_ifs at h
    obtain rfl := Option.some.inj h
    simp
  · simp at h

@[simp] theorem Dev.recordEvent_fuses (d : Dev) (ev : ErrEvent) : (d.recordEvent ev).fuses = d.fuses := by
  unfold Dev.recordEvent
  split
  next x hx => exact Dev.eventOp_fuses hx
  next => simp

/-! ## Trace control -/

@[simp] theorem Dev.trcClear_fuses (d : Dev) (k : Nat) : (d.trcClear k).fuses = d.fuses := by simp [Dev.trcClear]
@[simp] theorem Dev.trcCtl_fuses (d : Dev) (k v : Nat) : (d.trcCtl k v).fuses = d.fuses := by simp [Dev.trcCtl]
@[simp] theorem Dev.trcStop_fuses (d : Dev) (k : Nat) : (d.trcStop k).fuses = d.fuses := by simp [Dev.trcStop]
@[simp] theorem Dev.trcMark_fuses (d : Dev) (k v : Nat) : (d.trcMark k v).fuses = d.fuses := by simp [Dev.trcMark]

@[simp] theorem Dev.setTrcIdx_fuses (d : Dev) (p : Path) (k v : Nat) : (d.setTrcIdx p k v).fuses = d.fuses := by
  unfold Dev.setTrcIdx
  split <;> simp

@[simp] theorem Dev.trcLatch_fuses (d : Dev) (p : Path) (k : Nat) : (d.trcLatch p k).fuses = d.fuses := by
  unfold Dev.trcLatch
  split <;> simp

@[simp] theorem Dev.measure_fuses (d : Dev) (typ idx svn id : Nat) (digest : List Byte) : (d.measure typ idx svn id digest).fuses = d.fuses := by
  simp [Dev.measure]
@[simp] theorem Dev.imprint_fuses (d : Dev) : d.imprint.fuses = d.fuses := by simp [Dev.imprint]
@[simp] theorem Dev.otpDone_fuses (d : Dev) (code : Nat) : (d.otpDone code).fuses = d.fuses := by simp [Dev.otpDone]
@[simp] theorem Dev.attDone_fuses (d : Dev) (code : Nat) : (d.attDone code).fuses = d.fuses := by simp [Dev.attDone]
@[simp] theorem Dev.attStart_fuses (d : Dev) (p : Path) : (d.attStart p).fuses = d.fuses := by simp [Dev.attStart]

@[simp] theorem Dev.attComplete_fuses (d : Dev) (dmaOk : Bool) : (d.attComplete dmaOk).fuses = d.fuses := by
  unfold Dev.attComplete
  split <;> simp

@[simp] theorem Dev.mregRead_fuses (d : Dev) (p : Path) : (d.mregRead p).fuses = d.fuses := by
  unfold Dev.mregRead
  split <;> simp

@[simp] theorem Dev.tapBypass_fuses (d : Dev) : d.tapBypass.fuses = d.fuses := by simp [Dev.tapBypass]
@[simp] theorem Dev.tapSample_fuses (d : Dev) (bits : List Bool) : (d.tapSample bits).fuses = d.fuses := by simp [Dev.tapSample]
@[simp] theorem Dev.tapExtest_fuses (d : Dev) : d.tapExtest.fuses = d.fuses := by simp [Dev.tapExtest]
@[simp] theorem Dev.dispPut_fuses (d : Dev) (op v : Nat) : (d.dispPut op v).fuses = d.fuses := by simp [Dev.dispPut]
@[simp] theorem Dev.recPut_fuses (d : Dev) (r : URec) : (d.recPut r).fuses = d.fuses := by simp [Dev.recPut]
@[simp] theorem Dev.patchVer_fuses (d : Dev) (f : String) (v : Nat) : (d.patchVer f v).fuses = d.fuses := by simp [Dev.patchVer]
@[simp] theorem Dev.bootStop_fuses (d : Dev) (code img : Nat) : (d.bootStop code img).fuses = d.fuses := by simp [Dev.bootStop]
@[simp] theorem Dev.bootWrite_fuses (d : Dev) (is : List (Nat × List Byte)) : (d.bootWrite is).fuses = d.fuses := by simp [Dev.bootWrite]

/-! ## What a forme sets and what discarding it clears -/

@[simp] theorem Dev.resetFields_fuses (d : Dev) (fs : RegSpec → List RField) : (d.resetFields fs).fuses = d.fuses := by simp [Dev.resetFields]
@[simp] theorem Dev.resetRegs_fuses (d : Dev) (is : Hit → Bool) : (d.resetRegs is).fuses = d.fuses := by simp [Dev.resetRegs]
@[simp] theorem Dev.clearTables_fuses (d : Dev) : d.clearTables.fuses = d.fuses := by simp [Dev.clearTables]
@[simp] theorem Dev.clearOwner_fuses (d : Dev) (keep : List Nat) : (d.clearOwner keep).fuses = d.fuses := by simp [Dev.clearOwner]
@[simp] theorem Dev.clearGates_fuses (d : Dev) : d.clearGates.fuses = d.fuses := by simp [Dev.clearGates]
@[simp] theorem Dev.clearTimers_fuses (d : Dev) (secs : List Section) : (d.clearTimers secs).fuses = d.fuses := by simp [Dev.clearTimers]
@[simp] theorem Dev.clearPins_fuses (d : Dev) : d.clearPins.fuses = d.fuses := by simp [Dev.clearPins]
@[simp] theorem Dev.setFields_fuses (d : Dev) (r : RegSpec) (ix : List Nat) (fs : List RField) (v : Nat) : (d.setFields r ix fs v).fuses = d.fuses := by
  simp [Dev.setFields]

@[simp] theorem Dev.recWrite_fuses (d : Dev) (typ : Nat) (r : RRec) : (d.recWrite typ r).fuses = d.fuses := by
  unfold Dev.recWrite
  split <;> simp

@[simp] theorem Dev.recsWrite_fuses (d : Dev) (typ : Nat) (b : List Byte) : (d.recsWrite typ b).fuses = d.fuses := by simp [Dev.recsWrite]
@[simp] theorem Dev.accrueEvery_fuses (d : Dev) : d.accrueEvery.fuses = d.fuses := by simp [Dev.accrueEvery]
@[simp] theorem Dev.clipMeters_fuses (d : Dev) : d.clipMeters.fuses = d.fuses := by simp [Dev.clipMeters]
@[simp] theorem Dev.startMeters_fuses (d : Dev) : d.startMeters.fuses = d.fuses := by simp [Dev.startMeters]
@[simp] theorem Dev.clipEvery_fuses (d : Dev) : d.clipEvery.fuses = d.fuses := by simp [Dev.clipEvery]
@[simp] theorem Dev.shaped_fuses (d : Dev) (f : Dev → Dev) (h : ∀ x, (f x).fuses = x.fuses) : (d.shaped f).fuses = d.fuses := by simp [Dev.shaped, h]
@[simp] theorem Dev.formeDefaults_fuses (d : Dev) : d.formeDefaults.fuses = d.fuses := by simp [Dev.formeDefaults]
@[simp] theorem Dev.formeDiscard_fuses (d : Dev) : d.formeDiscard.fuses = d.fuses := by simp [Dev.formeDiscard]

@[simp] theorem Dev.setFlow_fuses (d : Dev) (b : List Byte) : (d.setFlow b).fuses = d.fuses := by
  unfold Dev.setFlow
  simp only
  rw [foldl_fuses]
  · simp
  · intro x r
    split <;> simp

@[simp] theorem Dev.setTables_fuses (d : Dev) (b : List Byte) : (d.setTables b).fuses = d.fuses := by simp [Dev.setTables]
@[simp] theorem Dev.setTcam_fuses (d : Dev) (b : List Byte) : (d.setTcam b).fuses = d.fuses := by simp [Dev.setTcam]
@[simp] theorem Dev.setExact_fuses (d : Dev) (b : List Byte) : (d.setExact b).fuses = d.fuses := by simp [Dev.setExact]
@[simp] theorem Dev.setQueue_fuses (d : Dev) (b : List Byte) : (d.setQueue b).fuses = d.fuses := by simp [Dev.setQueue]

@[simp] theorem Dev.setQuota_fuses (d : Dev) (b : List Byte) : (d.setQuota b).fuses = d.fuses := by
  refine foldl_fuses _ (fun x r => foldl_fuses _ (fun y k => ?_) _ _) _ _
  simp only
  split <;> simp

@[simp] theorem Dev.setMalf_fuses (d : Dev) (b : List Byte) : (d.setMalf b).fuses = d.fuses := by simp [Dev.setMalf]
@[simp] theorem Dev.setRecs_fuses (d : Dev) (typ : Nat) (b : List Byte) : (d.setRecs typ b).fuses = d.fuses := by simp [Dev.setRecs]
@[simp] theorem Dev.setTimer_fuses (d : Dev) (k n phase period : Nat) : (d.setTimer k n phase period).fuses = d.fuses := by simp [Dev.setTimer]
@[simp] theorem Dev.claimTimers_fuses (d : Dev) (s : Section) : (d.claimTimers s).fuses = d.fuses := by simp [Dev.claimTimers]
@[simp] theorem Dev.setPins_fuses (d : Dev) (b : List Byte) : (d.setPins b).fuses = d.fuses := by simp [Dev.setPins]

@[simp] theorem Dev.setExport_fuses (d : Dev) (s : Section) (k : Nat) : (d.setExport s k).fuses = d.fuses := by
  unfold Dev.setExport
  split <;> simp

@[simp] theorem Dev.setCu_fuses (d : Dev) (b : List Byte) : (d.setCu b).fuses = d.fuses := by simp [Dev.setCu]

@[simp] theorem Dev.setSection_fuses (d : Dev) (s : Section) : (d.setSection s).fuses = d.fuses := by
  unfold Dev.setSection
  split <;> simp

@[simp] theorem Dev.formeApply_fuses (d : Dev) (img : List Byte) : (d.formeApply img).fuses = d.fuses := by simp [Dev.formeApply]

@[simp] theorem Dev.gateChanges_fuses (d : Dev) : d.gateChanges.fuses = d.fuses := by
  unfold Dev.gateChanges
  split <;> simp

@[simp] theorem Dev.frerKeep_fuses (d old : Dev) : (d.frerKeep old).fuses = d.fuses := by simp [Dev.frerKeep]

@[simp] theorem Dev.unsetSection_fuses (d : Dev) (s : Section) : (d.unsetSection s).fuses = d.fuses := by
  unfold Dev.unsetSection
  split <;> simp

@[simp] theorem Dev.formeUpdate_fuses (d : Dev) (img : List Byte) : (d.formeUpdate img).fuses = d.fuses := by simp [Dev.formeUpdate]

/-! ## Modes, transitions, package resets, boot, DRAIN, heat, and the monitors of the security domain -/

@[simp] theorem Dev.cleared_fuses (d : Dev) (power : Bool) : (d.cleared power).fuses = d.fuses := by simp [Dev.cleared]
@[simp] theorem Dev.packageReset_fuses (d : Dev) (cause : Nat) (power : Bool) : (d.packageReset cause power).fuses = d.fuses := by simp [Dev.packageReset]
@[simp] theorem Dev.strap_fuses (d : Dev) (refSel : Bool) : (d.strap refSel).fuses = d.fuses := by simp [Dev.strap]
@[simp] theorem Dev.powerOn_fuses (d : Dev) (refSel : Bool) : (d.powerOn refSel).fuses = d.fuses := by simp [Dev.powerOn]
@[simp] theorem Dev.railLow_fuses (d : Dev) : d.railLow.fuses = d.fuses := by simp [Dev.railLow]
@[simp] theorem Dev.railBack_fuses (d : Dev) (refSel : Bool) : (d.railBack refSel).fuses = d.fuses := by simp [Dev.railBack]
@[simp] theorem Dev.thermalTrip_fuses (d : Dev) : d.thermalTrip.fuses = d.fuses := by simp [Dev.thermalTrip]

@[simp] theorem Dev.pinReset_fuses (d : Dev) (refSel : Bool) : (d.pinReset refSel).fuses = d.fuses := by
  unfold Dev.pinReset
  split <;> simp

@[simp] theorem Dev.resetWrite_fuses (d : Dev) (p : Path) (v : Nat) : (d.resetWrite p v).fuses = d.fuses := by simp [Dev.resetWrite]
@[simp] theorem Dev.alertPin_fuses (d : Dev) : d.alertPin.fuses = d.fuses := by simp [Dev.alertPin]
@[simp] theorem Dev.coldAlert_fuses (d : Dev) : d.coldAlert.fuses = d.fuses := by simp [Dev.coldAlert]
@[simp] theorem Dev.dieSample_fuses (d : Dev) (t0 t1 : Int) : (d.dieSample t0 t1).fuses = d.fuses := by simp [Dev.dieSample]
@[simp] theorem Dev.stackReading_fuses (d : Dev) (s : Nat) (t : Int) : (d.stackReading s t).fuses = d.fuses := by simp [Dev.stackReading]
@[simp] theorem Dev.reqStatus_fuses (d : Dev) (s : Nat) : (d.reqStatus s).fuses = d.fuses := by simp [Dev.reqStatus]

@[simp] theorem Dev.request_fuses (d : Dev) (b : Mode) : (d.request b).fuses = d.fuses := by
  simp only [Dev.request]
  repeat' split
  all_goals simp

@[simp] theorem Dev.endTrans_fuses (d : Dev) (s : Nat) : (d.endTrans s).fuses = d.fuses := by simp [Dev.endTrans]

@[simp] theorem Dev.startDeferred_fuses (d : Dev) : d.startDeferred.fuses = d.fuses := by
  simp only [Dev.startDeferred]
  repeat' split
  all_goals simp

@[simp] theorem Dev.seed_fuses (d : Dev) : d.seed.fuses = d.fuses := by simp [Dev.seed]
@[simp] theorem Dev.enter_fuses (d : Dev) (b : Mode) : (d.enter b).fuses = d.fuses := by simp [Dev.enter]

@[simp] theorem Dev.complete__fuses (d : Dev) (a b : Mode) (f : Dev → Dev) (h : ∀ x, (f x).fuses = x.fuses) : (d.complete_ a b f).fuses = d.fuses := by
  simp [Dev.complete_, h]

@[simp] theorem Dev.toLoad_fuses (d : Dev) : d.toLoad.fuses = d.fuses := by simp [Dev.toLoad]
@[simp] theorem Dev.clearFlows_fuses (d : Dev) : d.clearFlows.fuses = d.fuses := by simp [Dev.clearFlows]
@[simp] theorem Dev.startPorts_fuses (d : Dev) : d.startPorts.fuses = d.fuses := by simp [Dev.startPorts]
@[simp] theorem Dev.stopPorts_fuses (d : Dev) : d.stopPorts.fuses = d.fuses := by simp [Dev.stopPorts]
@[simp] theorem Dev.loadToRun_fuses (d : Dev) : d.loadToRun.fuses = d.fuses := by simp [Dev.loadToRun]
@[simp] theorem Dev.loadToProof_fuses (d : Dev) : d.loadToProof.fuses = d.fuses := by simp [Dev.loadToProof]
@[simp] theorem Dev.proofToLoad_fuses (d : Dev) : d.proofToLoad.fuses = d.fuses := by simp [Dev.proofToLoad]
@[simp] theorem Dev.runToDrain_fuses (d : Dev) : d.runToDrain.fuses = d.fuses := by simp [Dev.runToDrain]
@[simp] theorem Dev.drainToRun_fuses (d : Dev) : d.drainToRun.fuses = d.fuses := by simp [Dev.drainToRun]
@[simp] theorem Dev.drainToLoad_fuses (d : Dev) : d.drainToLoad.fuses = d.fuses := by simp [Dev.drainToLoad]
@[simp] theorem Dev.thaw_fuses (d : Dev) : d.thaw.fuses = d.fuses := by simp [Dev.thaw]
@[simp] theorem Dev.sref_fuses (d : Dev) (v : Nat) : (d.sref v).fuses = d.fuses := by simp [Dev.sref]
@[simp] theorem Dev.srefTrace_fuses (d : Dev) (typ : Nat) : (d.srefTrace typ).fuses = d.fuses := by simp [Dev.srefTrace]
@[simp] theorem Dev.drainToRest_fuses (d : Dev) : d.drainToRest.fuses = d.fuses := by simp [Dev.drainToRest]

@[simp] theorem Dev.restToRun_fuses (d : Dev) (eyeFail : Option Nat) : (d.restToRun eyeFail).fuses = d.fuses := by
  simp only [Dev.restToRun]
  repeat' split
  all_goals simp

@[simp] theorem Dev.drainDone_fuses (d : Dev) : d.drainDone.fuses = d.fuses := by simp [Dev.drainDone]
@[simp] theorem Dev.drainTimeout_fuses (d : Dev) : d.drainTimeout.fuses = d.fuses := by simp [Dev.drainTimeout]
@[simp] theorem Dev.pauseRenew_fuses (d : Dev) : d.pauseRenew.fuses = d.fuses := by simp [Dev.pauseRenew]
@[simp] theorem Dev.flushWork_fuses (d : Dev) : d.flushWork.fuses = d.fuses := by simp [Dev.flushWork]
@[simp] theorem Dev.flushFirst_fuses (d : Dev) (n : Nat) (p : Pkt) : (d.flushFirst n p).fuses = d.fuses := by simp [Dev.flushFirst]
@[simp] theorem Dev.flushItem_fuses (d : Dev) (n : Nat) (p : Pkt) : (d.flushItem n p).fuses = d.fuses := by simp [Dev.flushItem]
@[simp] theorem Dev.unlist_fuses (d : Dev) (n : Nat) : (d.unlist n).fuses = d.fuses := by simp [Dev.unlist]

@[simp] theorem Dev.flushPkt_fuses (d : Dev) (n : Nat) : (d.flushPkt n).fuses = d.fuses := by
  unfold Dev.flushPkt
  split <;> simp

@[simp] theorem Dev.flushPkts_fuses (d : Dev) : d.flushPkts.fuses = d.fuses := by simp [Dev.flushPkts]
@[simp] theorem Dev.flushQueues_fuses (d : Dev) : d.flushQueues.1.fuses = d.fuses := by simp [Dev.flushQueues]
@[simp] theorem Dev.flushAll_fuses (d : Dev) : d.flushAll.fuses = d.fuses := by simp [Dev.flushAll]
@[simp] theorem Dev.modeReqWrite_fuses (d : Dev) (p : Path) (v : Nat) : (d.modeReqWrite p v).fuses = d.fuses := by simp [Dev.modeReqWrite]

@[simp] theorem Dev.bootDone_fuses (d : Dev) (flash : FlashRead) : (d.bootDone flash).fuses = d.fuses := by
  simp only [Dev.bootDone]
  repeat' split
  all_goals simp

@[simp] theorem Dev.laneRepaired_fuses (d : Dev) (c : Nat) : (d.laneRepaired c).fuses = d.fuses := by simp [Dev.laneRepaired]
@[simp] theorem Dev.repair_fuses (d : Dev) (rs : List LaneRepair) : (d.repair rs).fuses = d.fuses := by simp [Dev.repair]
@[simp] theorem Dev.stackTrained_fuses (d : Dev) (s : Nat) : (d.stackTrained s).fuses = d.fuses := by simp [Dev.stackTrained]
@[simp] theorem Dev.trained_fuses (d : Dev) (rs : List LaneRepair) : (d.trained rs).fuses = d.fuses := by simp [Dev.trained]
@[simp] theorem Dev.trainFail_fuses (d : Dev) (s : Nat) (f : TrainStop) (step code : Nat) : (d.trainFail s f step code).fuses = d.fuses := by
  simp [Dev.trainFail]

/-! ## Forme deliveries, updates and vendor patch loads, step by step -/

@[simp] theorem Dev.loaderTo_fuses (d : Dev) (s : Nat) : (d.loaderTo s).fuses = d.fuses := by simp [Dev.loaderTo]
@[simp] theorem Dev.formeEnd_fuses (d : Dev) (e : FErr) : (d.formeEnd e).fuses = d.fuses := by simp [Dev.formeEnd]
@[simp] theorem Dev.formeFail_fuses (d : Dev) (e : FErr) : (d.formeFail e).fuses = d.fuses := by simp [Dev.formeFail]
@[simp] theorem Dev.formeOk_fuses (d : Dev) : d.formeOk.fuses = d.fuses := by simp [Dev.formeOk]
@[simp] theorem Dev.formeCtlWrite_fuses (d : Dev) (p : Path) (v : Nat) : (d.formeCtlWrite p v).fuses = d.fuses := by simp [Dev.formeCtlWrite]

@[simp] theorem Dev.formeFetched_fuses (d : Dev) (img : Option (List Byte)) : (d.formeFetched img).fuses = d.fuses := by
  simp only [Dev.formeFetched]
  repeat' split
  all_goals simp

@[simp] theorem Dev.formeVerified_fuses (d : Dev) : d.formeVerified.fuses = d.fuses := by
  simp only [Dev.formeVerified]
  repeat' split
  all_goals simp

@[simp] theorem Dev.formeValidated_fuses (d : Dev) : d.formeValidated.fuses = d.fuses := by
  simp only [Dev.formeValidated]
  repeat' split
  all_goals simp

@[simp] theorem Dev.formeQuiesced_fuses (d : Dev) : d.formeQuiesced.fuses = d.fuses := by simp [Dev.formeQuiesced]
@[simp] theorem Dev.quiesceTimeout_fuses (d : Dev) : d.quiesceTimeout.fuses = d.fuses := by simp [Dev.quiesceTimeout]
@[simp] theorem Dev.formeApplied_fuses (d : Dev) : d.formeApplied.fuses = d.fuses := by simp [Dev.formeApplied]
@[simp] theorem Dev.formeSwitched_fuses (d : Dev) : d.formeSwitched.fuses = d.fuses := by simp [Dev.formeSwitched]
@[simp] theorem Dev.patchEnd_fuses (d : Dev) (cause rec_ : Nat) : (d.patchEnd cause rec_).fuses = d.fuses := by simp [Dev.patchEnd]
@[simp] theorem Dev.patchFail_fuses (d : Dev) (cause rec_ : Nat) : (d.patchFail cause rec_).fuses = d.fuses := by simp [Dev.patchFail]
@[simp] theorem Dev.patchCtlWrite_fuses (d : Dev) (p : Path) (v : Nat) : (d.patchCtlWrite p v).fuses = d.fuses := by simp [Dev.patchCtlWrite]
@[simp] theorem Dev.patchApply_fuses (d : Dev) (img : List Byte) : (d.patchApply img).fuses = d.fuses := by simp [Dev.patchApply]

@[simp] theorem Dev.patchLoaded_fuses (d : Dev) (img : Option (List Byte)) : (d.patchLoaded img).fuses = d.fuses := by
  simp only [Dev.patchLoaded]
  repeat' split
  all_goals simp

@[simp] theorem Dev.monitor_fuses (d : Dev) : d.monitor.fuses = d.fuses := by simp [Dev.monitor]

/-! ## The PCIe endpoints and the host port's rings -/

@[simp] theorem Dev.unsupported_fuses (d : Dev) : d.unsupported.fuses = d.fuses := by simp [Dev.unsupported]
@[simp] theorem Dev.txFinish_fuses (d : Dev) (t : Nat) (desc : List Byte) (st : Nat) : (d.txFinish t desc st).fuses = d.fuses := by simp [Dev.txFinish]

@[simp] theorem Dev.txBypass_fuses (d : Dev) (g head : Nat) (desc fr : List Byte) (sid : Option Nat) : (d.txBypass g head desc fr sid).fuses = d.fuses := by
  unfold Dev.txBypass
  simp only
  split
  next x hx => simp [Dev.enqOk_fuses hx]
  next => simp

theorem Dev.txSend_fuses {d x : Dev} {t : Nat} {desc frame : List Byte} (h : d.txSend t desc frame = some x) : x.fuses = d.fuses := by
  unfold Dev.txSend at h
  simp only at h
  split at h
  · simp at h
  next y head heq =>
    simp only [Option.some.injEq] at h
    rw [← h]
    simp [fuses_of_fst heq]

@[simp] theorem Dev.txRefused_fuses (d : Dev) (t : Nat) (frame : List Byte) : (d.txRefused t frame).fuses = d.fuses := by simp [Dev.txRefused]

@[simp] theorem Dev.txProcess_fuses (d : Dev) (t : Nat) (desc : List Byte) (frame : Option (List Byte)) : (d.txProcess t desc frame).fuses = d.fuses := by
  unfold Dev.txProcess
  split
  · rfl
  · split
    · split
      next x hx => exact Dev.txSend_fuses hx
      next => simp
    · simp

@[simp] theorem Dev.txRetry_fuses (d : Dev) (t : Nat) : (d.txRetry t).fuses = d.fuses := by
  unfold Dev.txRetry
  split
  · rfl
  · split
    · rfl
    · simp only
      split
      next x hx => simp [Dev.txSend_fuses hx]
      next => simp

@[simp] theorem Dev.rxWrite_fuses (d : Dev) (k t : Nat) (e : QEnt) (bytes desc : List Byte) : (d.rxWrite k t e bytes desc).fuses = d.fuses := by
  simp [Dev.rxWrite]
@[simp] theorem Dev.rxOut_fuses (d : Dev) (k t : Nat) (e : QEnt) (desc : List Byte) : (d.rxOut k t e desc).fuses = d.fuses := by simp [Dev.rxOut]
@[simp] theorem Dev.rxWait_fuses (d : Dev) (k : Nat) : (d.rxWait k).fuses = d.fuses := by simp [Dev.rxWait]

@[simp] theorem Dev.hostDeliver_fuses (d : Dev) (c : Nat) (desc : List Byte) : (d.hostDeliver c desc).fuses = d.fuses := by
  unfold Dev.hostDeliver
  split
  · rfl
  · dsimp only
    refine fuses_ite_of (Dev.rxWait_fuses ..) ?_
    split
    next heq =>
      refine fuses_ite_of ?_ (Dev.accrueAll_fuses ..)
      rw [Dev.rxOut_fuses, Dev.leaveQ_fuses, fuses_of_fst heq, Dev.pickClass_fuses, Dev.accrueAll_fuses]
    next heq => rw [fuses_of_fst heq, Dev.pickClass_fuses, Dev.accrueAll_fuses]

@[simp] theorem Dev.rxDeliver_fuses (d : Dev) (k c : Nat) (desc : List Byte) : (d.rxDeliver k c desc).fuses = d.fuses := by
  simp only [Dev.rxDeliver]
  repeat' split
  all_goals simp

@[simp] theorem Dev.dropHostVoq_fuses (d : Dev) (k : Nat) (gc : Nat × Nat) : (d.dropHostVoq k gc).fuses = d.fuses := by simp [Dev.dropHostVoq]
@[simp] theorem Dev.dropHost_fuses (d : Dev) (k : Nat) : (d.dropHost k).fuses = d.fuses := by simp [Dev.dropHost]
@[simp] theorem Dev.hifReset_fuses (d : Dev) (k : Nat) (keepStat : Bool) : (d.hifReset k keepStat).fuses = d.fuses := by simp [Dev.hifReset]
@[simp] theorem Dev.pcieReset_fuses (d : Dev) (k : Nat) (kind : PcieReset) : (d.pcieReset k kind).fuses = d.fuses := by simp [Dev.pcieReset]
@[simp] theorem Dev.linkStat_fuses (d : Dev) (k speed width : Nat) : (d.linkStat k speed width).fuses = d.fuses := by simp [Dev.linkStat]
@[simp] theorem Dev.epRelease_fuses (d : Dev) (k : Nat) : (d.epRelease k).fuses = d.fuses := by simp [Dev.epRelease]
@[simp] theorem Dev.epReady_fuses (d : Dev) (k speed width : Nat) (mem bus : Bool) : (d.epReady k speed width mem bus).fuses = d.fuses := by simp [Dev.epReady]
@[simp] theorem Dev.epDown_fuses (d : Dev) (k : Nat) : (d.epDown k).fuses = d.fuses := by simp [Dev.epDown]
@[simp] theorem Dev.epBack_fuses (d : Dev) (k speed width : Nat) : (d.epBack k speed width).fuses = d.fuses := by simp [Dev.epBack]
@[simp] theorem Dev.updEp_fuses (d : Dev) (k : Nat) (f : Endpoint → Endpoint) : (d.updEp k f).fuses = d.fuses := by simp [Dev.updEp]
@[simp] theorem Dev.unmask_fuses (d : Dev) (k v : Nat) : (d.unmask k v).fuses = d.fuses := by simp [Dev.unmask]

@[simp] theorem Dev.epAnswer_fuses (d : Dev) (k : Nat) (known : Option Nat) : (d.epAnswer k known).fuses = d.fuses := by
  unfold Dev.epAnswer
  split <;> simp

@[simp] theorem Dev.cfgRead_fuses (d : Dev) (k off : Nat) : (d.cfgRead k off).fuses = d.fuses := by simp [Dev.cfgRead]
@[simp] theorem Dev.bar2Read_fuses (d : Dev) (k off : Nat) : (d.bar2Read k off).fuses = d.fuses := by simp [Dev.bar2Read]

@[simp] theorem Dev.cfgRequest_fuses (d : Dev) (k : Nat) (f : Dev → Dev) (h : ∀ x, (f x).fuses = x.fuses) : (d.cfgRequest k f).fuses = d.fuses := by
  simp [Dev.cfgRequest, h]

@[simp] theorem Dev.cfgWrite_fuses (d : Dev) (k : Nat) (mem bus d3 : Bool) : (d.cfgWrite k mem bus d3).fuses = d.fuses := by simp [Dev.cfgWrite]

/-! ## What a write of each register does and what a read of it returns -/

@[simp] theorem Dev.fieldsWrite_fuses (d : Dev) (r : RegSpec) (ix : List Nat) (v : Nat) : (d.fieldsWrite r ix v).fuses = d.fuses := by simp [Dev.fieldsWrite]

@[simp] theorem Dev.freshBytes_fuses (n : Nat) (d : Dev) : (Dev.freshBytes n d).2.fuses = d.fuses := by
  induction n generalizing d with
  | zero => rfl
  | succ n ih => simp [Dev.freshBytes, ih]

@[simp] theorem Dev.keyWrite_fuses (d : Dev) (n v : Nat) : (d.keyWrite n v).fuses = d.fuses := by simp [Dev.keyWrite]
@[simp] theorem Dev.ringWrite_fuses (d : Dev) (cfg head tail : RegSpec) (ix : List Nat) (v : Nat) : (d.ringWrite cfg head tail ix v).fuses = d.fuses := by
  simp [Dev.ringWrite]
@[simp] theorem Dev.txCfgWrite_fuses (d : Dev) (ix : List Nat) (v : Nat) : (d.txCfgWrite ix v).fuses = d.fuses := by simp [Dev.txCfgWrite]
@[simp] theorem Dev.prbsWrite_fuses (d : Dev) (ix : List Nat) (v : Nat) : (d.prbsWrite ix v).fuses = d.fuses := by simp [Dev.prbsWrite]

@[simp] theorem Dev.dropStaged_fuses (d : Dev) (p : Path) (h : Hit) : (d.dropStaged p h).fuses = d.fuses := by
  simp only [Dev.dropStaged]
  split <;> simp

@[simp] theorem Dev.holdAcc_fuses (d : Dev) (p : Path) (off : Nat) (wr : Option Word) : (d.holdAcc p off wr).fuses = d.fuses := by simp [Dev.holdAcc]
@[simp] theorem Dev.setHits_fuses (d : Dev) (ix : List Nat) (n : Nat) : (d.setHits ix n).fuses = d.fuses := by simp [Dev.setHits]
@[simp] theorem Dev.parRead_fuses (d : Dev) (p : Path) (ix : List Nat) : (d.parRead p ix).fuses = d.fuses := by simp [Dev.parRead]
@[simp] theorem Dev.hitsRead_fuses (d : Dev) (p : Path) (ix : List Nat) (inc : Nat) : (d.hitsRead p ix inc).fuses = d.fuses := by simp [Dev.hitsRead]
@[simp] theorem Dev.patchRead_fuses (d : Dev) (p : Path) : (d.patchRead p).fuses = d.fuses := by simp [Dev.patchRead]
@[simp] theorem Dev.tcamStatRead_fuses (d : Dev) (p : Path) (ix : List Nat) : (d.tcamStatRead p ix).fuses = d.fuses := by simp [Dev.tcamStatRead]
@[simp] theorem Dev.trcShow_fuses (d : Dev) (p : Path) (r : RegSpec) (ix : List Nat) : (d.trcShow p r ix).fuses = d.fuses := by simp [Dev.trcShow]

@[simp] theorem Dev.withInc_fuses (d : Dev) (r : RegSpec) (ix : List Nat) (inc : Nat) : (d.withInc r ix inc).fuses = d.fuses := by
  simp only [Dev.withInc]
  repeat' split
  all_goals simp

@[simp] theorem Dev.clearedBy_fuses (d : Dev) (h : Hit) (hi lo inc : Nat) : (d.clearedBy h hi lo inc).fuses = d.fuses := by simp [Dev.clearedBy]

@[simp] theorem Dev.plainRead_fuses (d : Dev) (p : Path) (h : Hit) (inc : Nat) : (d.plainRead p h inc).fuses = d.fuses := by
  simp only [Dev.plainRead]
  repeat' split
  all_goals simp

@[simp] theorem Dev.tally_fuses (d : Dev) (h : Hit) : (d.tally h).fuses = d.fuses := by simp [Dev.tally]

@[simp] theorem Dev.regRead_fuses (d : Dev) (p : Path) (h : Hit) (inc : Nat) : (d.regRead p h inc).fuses = d.fuses := by
  have hread : ∀ r ∈ readers, ∀ (x : Dev) (p : Path) (ix : List Nat) (inc : Nat), (r.2 x p ix inc).fuses = x.fuses := by
    simp [readers]
  unfold Dev.regRead
  extract_lets x
  have hx : x.fuses = d.fuses := Dev.tally_fuses ..
  clear_value x
  refine fuses_ite_of ((Dev.mregRead_fuses ..).trans hx) (fuses_ite_of ((Dev.trcLatch_fuses ..).trans hx) ?_)
  split
  next r hr => exact (hread r (List.mem_of_find?_eq_some hr) ..).trans hx
  next => exact (Dev.plainRead_fuses ..).trans hx

@[simp] theorem Dev.doRead_fuses (d : Dev) (p : Path) (off inc : Nat) : (d.doRead p off inc).fuses = d.fuses := by
  simp only [Dev.doRead]
  repeat' split
  all_goals simp

@[simp] theorem Dev.plainInc_fuses (d : Dev) (off inc : Nat) : (d.plainInc off inc).fuses = d.fuses := by
  unfold Dev.plainInc
  split <;> simp

@[simp] theorem Dev.hostRead_fuses (d : Dev) (p : Path) (off : Nat) (inc : Nat) : (d.hostRead p off inc).fuses = d.fuses := by
  simp only [Dev.hostRead]
  repeat' split
  all_goals simp

@[simp] theorem Dev.galAnswer_fuses (d : Dev) (down : Bool) (cmd seq : Nat) (pay : List Byte) : (d.galAnswer down cmd seq pay).fuses = d.fuses := by
  simp [Dev.galAnswer]
@[simp] theorem Dev.galDone_fuses (d : Dev) (w : Bool × Nat × Nat) (off : Nat) : (d.galDone w off).fuses = d.fuses := by simp [Dev.galDone]

/-! ## The galley chain -/

@[simp] theorem Dev.galForward_fuses (d : Dev) (down : Bool) (fr : List Byte) : (d.galForward down fr).fuses = d.fuses := by simp [Dev.galForward]

@[simp] theorem Dev.galCred_fuses (d : Dev) (fr : List Byte) (f : Dev → Dev × List Byte) (h : ∀ x, (f x).1.fuses = x.fuses) :
    (d.galCred fr f).1.fuses = d.fuses := by
  unfold Dev.galCred
  split <;> simp [h]

@[simp] theorem badLen_fuses (fr : List Byte) (n : Nat) (x : Dev × List Byte) (d : Dev) (h : x.1.fuses = d.fuses) : (badLen fr n x d).1.fuses = d.fuses := by
  simp [badLen, h]

@[simp] theorem Dev.galEnum_fuses (d : Dev) (down : Bool) (fr : List Byte) : (d.galEnum down fr).1.fuses = d.fuses := by simp [Dev.galEnum]

@[simp] theorem Dev.galIdent_fuses (d : Dev) (fr : List Byte) : (d.galIdent fr).1.fuses = d.fuses := by
  unfold Dev.galIdent
  split <;> simp

@[simp] theorem Dev.galStatus_fuses (d : Dev) (fr : List Byte) : (d.galStatus fr).1.fuses = d.fuses := by simp [Dev.galStatus]
@[simp] theorem Dev.galErrlog_fuses (d : Dev) (fr : List Byte) : (d.galErrlog fr).1.fuses = d.fuses := by simp [Dev.galErrlog]
@[simp] theorem Dev.galTime_fuses (d : Dev) (fr : List Byte) : (d.galTime fr).1.fuses = d.fuses := by simp [Dev.galTime]
@[simp] theorem Dev.galSay_fuses (down : Bool) (fr : List Byte) (x : Dev × List Byte) : (Dev.galSay down fr x).fuses = x.1.fuses := by simp [Dev.galSay]
@[simp] theorem Dev.galSig_fuses (d : Dev) (down : Bool) (v : Nat) : (d.galSig down v).fuses = d.fuses := by simp [Dev.galSig]
@[simp] theorem Dev.galSend_fuses (d : Dev) (down : Bool) (cmd : Nat) (pay : List Byte) : (d.galSend down cmd pay).fuses = d.fuses := by simp [Dev.galSend]
@[simp] theorem Dev.galLoss_fuses (d : Dev) (down : Bool) : (d.galLoss down).fuses = d.fuses := by simp [Dev.galLoss]
@[simp] theorem Dev.galAttach_fuses (d : Dev) (down : Bool) : (d.galAttach down).fuses = d.fuses := by simp [Dev.galAttach]

@[simp] theorem Dev.galAlert_fuses (d : Dev) : d.galAlert.fuses = d.fuses := by
  unfold Dev.galAlert
  split <;> simp

/-! ## What the meanings share -/

@[simp] theorem Dev.walkTick_fuses (d : Dev) (k n : Nat) : (d.walkTick k n).fuses = d.fuses := by
  unfold Dev.walkTick
  split <;> simp

@[simp] theorem Dev.timerFire_fuses (d : Dev) (k n : Nat) : (d.timerFire k n).fuses = d.fuses := by simp [Dev.timerFire]
@[simp] theorem Dev.timStepped_fuses (d : Dev) (was now : Int) : (d.timStepped was now).fuses = d.fuses := by simp [Dev.timStepped]
@[simp] theorem Dev.timAct_fuses (d : Dev) (c : TimCmd) : (d.timAct c).fuses = d.fuses := by simp [Dev.timAct]

@[simp] theorem Dev.epochReached_fuses (d : Dev) : d.epochReached.fuses = d.fuses := by
  unfold Dev.epochReached
  split <;> simp

@[simp] theorem Dev.epochPassed_fuses (d : Dev) : d.epochPassed.fuses = d.fuses := by
  unfold Dev.epochPassed
  split <;> simp

@[simp] theorem Dev.idle_fuses (d : Dev) : d.idle.fuses = d.fuses := by simp [Dev.idle]
@[simp] theorem Dev.apertureWait_fuses (d : Dev) (p : Path) (k off : Nat) (wr : Option Word) : (d.apertureWait p k off wr).fuses = d.fuses := by
  simp [Dev.apertureWait]

end Sys2Proof.Machine
end

section
/-! SUPPORT. The one-time-programmable store across the commands of SEC_OTP_CMD (R650, R665, R666): what they program stays, and what runs them adds to it and
takes nothing away. -/

namespace Sys2Proof.Machine

section
variable {a b c : Fuses}

@[simp] theorem Fuses.extends_refl (a : Fuses) : a.extends a := ⟨rfl, rfl, rfl, List.prefix_rfl, le_rfl, le_rfl⟩

theorem Fuses.extends.of_eq (h : b = a) : a.extends b := h ▸ a.extends_refl

theorem Fuses.extends.trans (hab : a.extends b) (hbc : b.extends c) : a.extends c := by
  obtain ⟨hv, hd, hi, ho, hvs, hos⟩ := hab
  obtain ⟨hv', hd', hi', ho', hvs', hos'⟩ := hbc
  exact ⟨hv'.trans hv, hd'.trans hd, hi'.trans hi, ho.trans ho', hvs.trans hvs', hos.trans hos'⟩

/-- An owner root joins those programmed. -/
theorem SecS.extends_oroot (s : SecS) (l : List (List Byte)) : s.fuses.extends { s with oroot := s.oroot ++ l }.fuses :=
  ⟨rfl, rfl, rfl, List.prefix_append _ _, le_rfl, le_rfl⟩

theorem SecS.extends_osvn (s : SecS) {n : Nat} (h : s.osvn ≤ n) : s.fuses.extends { s with osvn := n }.fuses :=
  ⟨rfl, rfl, rfl, List.prefix_rfl, le_rfl, h⟩

theorem SecS.extends_vsvn (s : SecS) {n : Nat} (h : s.vsvn ≤ n) : s.fuses.extends { s with vsvn := n }.fuses :=
  ⟨rfl, rfl, rfl, List.prefix_rfl, h, le_rfl⟩

theorem extends_ite {p : Prop} [Decidable p] {x y : Dev} (hx : a.extends x.fuses) (hy : a.extends y.fuses) : a.extends (if p then x else y).fuses := by
  split
  · exact hx
  · exact hy

end

/-! ## The commands of SEC_OTP_CMD (R665, R666) -/

section
variable (d : Dev)

@[simp] theorem Dev.raiseOsvn_extends (arg : Nat) : d.fuses.extends (d.raiseOsvn arg).fuses := by
  unfold Dev.raiseOsvn
  split_ifs with hmode harg
  · simp
  · simp
  · have hle : d.sec.osvn ≤ arg := by
      simp only [Bool.or_eq_true, decide_eq_true_eq, not_or, not_lt] at harg
      exact harg.1.1
    simpa using d.sec.extends_osvn hle

@[simp] theorem Dev.raiseVsvn_extends (arg : Nat) : d.fuses.extends (d.raiseVsvn arg).fuses := by
  unfold Dev.raiseVsvn
  split_ifs with hmode harg
  · simp
  · simp
  · have hle : d.sec.vsvn ≤ arg := by
      simp only [Bool.or_eq_true, decide_eq_true_eq, not_or, not_lt] at harg
      exact harg.1.1
    simpa using d.sec.extends_vsvn hle

@[simp] theorem Dev.progOroot_extends (arg : Nat) (blob : Option (List Byte)) : d.fuses.extends (d.progOroot arg blob).fuses := by
  unfold Dev.progOroot
  extract_lets s
  refine extends_ite (by simp) (extends_ite (by simp) (extends_ite (by simp) (extends_ite (by simp) ?_)))
  split
  · simp
  · refine extends_ite (by simp) (extends_ite (by simp) ?_)
    simpa [s] using d.sec.extends_oroot _

@[simp] theorem Dev.otpWrite_extends (v : Nat) : d.fuses.extends (d.otpWrite v).fuses := by
  conv => enter [2, 1]; fun; fun; delta Dev.otpWrite
  extract_lets arg
  obtain ⟨fetch, hfetch⟩ : ∃ f, f = Dev.freshBytes 29992 := ⟨_, rfl⟩
  have hkept : ∀ x, (fetch x).2.fuses = x.fuses := hfetch ▸ Dev.freshBytes_fuses 29992
  rw [← hfetch]
  split
  · split
    next f x hx =>
      split
      next b y hy =>
        have hyd : y.fuses = d.fuses := by rw [fuses_of_snd hy, hkept, fuses_of_snd hx, Dev.fresh_fuses]
        exact hyd ▸ y.progOroot_extends ..
  · simp
  · simp

end

/-! ## Writes of registers -/

theorem writersGlb_extends : ∀ w ∈ writersGlb, ∀ (d : Dev) (p : Path) (ix : List Nat) (v : Nat), d.fuses.extends (w.2 d p ix v).fuses := by
  simp [writersGlb]

theorem writersFlw_fuses : ∀ w ∈ writersFlw, ∀ (d : Dev) (p : Path) (ix : List Nat) (v : Nat), (w.2 d p ix v).fuses = d.fuses := by
  simp only [writersFlw, List.forall_mem_cons]
  refine ⟨?hcmd, by simp, ?rcmd, by simp, by simp, ?bal, by simp⟩
  all_goals
    intro d p ix v
    split <;> simp

theorem writersMat_fuses : ∀ w ∈ writersMat, ∀ (d : Dev) (p : Path) (ix : List Nat) (v : Nat), (w.2 d p ix v).fuses = d.fuses := by
  simp only [writersMat, List.forall_mem_cons]
  refine ⟨?tcam, ?exact, by simp, ?l2, by simp, by simp, ?tsk, by simp⟩
  all_goals
    intro d p ix v
    split <;> simp

theorem writersMac_fuses : ∀ w ∈ writersMac, ∀ (d : Dev) (p : Path) (ix : List Nat) (v : Nat), (w.2 d p ix v).fuses = d.fuses := by
  simp [writersMac]

theorem writers_extends {w : RegSpec × (Dev → Path → List Nat → Nat → Dev)} (h : w ∈ writers) (d : Dev) (p : Path) (ix : List Nat) (v : Nat) :
    d.fuses.extends (w.2 d p ix v).fuses := by
  simp only [writers, List.mem_append] at h
  obtain ((hglb | hflw) | hmat) | hmac := h
  · exact writersGlb_extends w hglb d p ix v
  · exact .of_eq (writersFlw_fuses w hflw d p ix v)
  · exact .of_eq (writersMat_fuses w hmat d p ix v)
  · exact .of_eq (writersMac_fuses w hmac d p ix v)

section
variable (d : Dev)

@[simp] theorem Dev.performWrite_extends (p : Path) (h : Hit) (v : Nat) : d.fuses.extends (d.performWrite p h v).fuses := by
  unfold Dev.performWrite
  split
  next w hw => exact writers_extends (List.mem_of_find?_eq_some hw) d p h.ix v
  next => simp

@[simp] theorem Dev.landWrite_extends (p : Path) (h : Hit) (v w : Nat) : d.fuses.extends (d.landWrite p h v w).fuses := by
  unfold Dev.landWrite
  refine extends_ite (by simp) (.trans (.of_eq ?_) (Dev.performWrite_extends ..))
  simp

@[simp] theorem Dev.regWrite_extends (p : Path) (off v : Nat) (h : Hit) : d.fuses.extends (d.regWrite p off v h).fuses := by
  unfold Dev.regWrite
  extract_lets x full w own b gal
  have hx : x.fuses = d.fuses := Dev.dropStaged_fuses ..
  refine extends_ite (by simp [hx]) (extends_ite (by simp [hx]) (.trans (.of_eq ?_) (Dev.landWrite_extends ..)))
  simp [hx]

@[simp] theorem Dev.doWrite_extends (p : Path) (off : Nat) (v : Word) : d.fuses.extends (d.doWrite p off v).fuses := by
  unfold Dev.doWrite
  split
  · simp
  · simp
  · exact extends_ite (by simp) (by simp)
  · simp

@[simp] theorem Dev.hostWrite_extends (p : Path) (off : Nat) (v : Word) : d.fuses.extends (d.hostWrite p off v).fuses := by
  unfold Dev.hostWrite
  exact extends_ite (by simp) (extends_ite (by simp) (by simp))

/-! ## Accesses that waited (R109) -/

@[simp] theorem Dev.turn_extends (x : Path × Nat × Option Word) : d.fuses.extends (d.turn x).fuses := by
  unfold Dev.turn
  extract_lets y
  have hy : d.fuses.extends y.fuses := by
    unfold y
    split <;> simp
  split
  · simpa using hy
  · exact hy

theorem foldl_turn_extends (l : List (Path × Nat × Option Word)) : d.fuses.extends (l.foldl Dev.turn d).fuses :=
  List.foldlRecOn (motive := fun y => d.fuses.extends y.fuses) l Dev.turn d.fuses.extends_refl fun y hy x _ => hy.trans (y.turn_extends x)

@[simp] theorem Dev.released_extends : d.fuses.extends d.released.fuses := by
  unfold Dev.released
  refine extends_ite (by simp) (.trans (.of_eq ?_) (foldl_turn_extends ..))
  simp

/-! ## The galley chain (R642) -/

@[simp] theorem Dev.galAccess_extends (down : Bool) (fr : List Byte) (wr : Bool) : d.fuses.extends (d.galAccess down fr wr).fuses := by
  unfold Dev.galAccess
  extract_lets cmd seq say x off y w
  have hsay : ∀ x pay, (say x pay).fuses = x.fuses := fun x pay => by simp [say]
  refine extends_ite (by simp [hsay]) ?_
  split
  · simp [hsay]
  · simp [hsay]
  · have hx : x.fuses = d.fuses := Dev.setW_fuses ..
    have hy : d.fuses.extends y.fuses := by
      rw [← hx]
      exact extends_ite (by simp) (by simp)
    refine extends_ite (by simp [hsay, hx]) (extends_ite hy (extends_ite ?_ ?_))
    · simpa using hy
    · simpa using hy

@[simp] theorem Dev.galAct_extends (down : Bool) (fr : List Byte) : d.fuses.extends (d.galAct down fr).fuses := by
  unfold Dev.galAct
  extract_lets say
  have hsay : ∀ x, (say x).fuses = x.1.fuses := fun x => by simp [say]
  split
  · simp [hsay]
  · simp [hsay]
  · refine extends_ite (by simp [hsay]) ?_
    split <;> simp [hsay]

@[simp] theorem Dev.galFrame_extends (down : Bool) (fr : List Byte) : d.fuses.extends (d.galFrame down fr).fuses := by
  unfold Dev.galFrame
  extract_lets mine x
  have hx : x.fuses = d.fuses := by simp [x]
  refine extends_ite (by simp) (extends_ite (by simp [hx]) (extends_ite ?_ (by simp [hx])))
  exact hx ▸ x.galAct_extends ..

@[simp] theorem Dev.credLock_extends (p : Path) : d.fuses.extends (d.credLock p).fuses := Dev.hostWrite_extends ..

/-! ## Commands that are host accesses -/

@[simp] theorem Dev.hostOp_extends (p : Path) (r : RegSpec) (ix : List Nat) (fs : List (String × Nat)) : d.fuses.extends (d.hostOp p r ix fs).fuses :=
  Dev.hostWrite_extends ..

@[simp] theorem Dev.hostSet_extends (p : Path) (r : RegSpec) (ix : List Nat) (f : String) : d.fuses.extends (d.hostSet p r ix f).fuses :=
  Dev.hostWrite_extends ..

@[simp] theorem Dev.modeBoth_extends (v w : Word) : d.fuses.extends (d.modeBoth v w).fuses := by
  unfold Dev.modeBoth
  extract_lets off both x
  have hx : d.fuses.extends x.fuses := Dev.hostWrite_extends ..
  refine hx.trans (extends_ite ?_ (by simp))
  simp

@[simp] theorem Dev.modeWrites_extends (p : Path) (v : Word) (other : Option Word) : d.fuses.extends (d.modeWrites p v other).fuses := by
  unfold Dev.modeWrites
  split <;> simp

@[simp] theorem Dev.tcamWriteCmd_extends (p : Path) (g prof i flip : Nat) : d.fuses.extends (d.tcamWriteCmd p g prof i flip).fuses := by
  unfold Dev.tcamWriteCmd
  extract_lets m x n
  have hx : d.fuses.extends x.fuses := .trans (.of_eq (by simp)) (Dev.hostOp_extends ..)
  simpa using hx

@[simp] theorem Dev.progWrite_extends (p : Path) (arg : Nat) (blob : Option (List Byte)) : d.fuses.extends (d.progWrite p arg blob).fuses := by
  unfold Dev.progWrite
  exact extends_ite (by simp) (by simp)

@[simp] theorem Dev.apertureAccess_extends (p : Path) (k off : Nat) (wr : Option Word) : d.fuses.extends (d.apertureAccess p k off wr).fuses := by
  unfold Dev.apertureAccess
  split <;> simp

@[simp] theorem Dev.rxBell_extends (p : Path) (k t v : Nat) : d.fuses.extends (d.rxBell p k t v).fuses := by
  unfold Dev.rxBell
  exact extends_ite (extends_ite (by simp) (by simp)) (by simp)

@[simp] theorem Dev.bell_extends (k off : Nat) (v : Word) : d.fuses.extends (d.bell k off v).fuses := by
  unfold Dev.bell
  exact extends_ite (by simp) (extends_ite (extends_ite (by simp) (by simp)) (extends_ite (by simp) (by simp)))

@[simp] theorem Dev.bar2Write_extends (k off : Nat) (v : Word) : d.fuses.extends (d.bar2Write k off v).fuses := by
  unfold Dev.bar2Write
  exact extends_ite (by simp) (extends_ite (by simp) (by simp))

@[simp] theorem Dev.epAccess_extends (k : Nat) (op : EpOp) : d.fuses.extends (d.epAccess k op).fuses := by
  unfold Dev.epAccess
  split <;> simp

@[simp] theorem Dev.registerWrite_extends (p : Path) (off : Nat) (v hw : Word) : d.fuses.extends (d.registerWrite p off v hw).fuses := by
  unfold Dev.registerWrite
  extract_lets x
  have hx : d.fuses.extends x.fuses := Dev.hostWrite_extends ..
  split
  · exact extends_ite hx (by simpa using hx)
  · exact hx

end

end Sys2Proof.Machine
end

section
/-! SUPPORT. The one-time-programmable store across every command (R650). -/

namespace Sys2Proof.Machine

theorem within_extends {ok : Bool} {s t : State} {f : Dev → Dev} (hf : s.dev.fuses.extends (f s.dev).fuses) (h : within ok s f = .next t) :
    s.dev.fuses.extends t.dev.fuses := by
  cases ok with
  | false => cases h
  | true =>
    cases h
    exact hf

theorem extends_released {a : Fuses} {d : Dev} (h : d.fuses = a) : a.extends d.released.fuses := h ▸ d.released_extends

/-- A command's meaning keeps the store by what is known of the operations it is made of; nine of them also let the accesses that waited go on. -/
theorem exec_extends {c : Instr} {s t : State} (h : exec c s = .next t) : s.dev.fuses.extends t.dev.fuses := by
  cases c
  all_goals
    simp only [exec] at h
    refine within_extends ?_ h
  case pcieReset | formeFetchComplete | formeVerifyComplete | formeValidateComplete | formeQuiesceComplete | formeQuiesceTimeout | updateSwitchPoint
    | formeApplyComplete | monitorTrip => exact extends_released (by simp)
  all_goals simp

/-- Settles O48: an idle step does not touch the store, and any other step is a command's meaning. -/
theorem programmedBitsAreNeverCleared : Obligations.ProgrammedBitsAreNeverCleared := by
  intro s t h
  cases hp : s.pending with
  | nil =>
    rw [step_nil hp] at h
    cases h
    exact .of_eq (Dev.idle_fuses _)
  | cons c cs =>
    rw [step_cons hp] at h
    exact exec_extends (s := { s with pending := cs }) h

end Sys2Proof.Machine
end
